-- ==== Sys2Proof/Word.lean ====
section
/-! DEFINITION. The words of the MG-440 that the reference treats as bits: bytes, the 32-bit counts, the 48-bit time tag. -/

namespace Sys2Proof

/-- One byte of a frame, of the flash or of the acquisition memory (R213); a sample code is one byte (R25). -/
abbrev Byte := BitVec 8

/-- The 32-bit counts that wrap: the generation G (R12), count done (R46). -/
abbrev Count := BitVec 32

/-- A capture serial, 32 bits (R44). -/
abbrev Serial := BitVec 32

/-- The 48-bit time tag, in ticks of 8 ns (R42). -/
abbrev Tick := BitVec 48

end Sys2Proof
end

