-- ==== Sys2Proof/Syntax.lean ====
section
/-! DEFINITION. The commands of the MG-440: one constructor of Instr for each row of spec/opcode_table.json, and the types of their operands. -/

namespace Sys2Proof

/-- A channel n, one of 1 to 4 (00_scope.md, Names). -/
inductive Chan where
  | ch1 | ch2 | ch3 | ch4
  deriving DecidableEq, Repr

/-- One thing for each of the four channels. -/
structure PerChan (α : Type) where
  c1 : α
  c2 : α
  c3 : α
  c4 : α
  deriving DecidableEq, Repr

/-- What the lanes and EXT_TRIG deliver in one nanosecond (R25): the code on LANEn_D of each lane, and the level of
EXT_TRIG (high is true). -/
structure Sample where
  code : PerChan Byte
  ext : Bool
  deriving DecidableEq, Repr

/-- The direction of a detent (R149). -/
inductive Dir where
  | clockwise | anticlockwise
  deriving DecidableEq, Repr

/-- The commands. An order is dispatched by LINK (R202): its operands are the frame's TAG and BODY bytes (R214).
The other rows are events at the pins or steps of the part's own. -/
inductive Instr where
  /-- COLD_RESET (R197): RESET_N rises. -/
  | coldReset
  /-- SELECT_PERIOD_START (R207): LINK_SEL falls. -/
  | selectPeriodStart
  /-- SELECT_PERIOD_END (R199): LINK_SEL rises, after the inbound bytes not yet taken and the bits after the last whole byte. -/
  | selectPeriodEnd (bytes : List Byte) (stray : List Bool)
  /-- FRAME_COMPLETE (R199): the inbound bytes that complete a frame. -/
  | frameComplete (bytes : List Byte)
  /-- FRAME_SENT (R207): the last byte of the outbound frame has been clocked out. -/
  | frameSent
  /-- ORDER_BAD_KIND (R202): a dispatched order of no assigned kind. -/
  | orderBadKind (kind tag : Byte) (body : List Byte)
  /-- IDENT (R209). -/
  | ident (tag : Byte) (body : List Byte)
  /-- STATE (R210). -/
  | state (tag : Byte) (body : List Byte)
  /-- RESTART (R211). -/
  | restart (tag : Byte) (body : List Byte)
  /-- FIELD.SET (R17). -/
  | fieldSet (tag : Byte) (body : List Byte)
  /-- FIELD.GET (R18). -/
  | fieldGet (tag : Byte) (body : List Byte)
  /-- SETUP.READ (R19). -/
  | setupRead (tag : Byte) (body : List Byte)
  /-- SETUP.WRITE (R20). -/
  | setupWrite (tag : Byte) (body : List Byte)
  /-- SETUP.DEFAULT (R21). -/
  | setupDefault (tag : Byte) (body : List Byte)
  /-- RUN (R57). -/
  | run (tag : Byte) (body : List Byte)
  /-- STOP (R62). -/
  | stop (tag : Byte) (body : List Byte)
  /-- SINGLE (R59). -/
  | single (tag : Byte) (body : List Byte)
  /-- FORCE (R56). -/
  | force (tag : Byte) (body : List Byte)
  /-- SEG.READ (R66). -/
  | segRead (tag : Byte) (body : List Byte)
  /-- WAVE.READ (R67). -/
  | waveRead (tag : Byte) (body : List Byte)
  /-- WAVE_READ_DONE (R67): the reads of the oldest WAVE.READ are done. -/
  | waveReadDone
  /-- ARM_AT_RELEASE (R38). -/
  | armAtRelease
  /-- POINT_WRITTEN (R32): the codes taken since the last code taken; the last of them ends an interval. -/
  | pointWritten (codes : List Sample)
  /-- SEGMENT_READY (R48). -/
  | segmentReady
  /-- EDGE_TRIGGER (R54): the codes taken since the last code taken; the last of them is the crossing. -/
  | edgeTrigger (codes : List Sample)
  /-- AUTO_TRIGGER (R55). -/
  | autoTrigger
  /-- CAPTURE_END (R50). -/
  | captureEnd
  /-- LANE_CONDITION_CHANGE (R27): LANEn_LOCK of a channel takes a level (high is true). -/
  | laneConditionChange (n : Chan) (lock : Bool)
  /-- ROLL_COLUMN (R39): the codes taken since the last code taken; the last of them ends a column interval. -/
  | rollColumn (codes : List Sample)
  /-- COLUMNS_LEFT_ZERO (R61). -/
  | columnsLeftZero
  /-- FLAGS.PEEK (R87). -/
  | flagsPeek (tag : Byte) (body : List Byte)
  /-- FLAGS.TAKE (R88). -/
  | flagsTake (tag : Byte) (body : List Byte)
  /-- FLAGS.MASK (R89). -/
  | flagsMask (tag : Byte) (body : List Byte)
  /-- DRAW (R114). -/
  | draw (tag : Byte) (body : List Byte)
  /-- PLANES.CLEAR (R115). -/
  | planesClear (tag : Byte) (body : List Byte)
  /-- DRAW_JOB_START (R106). -/
  | drawJobStart
  /-- DRAW_COLUMN (R101). -/
  | drawColumn
  /-- FRAME_EVENT (R118). -/
  | frameEvent
  /-- TEXT.PUT (R132). -/
  | textPut (tag : Byte) (body : List Byte)
  /-- TEXT.MOVE (R131). -/
  | textMove (tag : Byte) (body : List Byte)
  /-- TEXT.MARK (R131). -/
  | textMark (tag : Byte) (body : List Byte)
  /-- TEXT.RETURN (R131). -/
  | textReturn (tag : Byte) (body : List Byte)
  /-- TEXT.ERASE (R133). -/
  | textErase (tag : Byte) (body : List Byte)
  /-- PALETTE.SET (R124). -/
  | paletteSet (tag : Byte) (body : List Byte)
  /-- SCREEN (R126). -/
  | screen (tag : Byte) (body : List Byte)
  /-- KEY_PRESS (R147): the debounced state of a key changes to DOWN. -/
  | keyPress (key : Fin 64)
  /-- KEY_RELEASE (R142): the debounced state of a key changes to UP. -/
  | keyRelease (key : Fin 64)
  /-- KEY_REPEAT (R143): a scan finds a key at its repeat deadline. -/
  | keyRepeat (key : Fin 64)
  /-- KNOB_DETENT (R150): a knob completes a detent. -/
  | knobDetent (knob : Fin 8) (dir : Dir)
  /-- KNOB_BATCH_RESULT (R154): SETUP hands back the batch of a knob. -/
  | knobBatchResult (knob : Fin 8)
  /-- IDLE_TIMER_EXPIRY (R158). -/
  | idleTimerExpiry
  /-- PANEL.KEYBIND (R146). -/
  | panelKeybind (tag : Byte) (body : List Byte)
  /-- PANEL.KNOBBIND (R152). -/
  | panelKnobbind (tag : Byte) (body : List Byte)
  /-- PANEL.LED (R155). -/
  | panelLed (tag : Byte) (body : List Byte)
  /-- PANEL.LOCK (R157). -/
  | panelLock (tag : Byte) (body : List Byte)
  /-- PANEL.IDLE (R158). -/
  | panelIdle (tag : Byte) (body : List Byte)
  /-- KEYS.READ (R145). -/
  | keysRead (tag : Byte) (body : List Byte)
  /-- KNOBS.READ (R151). -/
  | knobsRead (tag : Byte) (body : List Byte)
  /-- SLOT.SAVE (R173). -/
  | slotSave (tag : Byte) (body : List Byte)
  /-- SLOT.RECALL (R173). -/
  | slotRecall (tag : Byte) (body : List Byte)
  /-- SLOT.ERASE (R173). -/
  | slotErase (tag : Byte) (body : List Byte)
  /-- SLOT.PROTECT (R173). -/
  | slotProtect (tag : Byte) (body : List Byte)
  /-- SLOT.LIST (R174). -/
  | slotList (tag : Byte) (body : List Byte)
  /-- BUS.LEND (R180). -/
  | busLend (tag : Byte) (body : List Byte)
  /-- BUS.RETURN (R182). -/
  | busReturn (tag : Byte) (body : List Byte)
  /-- STORE_JOB_START (R172). -/
  | storeJobStart
  /-- FLASH_READ_PAGE_END (R167): the 256 bytes clocked in. -/
  | flashReadPageEnd (page : Vector Byte 256)
  /-- FLASH_PROGRAM_PAGE_END (R167). -/
  | flashProgramPageEnd
  /-- FLASH_ERASE_SECTOR_END (R167). -/
  | flashEraseSectorEnd
  /-- FLASH_STEP_TIMEOUT (R167). -/
  | flashStepTimeout
  /-- POWER (R190). -/
  | power (tag : Byte) (body : List Byte)
  /-- LEN_ABOVE_1024 (R199): the inbound bytes up to byte 3, which makes LEN exceed 1024. -/
  | lenAbove1024 (bytes : List Byte)
  /-- RESET_N_LOW (R197): RESET_N falls. -/
  | resetNLow
  deriving DecidableEq, Repr

end Sys2Proof
end

