-- ==== Sys2Proof/Config.lean ====
section
/-! DEFINITION. The free values: what the reference leaves open and the part goes on with. Each is a constant without a body, so nothing can be proved of its value. -/

namespace Sys2Proof.Config

/-- R41: the contents of the acquisition memory are undefined after cold reset. The byte that address `a` holds after the
cold reset numbered `epoch`, until something is written there (log 6). -/
opaque undefinedMemory : Nat → Nat → Byte

/-- R130: each character code has a fixed 8 × 16 shape of foreground pixels; the reference does not give the shapes.
Whether pixel (column 0..7, row 0..15) of a code's cell is a foreground pixel (log 7). -/
opaque glyph : Byte → Nat → Nat → Bool

/-- R44, R60: a roll record has a geometry snapshot, and no rule states its effective depth index, 0..4 (log 8). -/
opaque rollDepthIndex : Nat → Fin 5

/-- R201, R203: a BUSY answer carries the frame's kind plus 0x80, which is no byte for a kind of 0x80 or above; no rule
states the KIND of such an answer (log 9). -/
opaque busyKindAbove : Byte → Byte

end Sys2Proof.Config
end

