-- ==== Sys2Proof/Machine/State.lean ====
section
/-! DEFINITION. The state of the MG-440, block by block as the reference divides it, its value right after cold reset, and the reasons a step can stop. -/

namespace Sys2Proof.Machine

/-! ## SETUP: the live setup (chapter 1) -/

/-- CHn.COUPLING (R1). -/
inductive Coupling where | dc | ac | gnd
  deriving DecidableEq, Repr
/-- ACQMODE (R2). -/
inductive AcqMode where | sample | peak
  deriving DecidableEq, Repr
/-- RUNMODE (R2). -/
inductive RunMode where | repeats | segmented
  deriving DecidableEq, Repr
/-- TSRC (R2). -/
inductive TrigSource where | chan (n : Chan) | ext
  deriving DecidableEq, Repr
/-- TSLOPE (R2). -/
inductive Slope where | rise | fall | either
  deriving DecidableEq, Repr
/-- TMODE (R2). -/
inductive TrigMode where | auto | normal
  deriving DecidableEq, Repr
/-- PERSIST (R3). -/
inductive Persist where | off | finite | infinite
  deriving DecidableEq, Repr
/-- STYLE (R3). -/
inductive Style where | dots | vectors
  deriving DecidableEq, Repr
/-- GRAT (R3). -/
inductive Graticule where | full | frame | blank
  deriving DecidableEq, Repr
/-- ORIENT (R3). -/
inductive Orient where | normal | rotated
  deriving DecidableEq, Repr
/-- CUR.SHOW (R3). -/
inductive CursorShow where | hidden | vertical | horizontal | both
  deriving DecidableEq, Repr

/-- The measured quantities of the limits (R1). -/
inductive Quantity where | max | min | mean | pkpk
  deriving DecidableEq, Repr
/-- The limit types (R1, R75). -/
inductive LimitType where | ha | la | hw | lw
  deriving DecidableEq, Repr

/-- The four thresholds of one channel and quantity, each absent or present in µV (R5). -/
structure LimitGroup where
  ha : Option Int
  la : Option Int
  hw : Option Int
  lw : Option Int
  deriving DecidableEq, Repr

/-- One thing for each of the four quantities. -/
structure PerQuantity (α : Type) where
  max : α
  min : α
  mean : α
  pkpk : α
  deriving DecidableEq, Repr

/-- CHn.REJECT, a subset of OVR, LANE, ALARM, WARN (R1). -/
structure RejectSet where
  ovr : Bool
  lane : Bool
  alarm : Bool
  warn : Bool
  deriving DecidableEq, Repr

/-- The 23 channel fields of one channel (R1). -/
structure ChanSetup where
  on : Bool
  scale : Nat
  pos : Int
  coupling : Coupling
  bwlimit : Bool
  color : Nat
  limits : PerQuantity LimitGroup
  reject : RejectSet
  deriving DecidableEq, Repr

/-- The live setup: 4 × 23 channel fields and 33 device fields (R1 to R3). -/
structure Setup where
  ch : PerChan ChanSetup
  tbase : Nat
  depth : Nat
  pretrig : Nat
  acqmode : AcqMode
  runmode : RunMode
  segcount : Nat
  roll : Bool
  tsrc : TrigSource
  tslope : Slope
  tlevel : Int
  thyst : Nat
  tmode : TrigMode
  tauto : Nat
  holdoff : Nat
  recapture : Nat
  stoprej : Bool
  persist : Persist
  decay : Nat
  hitw : Nat
  style : Style
  grat : Graticule
  tbright : Nat
  gbright : Nat
  blratio : Nat
  bllevel : Nat
  orient : Orient
  annot : Bool
  curV1 : Nat
  curV2 : Nat
  curH1 : Nat
  curH2 : Nat
  curShow : CursorShow
  name : List Byte
  deriving DecidableEq, Repr

/-- The channel fields other than the limits. -/
inductive ChanField where | on | scale | pos | coupling | bwlimit | color | reject
  deriving DecidableEq, Repr

/-- The device-wide fields (R2, R3). -/
inductive DevField where
  | tbase | depth | pretrig | acqmode | runmode | segcount | roll | tsrc | tslope | tlevel | thyst | tmode | tauto
  | holdoff | recapture | stoprej | persist | decay | hitw | style | grat | tbright | gbright | blratio | bllevel
  | orient | annot | curShow | curV1 | curV2 | curH1 | curH2 | name
  deriving DecidableEq, Repr

/-- A field of the record (R1 to R3). -/
inductive Field where
  | chan (n : Chan) (f : ChanField)
  | limit (n : Chan) (q : Quantity) (t : LimitType)
  | dev (f : DevField)
  deriving DecidableEq, Repr

/-! ## ACQ: acquisition (chapters 2 to 4) -/

/-- The acquisition states (R43). -/
inductive AcqState where | stopped | arming | waiting | capturing | held | rolling
  deriving DecidableEq, Repr
/-- The run kinds (R46). -/
inductive RunKind where | idle | repeats | segmented | roll
  deriving DecidableEq, Repr
/-- The segment states (R44). -/
inductive SegState where | free | prefill | ready | filling | done
  deriving DecidableEq, Repr
/-- The outcome of a DONE segment (R44). -/
inductive SegOutcome where | pass | rejected
  deriving DecidableEq, Repr
/-- The trigger kinds (R44). -/
inductive TrigKind where | edge | auto | forced
  deriving DecidableEq, Repr

/-- The geometry snapshot fixed at an arm (R35), the ring origin the trigger adds (R32), and whether it is the roll
layout of R39. `len`, `pre`, `size` are L, P, B. -/
structure Geometry where
  depthIdx : Nat
  interval : Nat
  len : Nat
  pre : Nat
  size : Nat
  nEff : Nat
  origin : Nat
  mode : AcqMode
  enabled : PerChan Bool
  range : PerChan Nat
  roll : Bool
  deriving DecidableEq, Repr

/-- The layout of an arm (R37): L, S, the enabled set and b. -/
structure Layout where
  len : Nat
  interval : Nat
  enabled : PerChan Bool
  bytes : Nat
  deriving DecidableEq, Repr

/-- A channel's flag set in a segment record (R44). -/
structure FlagSet where
  ovr : Bool
  lane : Bool
  ha : Bool
  la : Bool
  hw : Bool
  lw : Bool
  deriving DecidableEq, Repr

/-- A channel's stored measurements (R44). -/
structure Meas where
  min : Byte
  max : Byte
  mean16 : Nat
  deriving DecidableEq, Repr

/-- The fields of a segment record that is not FREE (R44). -/
structure SegInfo where
  generation : Count
  geo : Geometry
  armTag : Tick
  trigTag : Option Tick
  trigKind : Option TrigKind
  attempts : Nat
  flags : PerChan FlagSet
  meas : Option (PerChan Meas)
  outcome : Option SegOutcome
  deriving DecidableEq, Repr

/-- A segment record (R44): every field but state and serial is absent while FREE. -/
structure SegRecord where
  state : SegState
  serial : Serial
  info : Option SegInfo
  deriving DecidableEq, Repr

/-- What one stored point and the codes of its interval give the measurement adders of one channel (R70, R71). -/
structure PointMeas where
  lo : Byte
  hi : Byte
  ovr : Bool
  deriving DecidableEq, Repr

/-- The interval in progress, one channel (R32, R33, R39): first, smallest and largest code, whether a code was 0 or 255
(R71), whether the lock was low for a code (R27). -/
structure IntervalChan where
  first : Byte
  lo : Byte
  hi : Byte
  ovr : Bool
  lockLow : Bool
  deriving DecidableEq, Repr

/-- A WAVE.READ whose reads are not done (R67). -/
structure WaveRead where
  tag : Byte
  seg : Nat
  serial : Serial
  chan : Chan
  first : Nat
  count : Nat
  clamped : Bool
  deriving DecidableEq, Repr

/-- ACQ's state. Sparse tables are lists of (key, value) in rising key order. `wraps` counts how often the time tag has gone on
at 0 (R42). -/
structure Acq where
  timeTag : Tick
  wraps : Nat
  nsPhase : Nat
  held : PerChan Byte
  state : AcqState
  cur : Nat
  segs : List (Nat × SegRecord)
  runKind : RunKind
  single : Bool
  runIndex : Nat
  columnsLeft : Nat
  forcePending : Bool
  lastTrig : Option Tick
  countDone : Count
  lastDone : Option (Nat × Serial)
  serialCounter : Serial
  risePrime : Bool
  fallPrime : Bool
  points : List (Nat × PerChan PointMeas)
  ivCount : Nat
  iv : PerChan IntervalChan
  preCount : Nat
  postCount : Nat
  rollCount : Nat
  readyTick : Tick
  prevLayout : Option Layout
  waves : List WaveRead
  selfRefresh : Bool
  mem : List Host.Cell
  memEpoch : Nat
  fresh : Nat
  deriving DecidableEq, Repr

/-! ## MON: the flag table (chapter 4) -/

/-- The flag table (R77): flag f is bit f of each set. -/
structure Mon where
  current : BitVec 76
  latched : BitVec 76
  mask : BitVec 76
  deriving DecidableEq, Repr

/-! ## RASTER: planes and the draw list (chapter 5) -/

/-- An entry of the draw list (R104). -/
structure DrawEntry where
  seg : Nat
  serial : Serial
  chans : PerChan Bool
  clearFirst : Bool
  automatic : Bool
  deriving DecidableEq, Repr

/-- The values of one channel fixed at a job's start (R106): CHn.POS and K. -/
structure ChanScaling where
  pos : Int
  k : Nat
  deriving DecidableEq, Repr

/-- The job in progress (R106): its segment and serial, the pinned region [lo, hi), the channels it draws, those it has
still to draw (the first is being drawn), the next column, and the values fixed at its start. -/
structure DrawJob where
  seg : Nat
  serial : Serial
  lo : Nat
  hi : Nat
  draws : PerChan Bool
  todo : List Chan
  nextCol : Nat
  hitw : Nat
  style : Style
  scaling : PerChan ChanScaling
  deriving DecidableEq, Repr

/-- RASTER's state. A plane lists its nonzero intensities under 400 × column + row. -/
structure Raster where
  planes : PerChan (List (Nat × Byte))
  list : List DrawEntry
  job : Option DrawJob
  view : Option (Nat × Serial)
  writeCol : Nat
  wrapped : Bool
  deriving DecidableEq, Repr

/-! ## COMPOSE: the screen (chapter 6) -/

/-- A palette colour (R124). -/
structure Rgb where
  r : Byte
  g : Byte
  b : Byte
  deriving DecidableEq, Repr

/-- The screen modes (R126). -/
inductive ScreenMode where | normal | invert | test
  deriving DecidableEq, Repr

/-- A cell of the text plane (R130): character code and palette index. -/
structure Cell where
  code : Byte
  attr : Nat
  deriving DecidableEq, Repr

/-- A cell position (R131). -/
structure CellPos where
  col : Nat
  row : Nat
  deriving DecidableEq, Repr

/-- The frame values taken at the last frame event (R118). -/
structure FrameValues where
  color : PerChan Nat
  tbright : Nat
  gbright : Nat
  grat : Graticule
  orient : Orient
  curV1 : Nat
  curV2 : Nat
  curH1 : Nat
  curH2 : Nat
  curShow : CursorShow
  annot : Bool
  blratio : Nat
  bllevel : Nat
  palette : List Rgb
  mode : ScreenMode
  deriving DecidableEq, Repr

/-- COMPOSE's state. The text plane lists its cells that are not a space of attribute 5, under 100 × row + column.
`frameTimer` holds t0 and k of R118 while scanout runs. -/
structure Compose where
  frame : FrameValues
  palette : List Rgb
  mode : ScreenMode
  startCol : Nat
  text : List (Nat × Cell)
  cursor : CellPos
  mark : CellPos
  owned : Bool
  annot0 : List Byte
  annot29 : List Byte
  duty : Nat
  frameTimer : Option (Tick × Nat)
  deriving DecidableEq, Repr

/-! ## PANEL: the front panel (chapter 7) -/

/-- A key (R141 to R143). -/
structure KeyState where
  down : Bool
  count : Nat
  reported : Bool
  deadline : Option Tick
  deriving DecidableEq, Repr

/-- The kinds of key event (R142). -/
inductive KeyEventKind where | press | release | repeats
  deriving DecidableEq, Repr

/-- A key event (R142). -/
structure KeyEvent where
  key : Nat
  kind : KeyEventKind
  acted : Bool
  time : Count
  deriving DecidableEq, Repr

/-- The key actions (R146). -/
inductive KeyAction where
  | nothing | runstop | single | force | chan (n : Chan) | clear | defaults | save (slot : Nat) | recall (slot : Nat) | wake
  deriving DecidableEq, Repr

/-- A key binding (R146). -/
structure KeyBinding where
  action : KeyAction
  repeatable : Bool
  deriving DecidableEq, Repr

/-- The step rules (R152). -/
inductive StepRule where | step125 | fine | linear (size : Nat)
  deriving DecidableEq, Repr

/-- An encoder binding (R152). -/
structure KnobBinding where
  target : Field
  rule : StepRule
  deriving DecidableEq, Repr

/-- A knob (R149 to R154): last accepted levels and last samples of its two lines (high is true). -/
structure Knob where
  a : Bool
  b : Bool
  rawA : Bool
  rawB : Bool
  quarter : Int
  lastDetent : Option (Tick × Dir)
  acc : Int
  steps : Int
  inFlight : Bool
  binding : Option KnobBinding
  deriving DecidableEq, Repr

/-- The follow sources (R156). -/
inductive FollowSource where | run | single | chan (n : Chan) | flags | store | power
  deriving DecidableEq, Repr

/-- The blink modes a lamp shows (R155). -/
inductive Blink where | off | on | slow | fast
  deriving DecidableEq, Repr

/-- The lamp modes (R155). -/
inductive LampMode where | plain (m : Blink) | follow (src : FollowSource)
  deriving DecidableEq, Repr

/-- PANEL's state. Keys, bindings, knobs and lamps are listed under their numbers; an unlisted one is at its cold value. -/
structure Panel where
  keys : List (Nat × KeyState)
  fifo : List KeyEvent
  bindings : List (Nat × KeyBinding)
  knobs : List (Nat × Knob)
  lamps : List (Nat × LampMode)
  standbyMode : Blink
  lock : Bool
  idleMinutes : Nat
  idleStart : Tick
  deriving DecidableEq, Repr

/-! ## STORE: saved setups (chapter 8) -/

/-- A directory entry (R168). -/
inductive DirEntry where
  | unknown | empty | corrupt | valid (prot : Bool) (seq : Count) (name : List Byte)
  deriving DecidableEq, Repr

/-- The kinds of store job (R172); a SAVE holds its snapshot image and the name it will write. -/
inductive JobKind where
  | save (image name : List Byte) | recall | erase | protect (on : Bool)
  deriving DecidableEq, Repr

/-- A store job (R172). -/
structure StoreJob where
  kind : JobKind
  slot : Nat
  deriving DecidableEq, Repr

/-- The results (R172, R183). -/
inductive JobResult where | done | empty | corrupt | prot | failed | abandoned | skipped
  deriving DecidableEq, Repr

/-- The kinds of the last finished record (R183). -/
inductive RecordKind where | save | recall | erase | protectOn | protectOff | scan
  deriving DecidableEq, Repr

/-- The last finished record (R183); the slot is absent for the scan. -/
structure LastRecord where
  slot : Option Nat
  kind : RecordKind
  result : JobResult
  deriving DecidableEq, Repr

/-- Why a running job classifies its slot (R169). -/
inductive ClassifyFor where | startCheck | recall | protectOff | refresh (r : JobResult)
  deriving DecidableEq, Repr

/-- The step a running job takes next or has in flight (R175 to R179). A PROTECT(off) job keeps the header page and the
body it read. -/
inductive JobPhase where
  | classify (why : ClassifyFor) (pages : List (List Byte))
  | saveErase | saveBody1 | saveBody2 | saveHeader
  | eraseSector
  | protectOn
  | offErase (header body : List Byte) | offBody1 (header body : List Byte) | offBody2 (header body : List Byte)
  | offHeader (header body : List Byte)
  deriving DecidableEq, Repr

/-- A running job's progress: its phase, whether it has completed an erase or a program step, and whether a RESTART
taken during a step ends it when the step ends (R186). -/
structure Running where
  phase : JobPhase
  altered : Bool
  abandoned : Bool
  deriving DecidableEq, Repr

/-- The kinds of flash step (R167). -/
inductive StepKind where | readPage | programPage (data : List Byte) | eraseSector
  deriving DecidableEq, Repr

/-- The step in flight (R167): its address and the tick it started at. -/
structure FlashStep where
  kind : StepKind
  addr : Nat
  start : Tick
  deriving DecidableEq, Repr

/-- The start-up scan (R170): the slot it classifies, the pages read of it, whether a read has timed out. -/
structure Scan where
  slot : Nat
  pages : List (List Byte)
  failed : Bool
  deriving DecidableEq, Repr

/-- The bus states (section 8.8). -/
inductive BusState where | owned | lending | lent
  deriving DecidableEq, Repr

/-- STORE's state. An unlisted directory entry is UNKNOWN; the head of the queue is the running job while `running` is
present; `withheld` holds the tag of a BUS.LEND whose answer waits; `autosaves` holds the standby autosaves that wait for the
end of the step in flight, each with its snapshot, oldest first (R167, R185, log 44). -/
structure Store where
  dir : List (Nat × DirEntry)
  queue : List StoreJob
  running : Option Running
  scan : Option Scan
  step : Option FlashStep
  bus : BusState
  withheld : Option Byte
  autosaves : List StoreJob
  last : Option LastRecord
  deriving DecidableEq, Repr

/-! ## POWER (chapter 9) -/

/-- The power states (R188). -/
inductive PowerState where | on | dark | standby
  deriving DecidableEq, Repr
/-- The causes of a move (R188). -/
inductive MoveCause where | none | order | idle | panelWake | keyWake
  deriving DecidableEq, Repr

/-- POWER's state (R188). -/
structure Power where
  state : PowerState
  runAtWake : Bool
  cause : MoveCause
  deriving DecidableEq, Repr

/-! ## LINK (chapter 10) -/

/-- A frame less its LEN and CHECK, which follow from the body (R199, R200): an order, an answer or a note. -/
structure Frame where
  kind : Byte
  tag : Byte
  body : List Byte
  deriving DecidableEq, Repr

/-- The 13 note sources (R205). -/
inductive NoteSource where | panel | knob (n : Fin 8) | acq | flags | store | power
  deriving DecidableEq, Repr

/-- An entry of the note list (R205): its body once built (then it is in transit, R206) and the again mark. -/
structure NoteEntry where
  src : NoteSource
  built : Option (List Byte)
  again : Bool
  deriving DecidableEq, Repr

/-- The frame LINK sends (R207): the source of a note, or none for an answer; `gone` when a RESTART has removed its
entry (R211). -/
structure Outgoing where
  note : Option NoteSource
  frame : Frame
  gone : Bool
  deriving DecidableEq, Repr

/-- The whole bytes clocked in a select period, one in each direction (R198), and how many of them LINK's inbound side has taken:
a row that ends an outbound frame leaves the inbound bytes beside it to the next row that carries them (log 33). -/
structure Clocked where
  bytes : Nat
  taken : Nat
  deriving DecidableEq, Repr

/-- LINK's state. `ignoring`: the rest of the period's inbound bytes are ignored (R198, R199). `clocked`: the bytes clocked in this
period. -/
structure Link where
  inbound : List Frame
  answers : List Frame
  notes : List NoteEntry
  inPeriod : Bool
  gathered : List Byte
  ignoring : Bool
  clocked : Clocked
  sending : Option Outgoing
  partly : Option Outgoing
  deriving DecidableEq, Repr

/-! ## Pins and the whole -/

/-- Levels of the input pins. Bit k of `keys` is set while the key of id k is closed (R140); bit n of `encA` and `encB`
is the level of ENCn_A and ENCn_B (R149); `lock` is high when true (R26). -/
structure Pins where
  lanes : Sample
  lock : PerChan Bool
  keys : BitVec 64
  encA : BitVec 8
  encB : BitVec 8
  linkSelLow : Bool
  resetLow : Bool
  deriving DecidableEq, Repr

/-- The whole state: the nine blocks, the pins, and the commands that wait, first in, first out. -/
structure State where
  setup : Setup
  gen : Count
  acq : Acq
  mon : Mon
  raster : Raster
  compose : Compose
  panel : Panel
  store : Store
  power : Power
  link : Link
  pins : Pins
  pending : List Instr
  deriving DecidableEq, Repr

/-- The faults. -/
inductive Fault where
  /-- An access to the acquisition memory outside its 67,108,864 bytes (R34), raised by the rows that write a point or
  read a record whose region does not lie in it. The geometry of R35 keeps it from arising. Safe. -/
  | noSuchMemory
  deriving DecidableEq, Repr

/-- The refusals. -/
inductive Refusal where
  /-- A row of the table that has no meaning yet, raised by exec's arm. Safe. -/
  | notModelled (mnemonic : String)
  deriving DecidableEq, Repr

/-! ## Cold reset values -/

/-- The bytes of a text of ASCII characters. -/
def ascii (t : String) : List Byte := t.toList.map (fun c => BitVec.ofNat 8 c.toNat)

/-- R5: no threshold is present by default. -/
def LimitGroup.absent : LimitGroup := ⟨none, none, none, none⟩

/-- The channel defaults of R1. -/
def ChanSetup.default (on : Bool) (color : Nat) : ChanSetup where
  on := on
  scale := 100000
  pos := 0
  coupling := .dc
  bwlimit := false
  color := color
  limits := ⟨.absent, .absent, .absent, .absent⟩
  reject := ⟨false, false, false, false⟩

/-- The default setup of R1 to R3. -/
def Setup.default : Setup where
  ch := ⟨.default true 1, .default false 2, .default false 3, .default false 4⟩
  tbase := 9
  depth := 1
  pretrig := 50
  acqmode := .sample
  runmode := .repeats
  segcount := 1
  roll := true
  tsrc := .chan .ch1
  tslope := .rise
  tlevel := 0
  thyst := 2
  tmode := .auto
  tauto := 100
  holdoff := 0
  recapture := 0
  stoprej := false
  persist := .off
  decay := 16
  hitw := 255
  style := .vectors
  grat := .full
  tbright := 32
  gbright := 20
  blratio := 4
  bllevel := 32
  orient := .normal
  annot := true
  curV1 := 100
  curV2 := 400
  curH1 := 100
  curH2 := 300
  curShow := .hidden
  name := ascii "DEFAULT         "

/-- A FREE record with a serial (R44). -/
def SegRecord.free (serial : Serial) : SegRecord := ⟨.free, serial, none⟩

/-- The interval in progress of one channel before its first code. -/
def IntervalChan.empty : IntervalChan := ⟨0, 255, 0, false, false⟩

/-- ACQ at cold reset (R26, R37, R42, R46, R69, R70). -/
def Acq.cold : Acq where
  timeTag := 0
  wraps := 0
  nsPhase := 0
  held := ⟨128, 128, 128, 128⟩
  state := .stopped
  cur := 0
  segs := []
  runKind := .idle
  single := false
  runIndex := 0
  columnsLeft := 0
  forcePending := false
  lastTrig := none
  countDone := 0
  lastDone := none
  serialCounter := 0
  risePrime := false
  fallPrime := false
  points := []
  ivCount := 0
  iv := ⟨.empty, .empty, .empty, .empty⟩
  preCount := 0
  postCount := 0
  rollCount := 0
  readyTick := 0
  prevLayout := none
  waves := []
  selfRefresh := false
  mem := []
  memEpoch := 0
  fresh := 0

/-- MON at cold reset (R90). -/
def Mon.cold : Mon := ⟨0, 0, 0⟩

/-- RASTER at cold reset and at RESTART (R116). -/
def Raster.cold : Raster := ⟨⟨[], [], [], []⟩, [], none, none, 0, false⟩

/-- The palette at cold reset (R124). -/
def coldPalette : List Rgb :=
  [⟨0, 0, 0⟩, ⟨255, 255, 0⟩, ⟨0, 255, 255⟩, ⟨255, 0, 255⟩, ⟨0, 255, 0⟩, ⟨255, 255, 255⟩, ⟨128, 128, 128⟩, ⟨255, 0, 0⟩,
   ⟨64, 128, 255⟩, ⟨255, 160, 0⟩, ⟨128, 0, 0⟩, ⟨0, 128, 0⟩, ⟨0, 0, 128⟩, ⟨128, 128, 0⟩, ⟨0, 128, 128⟩, ⟨128, 0, 128⟩]

/-- The default frame values (R118, R139). -/
def FrameValues.cold : FrameValues where
  color := ⟨1, 2, 3, 4⟩
  tbright := 32
  gbright := 20
  grat := .full
  orient := .normal
  curV1 := 100
  curV2 := 400
  curH1 := 100
  curH2 := 300
  curShow := .hidden
  annot := true
  blratio := 4
  bllevel := 32
  palette := coldPalette
  mode := .normal

/-- Row 0 of the default setup's annotation with word STOP (R137, R139). -/
def coldRow0 : List Byte :=
  ascii "STOP 10us   CH1" ++ [0x80] ++ ascii " 0.00mV" ++ List.replicate 77 0x20

/-- Row 29 of the default setup's annotation (R138, R139). -/
def coldRow29 : List Byte := ascii "CH1 100mV " ++ List.replicate 90 0x20

/-- The cells of a row of characters in attribute 5 that are not spaces, from a cell number on. -/
def coldCells (base : Nat) (row : List Byte) : List (Nat × Cell) :=
  row.zipIdx.filterMap (fun p => if p.1 = 0x20 then none else some (base + p.2, ⟨p.1, 5⟩))

/-- COMPOSE right after cold reset (R128, R139): the first frame event has been raised at tick 0. -/
def Compose.cold : Compose where
  frame := .cold
  palette := coldPalette
  mode := .normal
  startCol := 0
  text := coldCells 0 coldRow0 ++ coldCells 2900 coldRow29
  cursor := ⟨0, 0⟩
  mark := ⟨0, 0⟩
  owned := true
  annot0 := coldRow0
  annot29 := coldRow29
  duty := 646
  frameTimer := some (0, 0)

/-- PANEL at cold reset with every encoder line high (R149, R162). -/
def Panel.cold : Panel := ⟨[], [], [], [], [], .off, false, 0, 0⟩

/-- STORE at cold reset (R170, R187): the scan has started with the read of page 0 of slot 0. -/
def Store.cold : Store where
  dir := []
  queue := []
  running := none
  scan := some ⟨0, [], false⟩
  step := some ⟨.readPage, 0, 0⟩
  bus := .owned
  withheld := none
  autosaves := []
  last := none

/-- POWER at cold reset (R188). -/
def Power.cold : Power := ⟨.on, false, .none⟩

/-- LINK at cold reset (R212). -/
def Link.cold : Link := ⟨[], [], [], false, [], false, ⟨0, 0⟩, none, none⟩

/-- The levels the model takes the input pins to have right after reset (log 5): code 128, EXT_TRIG low, locks high, keys
open, encoder lines high, LINK_SEL high, RESET_N high. -/
def Pins.quiet : Pins where
  lanes := ⟨⟨128, 128, 128, 128⟩, false⟩
  lock := ⟨true, true, true, true⟩
  keys := 0
  encA := 255
  encB := 255
  linkSelLow := false
  resetLow := false

/-- The part right after the rise of RESET_N (R197) with quiet pins (log 5). -/
def State.reset : State where
  setup := .default
  gen := 0
  acq := .cold
  mon := .cold
  raster := .cold
  compose := .cold
  panel := .cold
  store := .cold
  power := .cold
  link := .cold
  pins := .quiet
  pending := []

end Sys2Proof.Machine
end

