-- ==== Sys2Proof/Machine/Ops.lean ====
section
/-! DEFINITION. The shared operations: channels, sparse tables, the acquisition memory, bytes and numbers, notes and answers. -/

namespace Sys2Proof

/-! ## Channels -/

/-- CH1 to CH4 in increasing channel number. -/
def Chan.all : List Chan := [.ch1, .ch2, .ch3, .ch4]

/-- The channel number, 1 to 4. -/
def Chan.num : Chan → Nat
  | .ch1 => 1 | .ch2 => 2 | .ch3 => 3 | .ch4 => 4

/-- The channel of a number, 1 to 4. -/
def Chan.ofNum? : Nat → Option Chan
  | 1 => some .ch1 | 2 => some .ch2 | 3 => some .ch3 | 4 => some .ch4 | _ => none

namespace PerChan

/-- The thing of one channel. -/
def get {α : Type} (p : PerChan α) : Chan → α
  | .ch1 => p.c1 | .ch2 => p.c2 | .ch3 => p.c3 | .ch4 => p.c4

/-- The four things with one replaced. -/
def set {α : Type} (p : PerChan α) (n : Chan) (x : α) : PerChan α :=
  match n with
  | .ch1 => { p with c1 := x } | .ch2 => { p with c2 := x } | .ch3 => { p with c3 := x } | .ch4 => { p with c4 := x }

/-- The four things as a function of the channel gives them. -/
def ofFn {α : Type} (f : Chan → α) : PerChan α := ⟨f .ch1, f .ch2, f .ch3, f .ch4⟩

/-- The same thing for every channel. -/
def const {α : Type} (x : α) : PerChan α := ⟨x, x, x, x⟩

/-- The channels of a channel set in increasing channel number. -/
def members (p : PerChan Bool) : List Chan := Chan.all.filter p.get

/-- Whether a channel set is not empty. -/
def nonempty (p : PerChan Bool) : Bool := p.c1 || p.c2 || p.c3 || p.c4

/-- Whether two channel sets share a channel. -/
def meets (p q : PerChan Bool) : Bool := (p.c1 && q.c1) || (p.c2 && q.c2) || (p.c3 && q.c3) || (p.c4 && q.c4)

/-- R213: the byte of a channel set, CH1 the lowest bit. -/
def setByte (p : PerChan Bool) : Byte :=
  BitVec.ofNat 8 (p.c1.toNat + 2 * p.c2.toNat + 4 * p.c3.toNat + 8 * p.c4.toNat)

/-- R213: the channel set of a byte's low four bits. -/
def ofSetByte (b : Byte) : PerChan Bool := ⟨b.getLsbD 0, b.getLsbD 1, b.getLsbD 2, b.getLsbD 3⟩

end PerChan

namespace Machine

/-! ## Sparse tables in rising key order -/

/-- What a table lists under a key. -/
def tabGet? {α : Type} : List (Nat × α) → Nat → Option α
  | [], _ => none
  | (k, x) :: rest, key => if k = key then some x else tabGet? rest key

/-- What a table holds under a key, an unlisted key holding `d`. -/
def tabGet {α : Type} (d : α) (t : List (Nat × α)) (key : Nat) : α := (tabGet? t key).getD d

/-- The table with something listed under a key. -/
def tabPut {α : Type} : List (Nat × α) → Nat → α → List (Nat × α)
  | [], key, x => [(key, x)]
  | (k, y) :: rest, key, x =>
    if key < k then (key, x) :: (k, y) :: rest
    else if key = k then (key, x) :: rest
    else (k, y) :: tabPut rest key x

/-- The table with nothing listed under a key. -/
def tabDel {α : Type} (t : List (Nat × α)) (key : Nat) : List (Nat × α) := t.filter (fun e => e.1 != key)

/-- The table that holds `x` under a key, where an unlisted key holds `d`. -/
def tabSet {α : Type} [DecidableEq α] (d : α) (t : List (Nat × α)) (key : Nat) (x : α) : List (Nat × α) :=
  if x = d then tabDel t key else tabPut t key x

/-- The table with the keys of [lo, hi) replaced by the entries `mid`, which lie in [lo, hi). -/
def tabSplice {α : Type} (t : List (Nat × α)) (lo hi : Nat) (mid : List (Nat × α)) : List (Nat × α) :=
  t.filter (fun e => decide (e.1 < lo)) ++ mid ++ t.filter (fun e => decide (hi ≤ e.1))

/-- The keys of a table rise strictly. -/
def tabRising {α : Type} : List (Nat × α) → Bool
  | [] => true
  | [_] => true
  | (a, _) :: (b, y) :: rest => decide (a < b) && tabRising ((b, y) :: rest)

/-! ## The acquisition memory -/

/-- R34: the bytes of the acquisition memory. -/
def memSize : Nat := 67108864

/-- The canonical form of a memory: strictly rising addresses inside the 67,108,864 bytes (R34). -/
def Memory.wf (m : List Host.Cell) : Bool := tabRising m && m.all (fun c => decide (c.1 < memSize))

/-- One byte of the acquisition memory; a byte not written since cold reset is undefined (R41, log 6). -/
def memByte (epoch : Nat) (m : List Host.Cell) (a : Nat) : Byte := tabGet (Config.undefinedMemory epoch a) m a

/-- Store consecutive bytes from an address on. -/
def memStore (m : List Host.Cell) (a : Nat) : List Byte → List Host.Cell
  | [] => m
  | b :: bs => memStore (tabPut m a b) (a + 1) bs

/-- Read consecutive bytes from an address on. -/
def memLoad (epoch : Nat) (m : List Host.Cell) (a : Nat) : Nat → List Byte
  | 0 => []
  | n + 1 => memByte epoch m a :: memLoad epoch m (a + 1) n

/-! ## Bytes and numbers -/

/-- A number as `n` bytes, most significant first (R213). -/
def be : Nat → Nat → List Byte
  | 0, _ => []
  | n + 1, v => BitVec.ofNat 8 (v / 256 ^ n) :: be n v

/-- A signed number as `n` bytes of two's complement, most significant first (chapter 11). -/
def beInt (n : Nat) (v : Int) : List Byte := be n (v % ((256 ^ n : Nat) : Int)).toNat

/-- The unsigned number of some bytes, most significant first. -/
def natOf (bs : List Byte) : Nat := bs.foldl (fun acc b => acc * 256 + b.toNat) 0

/-- The two's complement number of some bytes, most significant first. -/
def intOf (bs : List Byte) : Int :=
  if 2 * natOf bs < 256 ^ bs.length then (natOf bs : Int) else (natOf bs : Int) - ((256 ^ bs.length : Nat) : Int)

/-- `n` bytes of a body from an offset on. -/
def slice (bs : List Byte) (off n : Nat) : List Byte := (bs.drop off).take n

/-- One byte of a body. -/
def byteAt (bs : List Byte) (off : Nat) : Byte := bs.getD off 0

/-- The unsigned item of `n` bytes at an offset of a body. -/
def natAt (bs : List Byte) (off n : Nat) : Nat := natOf (slice bs off n)

/-- The signed item of `n` bytes at an offset of a body. -/
def intAt (bs : List Byte) (off n : Nat) : Int := intOf (slice bs off n)

/-- The byte of an on or off item. -/
def boolByte (b : Bool) : Byte := if b then 1 else 0

/-- 00_scope.md, Arithmetic: p / q rounded half away from zero, for q above 0. -/
def roundHalfAway (p : Int) (q : Nat) : Int :=
  if 0 ≤ p then (2 * p + q) / (2 * q) else -((2 * (-p) + q) / (2 * q))

/-- 00_scope.md, Arithmetic: p / q rounded half up, floor of the value plus one half, for q above 0. -/
def roundHalfUp (p : Int) (q : Nat) : Int := (2 * p + q) / (2 * q)

/-- A number held at the ends of a range. -/
def clampInt (lo hi v : Int) : Int := if v < lo then lo else if hi < v then hi else v

/-! ## The note list and the answer queue -/

/-- R205: enter a source into the note list. -/
def noteEnter (src : NoteSource) (notes : List NoteEntry) : List NoteEntry :=
  if notes.any (fun e => decide (e.src = src)) then
    notes.map (fun e => if e.src = src ∧ e.built.isSome then { e with again := true } else e)
  else notes ++ [⟨src, none, false⟩]

/-- R205: a block enters its note source. -/
def enterNote (src : NoteSource) (s : State) : State :=
  { s with link := { s.link with notes := noteEnter src s.link.notes } }

/-- R215: the codes of the statuses. -/
inductive Status where
  | ok | clamped | busy | badKind | badLength | badField | badValue | wrongState | stale | empty | corrupt | prot | notReady | owned
  deriving DecidableEq, Repr

/-- R215. -/
def Status.code : Status → Byte
  | .ok => 0x00 | .clamped => 0x01 | .busy => 0x10 | .badKind => 0x20 | .badLength => 0x21 | .badField => 0x22
  | .badValue => 0x23 | .wrongState => 0x30 | .stale => 0x31 | .empty => 0x40 | .corrupt => 0x41 | .prot => 0x42
  | .notReady => 0x43 | .owned => 0x50

/-- R203: enter a frame at the tail of the answer queue. -/
def pushAnswer (f : Frame) (s : State) : State :=
  { s with link := { s.link with answers := s.link.answers ++ [f] } }

/-- R203: enter the answer to an order of a kind and a tag: the status, then the items. -/
def answer (kind tag : Byte) (st : Status) (items : List Byte) (s : State) : State :=
  pushAnswer ⟨kind + 0x80, tag, st.code :: items⟩ s

/-- R202: the places kept for orders dispatched and not answered: the WAVE.READs still reading (R67) and a withheld
BUS.LEND (R180). -/
def owed (s : State) : Nat := s.acq.waves.length + s.store.withheld.isSome.toNat

/-- R201: the answer queue has room. -/
def answerRoom (s : State) : Bool := decide (s.link.answers.length + owed s < 8)

/-- R197: while RESET_N is low the part does nothing; else the effect takes place. -/
def live (effect : State → State) (s : State) : Host.Outcome State Fault Refusal :=
  if s.pins.resetLow then .next s else .next (effect s)

end Machine
end Sys2Proof
end

