-- ==== Sys2Proof/Machine/Flags.lean ====
section
/-! DEFINITION. MON: the flag table, the measurements of a capture end, the limits and the flag sets (chapter 4). -/

namespace Sys2Proof.Machine

/-! ## The flag table -/

/-- R77: the flag number of a channel's flag at an offset. -/
def chanFlag (n : Chan) (off : Nat) : Nat := 18 * (n.num - 1) + off

/-- R77: LANE of a channel. -/
def laneFlag (n : Chan) : Nat := chanFlag n 1

/-- R77. -/
def flagPanelOverrun : Nat := 72
/-- R77. -/
def flagLinkDiscard : Nat := 73
/-- R77. -/
def flagStoreFault : Nat := 74
/-- R77. -/
def flagSegReject : Nat := 75

/-- The set that holds one flag. -/
def flagBit (f : Nat) : BitVec 76 := BitVec.ofNat 76 (2 ^ f)

/-- R82: the summary. -/
def Mon.summary (m : Mon) : Bool := (m.latched &&& ~~~m.mask) != 0

/-- R78: the occurrences of a set of flags, taken together. -/
def monOccur (fs : BitVec 76) (s : State) : State :=
  let m := s.mon
  let s' := { s with mon := { m with current := m.current ||| fs, latched := m.latched ||| fs } }
  if (fs &&& ~~~m.mask) != 0 then enterNote .flags s' else s'

/-- R80, R81: the current state of some flags becomes false. -/
def monEnd (fs : BitVec 76) (s : State) : State :=
  { s with mon := { s.mon with current := s.mon.current &&& ~~~fs } }

/-- R27, R80: the LANE condition of a channel. -/
def laneCondition (s : State) (n : Chan) : Bool := (s.setup.ch.get n).on && !(s.pins.lock.get n)

/-- R80: MON is told of the LANE condition of a channel; a change from false to true is an occurrence. -/
def laneFollow (n : Chan) (s : State) : State :=
  let cur := s.mon.current.getLsbD (laneFlag n)
  if laneCondition s n then (if cur then s else monOccur (flagBit (laneFlag n)) s) else monEnd (flagBit (laneFlag n)) s

/-- R27: the conditions of the four channels, in channel order. -/
def laneFollowAll (s : State) : State := laneFollow .ch4 (laneFollow .ch3 (laneFollow .ch2 (laneFollow .ch1 s)))

/-- R91: at RESTART each true LANE condition is an occurrence, taken together. -/
def laneOccurAll (s : State) : State :=
  monOccur (Chan.all.foldl (fun acc n => if laneCondition s n then acc ||| flagBit (laneFlag n) else acc) 0) s

/-! ## Flag sets as bytes -/

/-- R213: byte j of a flag set: flag 8j + i is bit 7 - i. -/
def flagSetByte (v : BitVec 76) (j : Nat) : Byte :=
  BitVec.ofNat 8 ((List.range 8).foldl (fun acc i => acc * 2 + (v.getLsbD (8 * j + i)).toNat) 0)

/-- R213: the ten bytes of a flag set. -/
def flagSetBytes (v : BitVec 76) : List Byte := (List.range 10).map (flagSetByte v)

/-- R213, R89: the flag set of ten bytes, none where a bit stands for a flag number above 75. -/
def flagSetOf (bs : List Byte) : Option (BitVec 76) :=
  if (byteAt bs 9).toNat % 16 = 0 then
    some (BitVec.ofNat 76 ((List.range 76).foldl
      (fun acc f => acc + ((byteAt bs (f / 8)).getLsbD (7 - f % 8)).toNat * 2 ^ f) 0))
  else none

/-- R215: the items of FLAGS.PEEK and FLAGS.TAKE. -/
def flagItems (m : Mon) : List Byte :=
  flagSetBytes m.current ++ flagSetBytes m.latched ++ flagSetBytes m.mask ++ [boolByte m.summary]

/-! ## Ranges and measurements -/

/-- The numbers 1, 2, 5 by turns, times the powers of ten. -/
def seq125 (i : Nat) : Nat := (if i % 3 = 0 then 1 else if i % 3 = 1 then 2 else 5) * 10 ^ (i / 3)

/-- R28: µV per division of a hardware range. -/
def hwOf (range : Nat) : Nat := 1000 * seq125 range

/-- R28: the smallest range whose µV per division is at least the request. -/
def rangeOf (scale : Nat) : Nat := ((List.range 13).find? (fun i => decide (scale ≤ hwOf i))).getD 12

/-- What the adders of a channel hold (R70). -/
structure Adders where
  min : Nat
  max : Nat
  sum : Nat
  n : Nat
  ovr : Bool
  deriving DecidableEq, Repr

/-- R70: cleared adders. -/
def Adders.cleared : Adders := ⟨255, 0, 0, 0, false⟩

/-- R71: one stored point in the adders. -/
def Adders.add (mode : AcqMode) (a : Adders) (p : PointMeas) : Adders where
  min := Nat.min a.min p.lo.toNat
  max := Nat.max a.max p.hi.toNat
  sum := match mode with | .sample => a.sum + p.lo.toNat | .peak => a.sum + (p.lo.toNat + p.hi.toNat)
  n := match mode with | .sample => a.n + 1 | .peak => a.n + 2
  ovr := a.ovr || p.ovr

/-- R70: the adders of a channel over the points that stand in the record. -/
def addersOf (mode : AcqMode) (points : List (Nat × PerChan PointMeas)) (n : Chan) : Adders :=
  points.foldl (fun a p => a.add mode (p.2.get n)) .cleared

/-- R73. -/
def mean16 (sum n : Nat) : Nat := (32 * sum + n) / (2 * n)

/-- R74: the value in µV of a quantity of a channel measured at hw µV per division. -/
def quantityUv (a : Adders) (hw : Nat) : Quantity → Int
  | .max => roundHalfAway (((a.max : Int) - 128) * hw) 25
  | .min => roundHalfAway (((a.min : Int) - 128) * hw) 25
  | .mean => roundHalfAway (((mean16 a.sum a.n : Int) - 2048) * hw) 400
  | .pkpk => roundHalfAway (((a.max : Int) - a.min) * hw) 25

/-- The thing of one quantity. -/
def PerQuantity.get {α : Type} (p : PerQuantity α) : Quantity → α
  | .max => p.max | .min => p.min | .mean => p.mean | .pkpk => p.pkpk

/-- The four things with one replaced. -/
def PerQuantity.set {α : Type} (p : PerQuantity α) (q : Quantity) (x : α) : PerQuantity α :=
  match q with
  | .max => { p with max := x } | .min => { p with min := x } | .mean => { p with mean := x } | .pkpk => { p with pkpk := x }

/-- The threshold of one type. -/
def LimitGroup.get (g : LimitGroup) : LimitType → Option Int
  | .ha => g.ha | .la => g.la | .hw => g.hw | .lw => g.lw

/-- The group with one threshold replaced. -/
def LimitGroup.set (g : LimitGroup) (t : LimitType) (x : Option Int) : LimitGroup :=
  match t with
  | .ha => { g with ha := x } | .la => { g with la := x } | .hw => { g with hw := x } | .lw => { g with lw := x }

/-- The quantities in the order of their flags (R77). -/
def quantities : List Quantity := [.max, .min, .mean, .pkpk]

/-- The types in the order of their flags (R77). -/
def limitTypes : List LimitType := [.ha, .la, .hw, .lw]

/-- R75: whether a threshold trips on a value; an absent one does not. -/
def trips (value : Int) (t : LimitType) : Option Int → Bool
  | none => false
  | some x => match t with | .ha | .hw => decide (x < value) | .la | .lw => decide (value < x)

/-- R75: the limit flag q.t of a channel at a capture end. -/
def limitFlag (u : ChanSetup) (a : Adders) (hw : Nat) (q : Quantity) (t : LimitType) : Bool :=
  trips (quantityUv a hw q) t ((u.limits.get q).get t)

/-- R77, R79: the results of a measured channel as a set of flags. -/
def resultFlags (n : Chan) (u : ChanSetup) (a : Adders) (hw : Nat) : BitVec 76 :=
  let limits := quantities.flatMap (fun q => limitTypes.map (fun t => limitFlag u a hw q t))
  BitVec.ofNat 76 (2 ^ chanFlag n 0 *
    (a.ovr.toNat + limits.zipIdx.foldl (fun acc b => acc + b.1.toNat * 2 ^ (2 + b.2)) 0))

/-- R76: the flag set of a measured channel, LANE being the capture's mark. -/
def flagSetFor (u : ChanSetup) (a : Adders) (hw : Nat) (lane : Bool) : FlagSet where
  ovr := a.ovr
  lane := lane
  ha := quantities.any (fun q => limitFlag u a hw q .ha)
  la := quantities.any (fun q => limitFlag u a hw q .la)
  hw := quantities.any (fun q => limitFlag u a hw q .hw)
  lw := quantities.any (fun q => limitFlag u a hw q .lw)

/-- R79: the flags a capture end replaces: OVR and the limit flags of all four channels. -/
def measuredFlags : BitVec 76 :=
  BitVec.ofNat 76 (Chan.all.foldl (fun acc n => acc + 2 ^ chanFlag n 0 * (2 ^ 18 - 1 - 2)) 0)

/-- R79: a capture end with these results. -/
def monCaptureEnd (results : BitVec 76) (s : State) : State :=
  monOccur results { s with mon := { s.mon with current := s.mon.current &&& ~~~measuredFlags } }

/-- The empty flag set. -/
def FlagSet.empty : FlagSet := ⟨false, false, false, false, false, false⟩

/-- R84: whether a channel's flag set meets its REJECT set. -/
def rejects (r : RejectSet) (f : FlagSet) : Bool :=
  (r.ovr && f.ovr) || (r.lane && f.lane) || (r.alarm && (f.ha || f.la)) || (r.warn && (f.hw || f.lw))

/-- R213: the byte of a segment flag set. -/
def FlagSet.toByte (f : FlagSet) : Byte :=
  BitVec.ofNat 8 (f.ovr.toNat + 2 * f.lane.toNat + 4 * f.ha.toNat + 8 * f.la.toNat + 16 * f.hw.toNat + 32 * f.lw.toNat)

end Sys2Proof.Machine
end

