-- ==== Sys2Proof/Machine/Operands.lean ====
section
/-! DEFINITION. The fields of the live setup as orders and records carry them: ids, kinds, ranges, values, the setup image, and the values derived from the record (chapters 1, 2 and 11). -/

namespace Sys2Proof.Machine

/-! ## Kinds of field -/

/-- A value offered for a field or read from one. -/
inductive FieldValue where
  | number (v : Int)
  | limit (v : Option Int)
  | text (cs : List Byte)
  deriving DecidableEq, Repr

/-- R7: the kind of a field: numeric with its range, enumerated or set with the number of its codes, a limit, text. -/
inductive FieldKind where
  | numeric (lo hi : Int)
  | coded (count : Nat)
  | limit
  | text
  deriving DecidableEq, Repr

/-- R1, R7. -/
def ChanField.kind : ChanField → FieldKind
  | .on => .coded 2
  | .scale => .numeric 1000 10000000
  | .pos => .numeric (-400) 400
  | .coupling => .coded 3
  | .bwlimit => .coded 2
  | .color => .numeric 0 15
  | .reject => .coded 16

/-- R2, R3, R4, R7. -/
def DevField.kind : DevField → FieldKind
  | .tbase => .numeric 0 29
  | .depth => .numeric 0 4
  | .pretrig => .numeric 0 100
  | .acqmode => .coded 2
  | .runmode => .coded 2
  | .segcount => .numeric 1 256
  | .roll => .coded 2
  | .tsrc => .coded 5
  | .tslope => .coded 3
  | .tlevel => .numeric (-50000000) 50000000
  | .thyst => .numeric 1 16
  | .tmode => .coded 2
  | .tauto => .numeric 10 10000
  | .holdoff => .numeric 0 1000000
  | .recapture => .numeric 0 2
  | .stoprej => .coded 2
  | .persist => .coded 3
  | .decay => .numeric 1 255
  | .hitw => .numeric 1 255
  | .style => .coded 2
  | .grat => .coded 3
  | .tbright => .numeric 0 63
  | .gbright => .numeric 0 63
  | .blratio => .numeric 0 7
  | .bllevel => .numeric 0 63
  | .orient => .coded 2
  | .annot => .coded 2
  | .curV1 => .numeric 0 499
  | .curV2 => .numeric 0 499
  | .curH1 => .numeric 0 399
  | .curH2 => .numeric 0 399
  | .curShow => .coded 4
  | .name => .text

/-- R7. -/
def Field.kind : Field → FieldKind
  | .chan _ f => f.kind
  | .limit _ _ _ => .limit
  | .dev f => f.kind

/-! ## Codes of enumerated values (R7, R213) -/

/-- The code of on and off. -/
def boolCode (b : Bool) : Int := if b then 1 else 0
/-- on and off of a code. -/
def boolOf (v : Int) : Bool := decide (v = 1)

/-- R1: DC 0, AC 1, GND 2. -/
def Coupling.code : Coupling → Int | .dc => 0 | .ac => 1 | .gnd => 2
/-- R1. -/
def Coupling.ofCode (v : Int) : Coupling := if v = 1 then .ac else if v = 2 then .gnd else .dc
/-- R2: SAMPLE 0, PEAK 1. -/
def AcqMode.code : AcqMode → Int | .sample => 0 | .peak => 1
/-- R2. -/
def AcqMode.ofCode (v : Int) : AcqMode := if v = 1 then .peak else .sample
/-- R2: REPEAT 0, SEGMENTED 1. -/
def RunMode.code : RunMode → Int | .repeats => 0 | .segmented => 1
/-- R2. -/
def RunMode.ofCode (v : Int) : RunMode := if v = 1 then .segmented else .repeats
/-- R7: CH1 0 to EXT 4. -/
def TrigSource.code : TrigSource → Int | .chan n => (n.num : Int) - 1 | .ext => 4
/-- R7. -/
def TrigSource.ofCode (v : Int) : TrigSource :=
  if v = 0 then .chan .ch1 else if v = 1 then .chan .ch2 else if v = 2 then .chan .ch3 else if v = 3 then .chan .ch4 else .ext
/-- R2: RISE 0, FALL 1, EITHER 2. -/
def Slope.code : Slope → Int | .rise => 0 | .fall => 1 | .either => 2
/-- R2. -/
def Slope.ofCode (v : Int) : Slope := if v = 1 then .fall else if v = 2 then .either else .rise
/-- R2: AUTO 0, NORMAL 1. -/
def TrigMode.code : TrigMode → Int | .auto => 0 | .normal => 1
/-- R2. -/
def TrigMode.ofCode (v : Int) : TrigMode := if v = 1 then .normal else .auto
/-- R3: OFF 0, FINITE 1, INFINITE 2. -/
def Persist.code : Persist → Int | .off => 0 | .finite => 1 | .infinite => 2
/-- R3. -/
def Persist.ofCode (v : Int) : Persist := if v = 1 then .finite else if v = 2 then .infinite else .off
/-- R3: DOTS 0, VECTORS 1. -/
def Style.code : Style → Int | .dots => 0 | .vectors => 1
/-- R3. -/
def Style.ofCode (v : Int) : Style := if v = 1 then .vectors else .dots
/-- R3: FULL 0, FRAME 1, NONE 2. -/
def Graticule.code : Graticule → Int | .full => 0 | .frame => 1 | .blank => 2
/-- R3. -/
def Graticule.ofCode (v : Int) : Graticule := if v = 1 then .frame else if v = 2 then .blank else .full
/-- R3: NORMAL 0, ROTATED 1. -/
def Orient.code : Orient → Int | .normal => 0 | .rotated => 1
/-- R3. -/
def Orient.ofCode (v : Int) : Orient := if v = 1 then .rotated else .normal
/-- R7: none 0, V 1, H 2, both 3. -/
def CursorShow.code : CursorShow → Int | .hidden => 0 | .vertical => 1 | .horizontal => 2 | .both => 3
/-- R7. -/
def CursorShow.ofCode (v : Int) : CursorShow :=
  if v = 1 then .vertical else if v = 2 then .horizontal else if v = 3 then .both else .hidden
/-- R213: OVR 1, LANE 2, ALARM 4, WARN 8. -/
def RejectSet.code (r : RejectSet) : Int :=
  ((r.ovr.toNat + 2 * r.lane.toNat + 4 * r.alarm.toNat + 8 * r.warn.toNat : Nat) : Int)
/-- R213. -/
def RejectSet.ofCode (v : Int) : RejectSet :=
  let n := v.toNat
  ⟨n % 2 = 1, n / 2 % 2 = 1, n / 4 % 2 = 1, n / 8 % 2 = 1⟩

/-! ## Reading and writing a field -/

/-- The code or number of a channel field. -/
def ChanSetup.getNum (u : ChanSetup) : ChanField → Int
  | .on => boolCode u.on
  | .scale => u.scale
  | .pos => u.pos
  | .coupling => u.coupling.code
  | .bwlimit => boolCode u.bwlimit
  | .color => u.color
  | .reject => u.reject.code

/-- The channel fields with one written from its code or number. -/
def ChanSetup.putNum (u : ChanSetup) (f : ChanField) (v : Int) : ChanSetup :=
  match f with
  | .on => { u with on := boolOf v }
  | .scale => { u with scale := v.toNat }
  | .pos => { u with pos := v }
  | .coupling => { u with coupling := .ofCode v }
  | .bwlimit => { u with bwlimit := boolOf v }
  | .color => { u with color := v.toNat }
  | .reject => { u with reject := .ofCode v }

/-- The code or number of a device field (of NAME, which has none, 0). -/
def Setup.getNum (u : Setup) : DevField → Int
  | .tbase => u.tbase | .depth => u.depth | .pretrig => u.pretrig | .acqmode => u.acqmode.code
  | .runmode => u.runmode.code | .segcount => u.segcount | .roll => boolCode u.roll | .tsrc => u.tsrc.code
  | .tslope => u.tslope.code | .tlevel => u.tlevel | .thyst => u.thyst | .tmode => u.tmode.code | .tauto => u.tauto
  | .holdoff => u.holdoff | .recapture => u.recapture | .stoprej => boolCode u.stoprej | .persist => u.persist.code
  | .decay => u.decay | .hitw => u.hitw | .style => u.style.code | .grat => u.grat.code | .tbright => u.tbright
  | .gbright => u.gbright | .blratio => u.blratio | .bllevel => u.bllevel | .orient => u.orient.code
  | .annot => boolCode u.annot | .curV1 => u.curV1 | .curV2 => u.curV2 | .curH1 => u.curH1 | .curH2 => u.curH2
  | .curShow => u.curShow.code | .name => 0

/-- The record with a device field written from its code or number (NAME, which has none, as it was). -/
def Setup.putNum (u : Setup) (f : DevField) (v : Int) : Setup :=
  match f with
  | .tbase => { u with tbase := v.toNat } | .depth => { u with depth := v.toNat }
  | .pretrig => { u with pretrig := v.toNat } | .acqmode => { u with acqmode := .ofCode v }
  | .runmode => { u with runmode := .ofCode v } | .segcount => { u with segcount := v.toNat }
  | .roll => { u with roll := boolOf v } | .tsrc => { u with tsrc := .ofCode v }
  | .tslope => { u with tslope := .ofCode v } | .tlevel => { u with tlevel := v }
  | .thyst => { u with thyst := v.toNat } | .tmode => { u with tmode := .ofCode v }
  | .tauto => { u with tauto := v.toNat } | .holdoff => { u with holdoff := v.toNat }
  | .recapture => { u with recapture := v.toNat } | .stoprej => { u with stoprej := boolOf v }
  | .persist => { u with persist := .ofCode v } | .decay => { u with decay := v.toNat }
  | .hitw => { u with hitw := v.toNat } | .style => { u with style := .ofCode v }
  | .grat => { u with grat := .ofCode v } | .tbright => { u with tbright := v.toNat }
  | .gbright => { u with gbright := v.toNat } | .blratio => { u with blratio := v.toNat }
  | .bllevel => { u with bllevel := v.toNat } | .orient => { u with orient := .ofCode v }
  | .annot => { u with annot := boolOf v } | .curV1 => { u with curV1 := v.toNat }
  | .curV2 => { u with curV2 := v.toNat } | .curH1 => { u with curH1 := v.toNat }
  | .curH2 => { u with curH2 := v.toNat } | .curShow => { u with curShow := .ofCode v } | .name => u

/-- The value of a field. -/
def Setup.get (u : Setup) : Field → FieldValue
  | .chan n f => .number ((u.ch.get n).getNum f)
  | .limit n q t => .limit ((((u.ch.get n).limits).get q).get t)
  | .dev .name => .text u.name
  | .dev f => .number (u.getNum f)

/-- The channel fields with one threshold written. -/
def ChanSetup.putLimit (u : ChanSetup) (q : Quantity) (t : LimitType) (v : Option Int) : ChanSetup :=
  { u with limits := u.limits.set q ((u.limits.get q).set t v) }

/-- The record with one field written; a value of another kind than the field's writes nothing. -/
def Setup.put (u : Setup) (f : Field) (v : FieldValue) : Setup :=
  match f, v with
  | .chan n f, .number x => { u with ch := u.ch.set n ((u.ch.get n).putNum f x) }
  | .limit n q t, .limit x => { u with ch := u.ch.set n ((u.ch.get n).putLimit q t x) }
  | .dev .name, .text cs => { u with name := cs }
  | .dev f, .number x => u.putNum f x
  | _, _ => u

/-! ## Handling an offered value (R8) -/

/-- R6: a printable character. -/
def printable (c : Byte) : Bool := decide (0x20 ≤ c.toNat) && decide (c.toNat ≤ 0x7E)

/-- R6: NAME with its unprintable characters replaced by spaces. -/
def cleanName (cs : List Byte) : List Byte := cs.map (fun c => if printable c then c else 0x20)

/-- R8: the value stored for an offered one and whether it was clamped; none when it is outside the field's set. -/
def acceptValue (f : Field) (v : FieldValue) : Option (FieldValue × Bool) :=
  match f.kind, v with
  | .numeric lo hi, .number x => some (.number (clampInt lo hi x), decide (clampInt lo hi x ≠ x))
  | .coded count, .number x => if 0 ≤ x ∧ x < count then some (.number x, false) else none
  | .limit, .limit x => some (.limit x, false)
  | .text, .text cs => some (.text (cleanName cs), cs.any (fun c => !printable c))
  | _, _ => none

/-! ## Field ids (R218) -/

/-- The low byte of a channel field's id and the field. -/
def chanFieldIds : List (Nat × ChanField) :=
  [(1, .on), (2, .scale), (3, .pos), (4, .coupling), (5, .bwlimit), (6, .color), (7, .reject)]

/-- The ids of the device fields. -/
def devFieldIds : List (Nat × DevField) :=
  [(0x01, .tbase), (0x02, .depth), (0x03, .pretrig), (0x04, .acqmode), (0x05, .runmode), (0x06, .roll), (0x07, .segcount),
   (0x08, .tsrc), (0x09, .tslope), (0x0A, .thyst), (0x0B, .tmode), (0x0C, .tlevel), (0x0D, .tauto), (0x0E, .holdoff),
   (0x0F, .recapture), (0x10, .stoprej)] ++
  [(0x11, .persist), (0x12, .decay), (0x13, .hitw), (0x14, .style), (0x15, .grat), (0x16, .tbright), (0x17, .gbright),
   (0x18, .blratio), (0x19, .bllevel), (0x1A, .orient), (0x1B, .annot), (0x1C, .curShow), (0x1D, .curV1), (0x1E, .curV2),
   (0x1F, .curH1), (0x20, .curH2), (0x21, .name)]

/-- The quantity of a group number (R218). -/
def quantityOf : Nat → Quantity
  | 0 => .max | 1 => .min | 2 => .mean | _ => .pkpk

/-- The group number of a quantity (R218). -/
def Quantity.num : Quantity → Nat
  | .max => 0 | .min => 1 | .mean => 2 | .pkpk => 3

/-- The type of a number (R218). -/
def limitTypeOf : Nat → LimitType
  | 0 => .ha | 1 => .la | 2 => .hw | _ => .lw

/-- The number of a type (R218). -/
def LimitType.num : LimitType → Nat
  | .ha => 0 | .la => 1 | .hw => 2 | .lw => 3

/-- R218: the field of an id. -/
def fieldOfId (id : Nat) : Option Field :=
  match Chan.ofNum? (id / 256) with
  | some n =>
    if 0x10 ≤ id % 256 ∧ id % 256 < 0x20 then
      some (.limit n (quantityOf ((id % 256 - 0x10) / 4)) (limitTypeOf (id % 4)))
    else (tabGet? chanFieldIds (id % 256)).map (.chan n)
  | none => if id / 256 = 0 then (tabGet? devFieldIds id).map .dev else none

/-- R218: the id of a field. -/
def Field.id : Field → Nat
  | .chan n f => 256 * n.num + ((chanFieldIds.find? (fun e => e.2 = f)).map Prod.fst).getD 0
  | .limit n q t => 256 * n.num + 0x10 + 4 * q.num + t.num
  | .dev f => ((devFieldIds.find? (fun e => e.2 = f)).map Prod.fst).getD 0

/-! ## The setup image (R218) -/

/-- An item of the image: a field with its offset, bytes and sign, or a limit group with its offset. -/
inductive ImageItem where
  | field (off bytes : Nat) (signed : Bool) (f : Field)
  | group (off : Nat) (n : Chan) (q : Quantity)
  deriving DecidableEq, Repr

/-- The block of a channel, in increasing offset. -/
def chanImage (n : Chan) : List ImageItem :=
  let b := 96 * (n.num - 1)
  [.field b 1 false (.chan n .on), .field (b + 1) 1 false (.chan n .coupling), .field (b + 2) 1 false (.chan n .bwlimit),
   .field (b + 3) 1 false (.chan n .color), .field (b + 4) 1 false (.chan n .reject), .field (b + 6) 2 true (.chan n .pos),
   .field (b + 8) 4 false (.chan n .scale), .group (b + 16) n .max, .group (b + 36) n .min, .group (b + 56) n .mean,
   .group (b + 76) n .pkpk]

/-- Offset, bytes, sign and field of the device fields other than NAME, in increasing offset. -/
def devImage : List (Nat × Nat × Bool × DevField) :=
  [(384, 1, false, .tbase), (385, 1, false, .depth), (386, 1, false, .pretrig), (387, 1, false, .acqmode),
   (388, 1, false, .runmode), (389, 1, false, .roll), (390, 2, false, .segcount), (392, 1, false, .tsrc),
   (393, 1, false, .tslope), (394, 1, false, .thyst), (395, 1, false, .tmode), (396, 4, true, .tlevel),
   (400, 2, false, .tauto), (404, 4, false, .holdoff), (408, 1, false, .recapture), (409, 1, false, .stoprej)] ++
  [(410, 1, false, .persist), (411, 1, false, .decay), (412, 1, false, .hitw), (413, 1, false, .style),
   (414, 1, false, .grat), (415, 1, false, .tbright), (416, 1, false, .gbright), (417, 1, false, .blratio),
   (418, 1, false, .bllevel), (419, 1, false, .orient), (420, 1, false, .annot), (421, 1, false, .curShow),
   (422, 2, false, .curV1), (424, 2, false, .curV2), (426, 2, false, .curH1), (428, 2, false, .curH2)]

/-- The items of the image in increasing offset, NAME apart. -/
def imageItems : List ImageItem :=
  Chan.all.flatMap chanImage ++ devImage.map (fun e => .field e.1 e.2.1 e.2.2.1 (.dev e.2.2.2))

/-- R218: the number of an item as the image holds it. -/
def imageNum (img : List Byte) (off bytes : Nat) (signed : Bool) : Int :=
  if signed then intAt img off bytes else (natAt img off bytes : Int)

/-- R5, R218: a limit group of the image: absent thresholds' bytes are ignored. -/
def imageGroup (img : List Byte) (off : Nat) : LimitGroup :=
  let p := byteAt img off
  let thr := fun (i : Nat) => if p.getLsbD i then some (intAt img (off + 4 + 4 * i) 4) else none
  ⟨thr 0, thr 1, thr 2, thr 3⟩

/-- R218: take one item of the image into a record, counting the fields clamped; the id of the field when its code is
outside its set. -/
def readItem (img : List Byte) (acc : Setup × Nat) : ImageItem → Except Nat (Setup × Nat)
  | .field off bytes signed f =>
    match acceptValue f (.number (imageNum img off bytes signed)) with
    | some (v, c) => .ok (acc.1.put f v, acc.2 + c.toNat)
    | none => .error f.id
  | .group off n q =>
    if (byteAt img off).toNat < 16 then
      .ok ({ acc.1 with ch := acc.1.ch.set n { acc.1.ch.get n with limits := (acc.1.ch.get n).limits.set q (imageGroup img off) } },
        acc.2)
    else .error (Field.limit n q .ha).id

/-- R218: take the items of the image in turn. -/
def readItems (img : List Byte) : List ImageItem → Setup × Nat → Except Nat (Setup × Nat)
  | [], acc => .ok acc
  | i :: rest, acc =>
    match readItem img acc i with
    | .ok acc' => readItems img rest acc'
    | .error id => .error id

/-- R20, R23: the record an image offers and how many of its fields were clamped, or the id of its first offending field. -/
def readImage (img : List Byte) : Except Nat (Setup × Nat) :=
  match readItems img imageItems (.default, 0) with
  | .ok (u, c) =>
    let cs := slice img 430 16
    .ok ({ u with name := cleanName cs }, c + (cs.any (fun b => !printable b)).toNat)
  | .error id => .error id

/-- R213: the presence byte of a limit group. -/
def LimitGroup.presence (g : LimitGroup) : Byte :=
  BitVec.ofNat 8 (g.ha.isSome.toNat + 2 * g.la.isSome.toNat + 4 * g.hw.isSome.toNat + 8 * g.lw.isSome.toNat)

/-- R218: the 20 bytes of a limit group. -/
def groupBytes (g : LimitGroup) : List Byte :=
  [g.presence, 0, 0, 0] ++ beInt 4 (g.ha.getD 0) ++ beInt 4 (g.la.getD 0) ++ beInt 4 (g.hw.getD 0) ++ beInt 4 (g.lw.getD 0)

/-- R218: the 96 bytes of a channel block. -/
def chanBytes (u : ChanSetup) : List Byte :=
  beInt 1 (boolCode u.on) ++ beInt 1 u.coupling.code ++ beInt 1 (boolCode u.bwlimit) ++ beInt 1 u.color ++
  beInt 1 u.reject.code ++ [0] ++ beInt 2 u.pos ++ beInt 4 u.scale ++ [0, 0, 0, 0] ++
  groupBytes u.limits.max ++ groupBytes u.limits.min ++ groupBytes u.limits.mean ++ groupBytes u.limits.pkpk

/-- R218: the bytes 384 to 445 of the image. -/
def devBytes (u : Setup) : List Byte :=
  beInt 1 u.tbase ++ beInt 1 u.depth ++ beInt 1 u.pretrig ++ beInt 1 u.acqmode.code ++ beInt 1 u.runmode.code ++
  beInt 1 (boolCode u.roll) ++ beInt 2 u.segcount ++ beInt 1 u.tsrc.code ++ beInt 1 u.tslope.code ++ beInt 1 u.thyst ++
  beInt 1 u.tmode.code ++ beInt 4 u.tlevel ++ beInt 2 u.tauto ++ [0, 0] ++ beInt 4 u.holdoff ++ beInt 1 u.recapture ++
  beInt 1 (boolCode u.stoprej) ++ beInt 1 u.persist.code ++ beInt 1 u.decay ++ beInt 1 u.hitw ++ beInt 1 u.style.code ++
  beInt 1 u.grat.code ++ beInt 1 u.tbright ++ beInt 1 u.gbright ++ beInt 1 u.blratio ++ beInt 1 u.bllevel ++
  beInt 1 u.orient.code ++ beInt 1 (boolCode u.annot) ++ beInt 1 u.curShow.code ++ beInt 2 u.curV1 ++ beInt 2 u.curV2 ++
  beInt 2 u.curH1 ++ beInt 2 u.curH2 ++ u.name

/-- R19, R218: the 512-byte setup image of a record. -/
def imageOf (u : Setup) : List Byte :=
  chanBytes u.ch.c1 ++ chanBytes u.ch.c2 ++ chanBytes u.ch.c3 ++ chanBytes u.ch.c4 ++ devBytes u ++ List.replicate 66 0

/-! ## Values derived from the record -/

/-- R4: the time per division T in ns. -/
def timePerDiv (tbase : Nat) : Nat := 10 * seq125 tbase

/-- R4: the depth M of an index. -/
def depthPoints (d : Nat) : Nat := 1000 * 10 ^ d

/-- R30: S. -/
def sampleInterval (tbase d : Nat) : Nat :=
  if 10 * timePerDiv tbase ≤ depthPoints d then 1 else 10 * timePerDiv tbase / depthPoints d

/-- R30: L. -/
def recordLength (tbase d : Nat) : Nat :=
  if 10 * timePerDiv tbase ≤ depthPoints d then 10 * timePerDiv tbase else depthPoints d

/-- The channels that are on. -/
def Setup.enabled (u : Setup) : PerChan Bool := ⟨u.ch.c1.on, u.ch.c2.on, u.ch.c3.on, u.ch.c4.on⟩

/-- R34: C, taken as 1 when no channel is enabled. -/
def chanCount (enabled : PerChan Bool) : Nat :=
  Nat.max 1 (enabled.c1.toNat + enabled.c2.toNat + enabled.c3.toNat + enabled.c4.toNat)

/-- R33: b. -/
def pointBytes : AcqMode → Nat
  | .sample => 1 | .peak => 2

/-- R28: the hardware range of a channel. -/
def Setup.range (u : Setup) (n : Chan) : Nat := rangeOf (u.ch.get n).scale

/-- R35: the size B of a segment at a depth index. -/
def Setup.segSize (u : Setup) (d : Nat) : Nat := recordLength u.tbase d * chanCount u.enabled * pointBytes u.acqmode

/-- R35: the floor count. -/
def Setup.floorCount (u : Setup) : Nat := match u.runmode with | .repeats => 2 | .segmented => 1

/-- R35: the requested count. -/
def Setup.requestedCount (u : Setup) : Nat := match u.runmode with | .repeats => 2 | .segmented => u.segcount

/-- R35, steps 1 and 2: the effective depth index from a depth index down. -/
def Setup.reduceDepth (u : Setup) : Nat → Nat
  | 0 => 0
  | d + 1 => if memSize < u.floorCount * u.segSize (d + 1) then u.reduceDepth d else d + 1

/-- R31: P. -/
def preTrigger (len pretrig : Nat) : Nat := len * pretrig / 100

/-- R35: the geometry an arm under this record fixes. -/
def Setup.geometry (u : Setup) : Geometry :=
  let d := u.reduceDepth u.depth
  let len := recordLength u.tbase d
  { depthIdx := d
    interval := sampleInterval u.tbase d
    len := len
    pre := preTrigger len u.pretrig
    size := u.segSize d
    nEff := Nat.min u.requestedCount (memSize / u.segSize d)
    origin := 0
    mode := u.acqmode
    enabled := u.enabled
    range := .ofFn u.range
    roll := false }

/-- R39: the roll geometry; no rule gives its depth index (log 8). -/
def Setup.rollGeometry (u : Setup) (fresh : Nat) : Geometry where
  depthIdx := (Config.rollDepthIndex fresh).val
  interval := 10 * timePerDiv u.tbase / 500
  len := 500
  pre := 0
  size := 500 * chanCount u.enabled * 2
  nEff := 2
  origin := 0
  mode := .peak
  enabled := u.enabled
  range := .ofFn u.range
  roll := true

/-- R37: the layout of a geometry. -/
def Geometry.layout (g : Geometry) : Layout := ⟨g.len, g.interval, g.enabled, pointBytes g.mode⟩

/-- R60: the roll conditions. -/
def Setup.rollConditions (u : Setup) : Bool := u.roll && decide (u.runmode = .repeats) && decide (21 ≤ u.tbase)

/-- R29: the number on FEn_RANGE, FEn_CPL and FEn_BWL. -/
def frontEnd (u : Setup) (n : Chan) : Nat × Nat × Nat :=
  (u.range n, (u.ch.get n).coupling.code.toNat, (u.ch.get n).bwlimit.toNat)

end Sys2Proof.Machine
end

