-- ==== Sys2Proof/Machine/Orders.lean ====
section
/-! DEFINITION. LINK's path of an order: the taking of a checked frame (R201), dispatch and its checks (R202, R214). -/

namespace Sys2Proof.Machine

/-- R203: the KIND of an answer to a frame of a kind; no rule states it for a BUSY answer to a kind of 0x80 or above (log 9). -/
def answerKind (kind : Byte) : Byte := if kind.toNat < 0x80 then kind + 0x80 else Config.busyKindAbove kind

/-- R201: LINK takes a checked frame. -/
def takeFrame (f : Frame) (s : State) : State :=
  if s.link.inbound.length < 4 then
    monEnd (flagBit flagLinkDiscard) { s with link := { s.link with inbound := s.link.inbound ++ [f] } }
  else if answerRoom s then
    pushAnswer ⟨answerKind f.kind, f.tag, [Status.busy.code]⟩ (monEnd (flagBit flagLinkDiscard) s)
  else monOccur (flagBit flagLinkDiscard) s

/-- R202: dispatch removes the order at the head from the inbound queue. -/
def popInbound (s : State) : State := { s with link := { s.link with inbound := s.link.inbound.drop 1 } }

/-- The frame stands at the head of the inbound queue: as the state has it, or having arrived now (log 1). -/
def atHead (f : Frame) (s : State) : State := if s.link.inbound.head? = some f then s else takeFrame f s

/-- R202: the order at the head can be dispatched. -/
def dispatchable (f : Frame) (s : State) : Bool := decide (s.link.inbound.head? = some f) && answerRoom s

/-- R202: the dispatch of an order: it leaves the inbound queue, its LEN is checked, its block takes it. An order that
cannot be dispatched yet waits (log 1). -/
def dispatchOrder (kind : Byte) (lenOk : Nat → Bool) (tag : Byte) (body : List Byte) (act : State → State) (s : State) : State :=
  let f : Frame := ⟨kind, tag, body⟩
  let s1 := atHead f s
  if dispatchable f s1 then
    if lenOk body.length then act (popInbound s1) else answer kind tag .badLength [] (popInbound s1)
  else s1

/-- R202: an order of the table, while RESET_N is high. -/
def order (kind : Byte) (lenOk : Nat → Bool) (tag : Byte) (body : List Byte) (act : State → State) (s : State) :
    Host.Outcome State Fault Refusal :=
  live (dispatchOrder kind lenOk tag body act) s

/-- R214: an order whose body has one length. -/
def lenIs (n : Nat) (len : Nat) : Bool := len == n

/-- R214: the assigned order kinds. -/
def orderKinds : List Nat :=
  [0x01, 0x02, 0x03, 0x08, 0x09, 0x0A, 0x0B, 0x0C, 0x10, 0x11, 0x12, 0x13, 0x14, 0x15, 0x18, 0x19, 0x1A, 0x20, 0x21] ++
  [0x22, 0x23, 0x24, 0x25, 0x26, 0x27, 0x28, 0x2C, 0x2D, 0x2E, 0x2F, 0x30, 0x31, 0x32, 0x36, 0x37, 0x38, 0x39, 0x3A, 0x3B,
   0x3C, 0x3F]

end Sys2Proof.Machine
end

