-- ==== Sys2Proof/Machine/Compose.lean ====
section
/-! DEFINITION. COMPOSE: annotation, text plane, frame values, backlight, pixels (chapter 6). -/

namespace Sys2Proof.Machine

/-! ## Characters of numbers -/

/-- The character of a decimal digit. -/
def digit (n : Nat) : Byte := BitVec.ofNat 8 (48 + n % 10)

/-- R136: the six cells of a magnitude in µV, digits truncated. -/
def voltText (m : Nat) : List Byte :=
  if m < 10000 then [digit (m / 1000), 0x2E, digit (m / 100), digit (m / 10)] ++ ascii "mV"
  else if m < 100000 then [digit (m / 10000), digit (m / 1000), 0x2E, digit (m / 100)] ++ ascii "mV"
  else if m < 1000000 then [digit (m / 100000), digit (m / 10000), digit (m / 1000)] ++ ascii "mV "
  else if m < 10000000 then [digit (m / 1000000), 0x2E, digit (m / 100000), digit (m / 10000)] ++ ascii "V "
  else [digit (m / 10000000), digit (m / 1000000), 0x2E, digit (m / 100000)] ++ ascii "V "

/-- A number below 1000 without leading zeros. -/
def smallText (n : Nat) : List Byte :=
  if n < 10 then [digit n] else if n < 100 then [digit (n / 10), digit n] else [digit (n / 100), digit (n / 10), digit n]

/-- Text padded on the right with spaces, or cut, to a width. -/
def padText (w : Nat) (t : List Byte) : List Byte := (t ++ List.replicate w 0x20).take w

/-- R137: the time per division, six cells. -/
def timeText (tbase : Nat) : List Byte :=
  let t := timePerDiv tbase
  padText 6 (if t < 1000 then smallText t ++ ascii "ns" else if t < 1000000 then smallText (t / 1000) ++ ascii "us"
    else if t < 1000000000 then smallText (t / 1000000) ++ ascii "ms" else smallText (t / 1000000000) ++ ascii "s")

/-- R43, R137: the annotation word of an acquisition state. -/
def wordText (a : AcqState) (m : TrigMode) : List Byte :=
  match a with
  | .stopped => ascii "STOP"
  | .arming => ascii "RUN "
  | .waiting => match m with | .auto => ascii "AUTO" | .normal => ascii "WAIT"
  | .capturing => ascii "TRIG"
  | .held => ascii "HELD"
  | .rolling => ascii "ROLL"

/-- R137: TSRC, three cells. -/
def sourceText : TrigSource → List Byte
  | .chan n => ascii "CH" ++ [digit n.num]
  | .ext => ascii "EXT"

/-- R137: the slope glyph. -/
def slopeGlyph : Slope → Byte
  | .rise => 0x80 | .fall => 0x81 | .either => 0x82

/-- R137: cells 16 to 22. -/
def levelText (u : Setup) : List Byte :=
  match u.tsrc with
  | .ext => List.replicate 7 0x20
  | .chan _ => (if u.tlevel < 0 then 0x2D else 0x20) :: voltText u.tlevel.natAbs

/-- R137: row 0. -/
def annotRow0 (u : Setup) (a : AcqState) : List Byte :=
  padText 100 (wordText a u.tmode ++ [0x20] ++ timeText u.tbase ++ [0x20] ++ sourceText u.tsrc ++ [slopeGlyph u.tslope] ++
    levelText u)

/-- R138: the ten cells of a channel's slot. -/
def slotText (u : Setup) (n : Chan) : List Byte :=
  if (u.ch.get n).on then ascii "CH" ++ [digit n.num, 0x20] ++ voltText (u.ch.get n).scale else List.replicate 10 0x20

/-- R138: row 29. -/
def annotRow29 (u : Setup) : List Byte :=
  padText 100 (slotText u .ch1 ++ [0x20, 0x20] ++ slotText u .ch2 ++ [0x20, 0x20] ++ slotText u .ch3 ++ [0x20, 0x20] ++
    slotText u .ch4)

/-! ## The text plane -/

/-- R130: a cell at cold reset, a space with attribute 5. -/
def blankCell : Cell := ⟨0x20, 5⟩

/-- The cell at a cell number, 100 × row + column. -/
def cellAt (text : List (Nat × Cell)) (k : Nat) : Cell := tabGet blankCell text k

/-- The cells of a row of characters in attribute 5 from a cell number on, blank ones unlisted. -/
def rowCells (base : Nat) (row : List Byte) : List (Nat × Cell) :=
  row.zipIdx.filterMap (fun p => if p.1 = 0x20 then none else some (base + p.2, ⟨p.1, 5⟩))

/-- R135: write rows 0 and 29, every cell, with attribute 5. -/
def writeAnnotRows (row0 row29 : List Byte) (text : List (Nat × Cell)) : List (Nat × Cell) :=
  tabSplice (tabSplice text 0 100 (rowCells 0 row0)) 2900 3000 (rowCells 2900 row29)

/-- R135: rebuild the annotation text, and write the rows when they are owned. -/
def rebuildAnnotation (s : State) : State :=
  let r0 := annotRow0 s.setup s.acq.state
  let r29 := annotRow29 s.setup
  { s with compose := { s.compose with
      annot0 := r0
      annot29 := r29
      text := if s.compose.owned then writeAnnotRows r0 r29 s.compose.text else s.compose.text } }

/-- R134: whether a cell number lies in an owned row. -/
def ownedCell (owned : Bool) (k : Nat) : Bool := owned && (decide (k < 100) || decide (2900 ≤ k))

/-- R130: a character code of the text plane. -/
def textCode (c : Byte) : Bool := printable c || (decide (0x80 ≤ c.toNat) && decide (c.toNat ≤ 0x8F))

/-- The cell number of a position. -/
def CellPos.index (p : CellPos) : Nat := 100 * p.row + p.col

/-- The position of a cell number. -/
def CellPos.ofIndex (k : Nat) : CellPos := ⟨k % 100, k / 100⟩

/-- R132: write a run of characters in one attribute from a cell number on, wrapping after cell 2999. -/
def putRun (attr : Nat) : List Byte → Nat → List (Nat × Cell) → List (Nat × Cell)
  | [], _, text => text
  | c :: cs, k, text => putRun attr cs ((k + 1) % 3000) (tabSet blankCell text k ⟨c, attr⟩)

/-- R132: whether a run of a length from a cell number on meets an owned row. -/
def runOwned (owned : Bool) (k len : Nat) : Bool := (List.range len).any (fun i => ownedCell owned ((k + i) % 3000))

/-- R133: whether a cell number lies in a rectangle. -/
def inRect (col row w h k : Nat) : Bool :=
  decide (col ≤ k % 100) && decide (k % 100 < col + w) && decide (row ≤ k / 100) && decide (k / 100 < row + h)

/-- R133: the characters of a rectangle become spaces, the attributes stay. -/
def eraseRect (col row w h : Nat) (text : List (Nat × Cell)) : List (Nat × Cell) :=
  text.filterMap (fun e => if inRect col row w h e.1 then (if e.2.attr = 5 then none else some (e.1, ⟨0x20, e.2.attr⟩)) else some e)

/-- R131: the items of TEXT.MOVE, TEXT.MARK and TEXT.RETURN. -/
def cursorItems (c : Compose) : List Byte := be 1 c.cursor.col ++ be 1 c.cursor.row ++ be 1 c.mark.col ++ be 1 c.mark.row

/-! ## The frame -/

/-- Whether a tick has been reached, ticks differing by less than half the wrap period (R42). -/
def reached (now deadline : Tick) : Bool := decide ((now - deadline).toNat < 2 ^ 47)

/-- R118: the tick of frame event k after the one at t0. -/
def frameTick (t0 : Tick) (k : Nat) : Tick := t0 + BitVec.ofNat 48 (k * 6250000 / 3)

/-- R128: R of BLRATIO. -/
def ratioOf : Nat → Nat
  | 0 => 30 | 1 => 35 | 2 => 40 | 3 => 45 | 4 => 50 | 5 => 55 | 6 => 60 | _ => 64

/-- R128: the duty D in ON. -/
def dutyOf (ratio level : Nat) : Nat := ratioOf ratio * (99 + level) * 1023 / 10368

/-- R118: the frame values as they stand. -/
def frameValues (s : State) : FrameValues where
  color := .ofFn (fun n => (s.setup.ch.get n).color)
  tbright := s.setup.tbright
  gbright := s.setup.gbright
  grat := s.setup.grat
  orient := s.setup.orient
  curV1 := s.setup.curV1
  curV2 := s.setup.curV2
  curH1 := s.setup.curH1
  curH2 := s.setup.curH2
  curShow := s.setup.curShow
  annot := s.setup.annot
  blratio := s.setup.blratio
  bllevel := s.setup.bllevel
  palette := s.compose.palette
  mode := s.compose.mode

/-- R103: an intensity after a frame of decay. -/
def decayed (decay : Nat) (i : Byte) : Byte := BitVec.ofNat 8 (i.toNat * (256 - decay) / 256)

/-- R103: a plane after a frame of decay. -/
def decayPlane (decay : Nat) (p : List (Nat × Byte)) : List (Nat × Byte) :=
  p.filterMap (fun e => if decayed decay e.2 = 0 then none else some (e.1, decayed decay e.2))

/-- R103: RASTER takes a frame event. -/
def frameDecay (s : State) : State :=
  if s.setup.persist = .finite then
    let d := decayPlane s.setup.decay
    { s with raster := { s.raster with planes :=
      ⟨d s.raster.planes.c1, d s.raster.planes.c2, d s.raster.planes.c3, d s.raster.planes.c4⟩ } }
  else s

/-- R118, R128, R134: COMPOSE takes its frame values, sets the duty and takes or ends ownership. -/
def takeFrameValues (s : State) : State :=
  let c := s.compose
  { s with compose := { c with
      frame := frameValues s
      duty := dutyOf s.setup.blratio s.setup.bllevel
      owned := s.setup.annot
      text := if s.setup.annot && !c.owned then writeAnnotRows c.annot0 c.annot29 c.text else c.text } }

/-- R118: frame event k of the scanout that started at t0. -/
def frameEventAt (t0 : Tick) (k : Nat) (s : State) : State :=
  let s' := frameDecay (takeFrameValues s)
  { s' with compose := { s'.compose with frameTimer := some (t0, k) } }

/-- R129: scanout stops and D becomes 0. -/
def stopScanout (s : State) : State := { s with compose := { s.compose with frameTimer := none, duty := 0 } }

/-- R129: a frame event at once, from which scanout runs. -/
def startScanout (s : State) : State := frameEventAt s.acq.timeTag 0 s

/-- R139: COMPOSE at RESTART, before the rebuild of R135. -/
def composeRestart (s : State) : State :=
  { s with compose := { s.compose with text := [], cursor := ⟨0, 0⟩, mark := ⟨0, 0⟩, startCol := 0 } }

/-- The next frame event is due (R118). -/
def frameDue (s : State) : Bool :=
  match s.compose.frameTimer with
  | some (t0, k) => reached s.acq.timeTag (frameTick t0 (k + 1))
  | none => false

/-- FRAME_EVENT (R118). -/
def execFrameEvent (s : State) : Host.Outcome State Fault Refusal :=
  live (fun s =>
    match s.compose.frameTimer with
    | some (t0, k) => if reached s.acq.timeTag (frameTick t0 (k + 1)) then frameEventAt t0 (k + 1) s else s
    | none => s) s

/-! ## Orders -/

/-- R131: set the text cursor. -/
def setCursor (p : CellPos) (s : State) : State := { s with compose := { s.compose with cursor := p } }

/-- TEXT.PUT (R132). -/
def execTextPut (tag : Byte) (body : List Byte) (s : State) : Host.Outcome State Fault Refusal :=
  order 0x22 (fun n => decide (2 ≤ n) && decide (n ≤ 1001)) tag body (fun s =>
    let attr := (byteAt body 0).toNat
    let cs := body.drop 1
    let k := s.compose.cursor.index
    if 15 < attr ∨ cs.any (fun c => !textCode c) then answer 0x22 tag .badValue [] s
    else if runOwned s.compose.owned k cs.length then answer 0x22 tag .owned [] s
    else
      let p := CellPos.ofIndex ((k + cs.length) % 3000)
      answer 0x22 tag .ok (be 1 p.col ++ be 1 p.row)
        { s with compose := { s.compose with text := putRun attr cs k s.compose.text, cursor := p } }) s

/-- TEXT.MOVE (R131). -/
def execTextMove (tag : Byte) (body : List Byte) (s : State) : Host.Outcome State Fault Refusal :=
  order 0x23 (lenIs 2) tag body (fun s =>
    let col := (byteAt body 0).toNat
    let row := (byteAt body 1).toNat
    if 99 < col ∨ 29 < row then answer 0x23 tag .badValue [] s
    else
      let s' := setCursor ⟨col, row⟩ s
      answer 0x23 tag .ok (cursorItems s'.compose) s') s

/-- TEXT.MARK (R131). -/
def execTextMark (tag : Byte) (body : List Byte) (s : State) : Host.Outcome State Fault Refusal :=
  order 0x24 (lenIs 0) tag body (fun s =>
    let s' := { s with compose := { s.compose with mark := s.compose.cursor } }
    answer 0x24 tag .ok (cursorItems s'.compose) s') s

/-- TEXT.RETURN (R131). -/
def execTextReturn (tag : Byte) (body : List Byte) (s : State) : Host.Outcome State Fault Refusal :=
  order 0x25 (lenIs 0) tag body (fun s =>
    let s' := setCursor s.compose.mark s
    answer 0x25 tag .ok (cursorItems s'.compose) s') s

/-- TEXT.ERASE (R133). -/
def execTextErase (tag : Byte) (body : List Byte) (s : State) : Host.Outcome State Fault Refusal :=
  order 0x26 (lenIs 4) tag body (fun s =>
    let col := (byteAt body 0).toNat
    let row := (byteAt body 1).toNat
    let w := (byteAt body 2).toNat
    let h := (byteAt body 3).toNat
    if 99 < col ∨ 29 < row ∨ w = 0 ∨ h = 0 ∨ 100 < col + w ∨ 30 < row + h then answer 0x26 tag .badValue [] s
    else if s.compose.owned && (decide (row = 0) || decide (row + h = 30)) then answer 0x26 tag .owned [] s
    else answer 0x26 tag .ok [] { s with compose := { s.compose with text := eraseRect col row w h s.compose.text } }) s

/-- R124: the colours of a PALETTE.SET body. -/
def coloursOf : List Byte → List Rgb
  | r :: g :: b :: rest => ⟨r, g, b⟩ :: coloursOf rest
  | _ => []

/-- R124: consecutive entries written from an index on. -/
def writePalette (first : Nat) (cs : List Rgb) (p : List Rgb) : List Rgb := p.take first ++ cs ++ p.drop (first + cs.length)

/-- PALETTE.SET (R124, R214). -/
def execPaletteSet (tag : Byte) (body : List Byte) (s : State) : Host.Outcome State Fault Refusal :=
  order 0x27 (fun n => decide (5 ≤ n) && decide (n ≤ 50) && n % 3 == 2) tag body (fun s =>
    let first := (byteAt body 0).toNat
    let count := (byteAt body 1).toNat
    if 15 < first ∨ count = 0 ∨ 16 < count ∨ 16 < first + count ∨ 3 * count + 2 ≠ body.length then
      answer 0x27 tag .badValue [] s
    else answer 0x27 tag .ok []
      { s with compose := { s.compose with palette := writePalette first (coloursOf (body.drop 2)) s.compose.palette } }) s

/-- SCREEN (R126). -/
def execScreen (tag : Byte) (body : List Byte) (s : State) : Host.Outcome State Fault Refusal :=
  order 0x28 (lenIs 1) tag body (fun s =>
    let put := fun (m : ScreenMode) => answer 0x28 tag .ok [] { s with compose := { s.compose with mode := m } }
    match (byteAt body 0).toNat with
    | 0 => put .normal
    | 1 => put .invert
    | 2 => put .test
    | _ => answer 0x28 tag .badValue [] s) s

/-! ## Pixels (outputs, computed from the state) -/

/-- R121: a colour shown at a level. -/
def shade (c : Rgb) (level : Nat) : Rgb :=
  let f := fun (x : Byte) => BitVec.ofNat 8 (x.toNat * level / 255)
  ⟨f c.r, f c.g, f c.b⟩

/-- R121: the level of an intensity under a brightness. -/
def levelOf (i bright : Nat) : Nat := i * (99 + bright) / 162

/-- R122: the lit pixels of a graticule style, in window coordinates. -/
def gratLit (g : Graticule) (c r : Nat) : Bool :=
  let border := decide (c = 0) || decide (c = 499) || decide (r = 0) || decide (r = 399)
  let ticks := (r % 10 == 0 && decide (248 ≤ c) && decide (c ≤ 252)) || (c % 10 == 0 && decide (198 ≤ r) && decide (r ≤ 202))
  let lines := (c % 50 == 0 && decide (50 ≤ c) && decide (c ≤ 450) && r % 5 == 0) ||
    (r % 50 == 0 && decide (50 ≤ r) && decide (r ≤ 350) && c % 5 == 0)
  match g with
  | .full => border || lines || ticks
  | .frame => border || ticks
  | .blank => false

/-- R123: the lit pixels of the shown cursor lines, in window coordinates. -/
def cursorLit (f : FrameValues) (c r : Nat) : Bool :=
  let v := (decide (c = f.curV1) || decide (c = f.curV2)) && r % 2 == 0
  let h := (decide (r = f.curH1) || decide (r = f.curH2)) && c % 2 == 0
  match f.curShow with
  | .hidden => false | .vertical => v | .horizontal => h | .both => v || h

/-- The colour of a palette index. -/
def paletteAt (p : List Rgb) (i : Nat) : Rgb := p.getD i ⟨0, 0, 0⟩

/-- R93: the intensity of a plane's pixel. -/
def intensity (p : List (Nat × Byte)) (col row : Nat) : Byte := tabGet 0 p (400 * col + row)

/-- R120, R125: the trace layer at a window pixel: the first channel with a nonzero intensity. -/
def tracePixel (s : State) (c r : Nat) : Option Rgb :=
  let hit := fun (n : Chan) => intensity (s.raster.planes.get n) ((s.compose.startCol + c) % 500) r
  (Chan.all.find? (fun n => hit n != 0)).map (fun n =>
    shade (paletteAt s.compose.frame.palette (s.compose.frame.color.get n)) (levelOf (hit n).toNat s.compose.frame.tbright))

/-- R120, R130: the text layer at a screen pixel; the shapes of the characters are free values (log 7). -/
def textPixel (s : State) (x y : Nat) : Option Rgb :=
  let cell := cellAt s.compose.text (100 * (y / 16) + x / 8)
  if cell.code ≠ 0x20 ∧ Config.glyph cell.code (x % 8) (y % 16) then some (paletteAt s.compose.frame.palette cell.attr)
  else none

/-- R117: whether a screen position lies in the waveform window. -/
def inWindow (x y : Nat) : Bool := decide (40 ≤ x) && decide (x < 540) && decide (40 ≤ y) && decide (y < 440)

/-- R120: the composed pixel at a screen position. -/
def composedPixel (s : State) (x y : Nat) : Rgb :=
  let f := s.compose.frame
  let w := inWindow x y
  if w && cursorLit f (x - 40) (y - 40) then paletteAt f.palette 9
  else match textPixel s x y with
    | some c => c
    | none =>
      match (if w then tracePixel s (x - 40) (y - 40) else none) with
      | some c => c
      | none =>
        if w && gratLit f.grat (x - 40) (y - 40) then shade (paletteAt f.palette 6) (levelOf 255 f.gbright)
        else paletteAt f.palette 0

/-- R126: a pixel under a screen mode. -/
def applyMode : ScreenMode → Rgb → Rgb
  | .normal, c => c
  | .invert, c => ⟨255 - c.r, 255 - c.g, 255 - c.b⟩
  | .test, _ => ⟨255, 255, 255⟩

/-- R118, R129: scanout runs, from the frame event that starts it to the move that stops it. -/
def scanning (s : State) : Bool := s.compose.frameTimer.isSome

/-- R119, R126, R127, R129: the pixel sent at output position (x, y); the lines are 0 while scanout is stopped. While RESET_N
is low the lines go on showing the state as it stands (log 34). -/
def pixelSent (s : State) (x y : Nat) : Rgb :=
  if scanning s then applyMode s.compose.frame.mode (match s.compose.frame.orient with
    | .normal => composedPixel s x y
    | .rotated => composedPixel s (799 - x) (479 - y))
  else ⟨0, 0, 0⟩

/-- R119: the pixels of a frame. -/
def framePixels : Nat := 384000

/-- R119: the output position (x, y) of the i-th pixel sent in a frame, from 0: row by row, each row from x 0. -/
def outputPosition (i : Nat) : Nat × Nat := (i % 800, i / 800)

/-- R119: the i-th pixel sent in a frame, formed from the state as it stands when it is sent. -/
def framePixel (s : State) (i : Nat) : Rgb := pixelSent s (outputPosition i).1 (outputPosition i).2

/-- R119, R129: PIX_EN in the sending of a frame: active while its i-th pixel is sent, inactive past the last one and while
scanout is stopped (at what tick each pixel is sent is outside the reference, log 32). -/
def pixEn (s : State) (i : Nat) : Bool := scanning s && decide (i < framePixels)

end Sys2Proof.Machine
end

