-- ==== Sys2Proof/Machine/Raster.lean ====
section
/-! DEFINITION. RASTER: clears, the draw list, draw jobs, spans and hits, roll columns (chapter 5), and the reading of a record (R32, R34). -/

namespace Sys2Proof.Machine

/-! ## Segment records and their regions -/

/-- The record of a segment; an unlisted one is FREE with serial 0 (R44). -/
def segAt (s : State) (k : Nat) : SegRecord := tabGet (.free 0) s.acq.segs k

/-- R34: the region [lo, hi) of segment k under a geometry. -/
def regionOf (k : Nat) (g : Geometry) : Nat × Nat := (k * g.size, (k + 1) * g.size)

/-- Whether two regions share a byte. -/
def overlaps (a b : Nat × Nat) : Bool := decide (a.1 < b.2) && decide (b.1 < a.2) && decide (a.1 < a.2) && decide (b.1 < b.2)

/-- R34: whether a region lies in the acquisition memory. -/
def regionExists (r : Nat × Nat) : Bool := decide (r.2 ≤ memSize)

/-- R44: whether a segment is DONE with a serial. -/
def doneWith (s : State) (k : Nat) (serial : Serial) : Bool :=
  decide ((segAt s k).state = .done) && decide ((segAt s k).serial = serial)

/-- R32, R113: the position of a record index. -/
def Geometry.position (g : Geometry) (i : Nat) : Nat :=
  if g.roll then (g.origin + i) % g.len else if i < g.pre then (g.origin + i) % g.pre else i

/-- R34: the place of a channel among the enabled channels. -/
def chanIndex (enabled : PerChan Bool) (n : Chan) : Nat :=
  (enabled.members.filter (fun m => decide (m.num < n.num))).length

/-- R34: the address of a channel's bytes at a point position of segment k. -/
def Geometry.addr (g : Geometry) (k q : Nat) (n : Chan) : Nat :=
  k * g.size + q * (chanCount g.enabled * pointBytes g.mode) + chanIndex g.enabled n * pointBytes g.mode

/-- R33: the codes stored for a channel at a record index, the minimum first in PEAK form. -/
def pointBytesAt (s : State) (g : Geometry) (k i : Nat) (n : Chan) : List Byte :=
  memLoad s.acq.memEpoch s.acq.mem (g.addr k (g.position i) n) (pointBytes g.mode)

/-- The smallest and the largest code of a stored point; equal in SAMPLE form. -/
def codesAt (s : State) (g : Geometry) (k i : Nat) (n : Chan) : Byte × Byte :=
  let bs := pointBytesAt s g k i n
  (byteAt bs 0, byteAt bs (pointBytes g.mode - 1))

/-! ## The pin -/

/-- R107: the pin covers the running job's region. -/
def pinRegion (s : State) : Option (Nat × Nat) := s.raster.job.map (fun j => (j.lo, j.hi))

/-- R38: a region overlaps the pinned region. -/
def pinMeets (s : State) (r : Nat × Nat) : Bool :=
  match pinRegion s with
  | some p => overlaps p r
  | none => false

/-- R37, R58: the pin stands on the DONE record of a segment. -/
def pinnedSeg (s : State) (k : Nat) : Bool :=
  match s.raster.job with
  | some j => decide (j.seg = k) && doneWith s k j.serial
  | none => false

/-- R105: the automatic entry that stands in the list. -/
def autoEntry (s : State) : Option DrawEntry := s.raster.list.find? (fun e => e.automatic)

/-- R58: a buffer is pending. -/
def pendingSeg (s : State) (k : Nat) : Bool :=
  match autoEntry s with
  | some e => decide (e.seg = k) && doneWith s k e.serial
  | none => false

/-! ## Clears and the list -/

/-- Whether a clear of these channels meets the job in progress (R109). -/
def clearMeetsJob (set : PerChan Bool) (s : State) : Bool :=
  match s.raster.job with
  | some j => j.draws.meets set
  | none => false

/-- R93: the planes with those of a channel set cleared. -/
def clearedPlanes (set : PerChan Bool) (p : PerChan (List (Nat × Byte))) : PerChan (List (Nat × Byte)) :=
  .ofFn (fun n => if set.get n then [] else p.get n)

/-- R109: clear planes, cancelling the job when they meet it. -/
def clearPlanes (set : PerChan Bool) (s : State) : State :=
  { s with raster := { s.raster with
      planes := clearedPlanes set s.raster.planes
      job := if clearMeetsJob set s then none else s.raster.job } }

/-- R104: the list once an automatic entry arrives. -/
def listWithAuto (e : DrawEntry) (l : List DrawEntry) : List DrawEntry :=
  if l.any (fun x => x.automatic) then l.map (fun x => if x.automatic then e else x)
  else if l.length < 8 then l ++ [e] else l

/-- R104: an automatic entry for a segment, a serial and a channel set; none in STANDBY. -/
def enterAutomatic (seg : Nat) (serial : Serial) (chans : PerChan Bool) (s : State) : State :=
  if s.power.state = .standby then s
  else
    let e : DrawEntry := ⟨seg, serial, chans, decide (s.setup.persist = .off), true⟩
    { s with raster := { s.raster with list := listWithAuto e s.raster.list } }

/-- R110: the enabled set of the segment a redraw names; of one no longer held, all four channels (log 28). -/
def redrawSet (s : State) (seg : Nat) : PerChan Bool :=
  match (segAt s seg).info with
  | some i => i.geo.enabled
  | none => .const true

/-- R110: a redraw entry for a segment and its serial. -/
def enterRedraw (seg : Nat) (serial : Serial) (s : State) : State :=
  let set := redrawSet s seg
  if set.nonempty then enterAutomatic seg serial set s else s

/-- R110: a MAP-class change that affects a set of channels. -/
def mapChange (set : PerChan Bool) (s : State) : State :=
  let cancelled := if clearMeetsJob set s then s.raster.job else none
  let s1 := clearPlanes set s
  if s1.acq.state = .stopped ∧ s1.power.state ≠ .standby then
    if (autoEntry s1).isSome then s1
    else match cancelled, s1.raster.view with
      | some j, _ => enterRedraw j.seg j.serial s1
      | none, some v => enterRedraw v.1 v.2 s1
      | none, none => s1
  else s1

/-! ## Rows, columns and spans -/

/-- R95: the expansion K. -/
def expansion (hw req : Nat) : Nat := Nat.max 256 (Nat.min 10240 (hw * 1024 / req))

/-- R96: the row of a code. -/
def rowOf (sc : ChanScaling) (code : Byte) : Nat :=
  let t : Int := 2 * ((code.toNat : Int) - 128) * sc.k + 512 * sc.pos
  (clampInt 0 399 ((204800 - t + 512) / 1024)).toNat

/-- R97: the column of a record point. -/
def columnOf (len i : Nat) : Nat := i * 500 / len

/-- R97: the first record point whose column is c or above. -/
def firstPoint (len c : Nat) : Nat := (c * len + 499) / 500

/-- The rows of a record point: the maximum's, then the minimum's. -/
def rowsAt (s : State) (g : Geometry) (k : Nat) (n : Chan) (sc : ChanScaling) (i : Nat) : Nat × Nat :=
  let c := codesAt s g k i n
  (rowOf sc c.2, rowOf sc c.1)

/-- The record points whose column is c. -/
def pointsIn (len c : Nat) : List Nat :=
  (List.range (firstPoint len (c + 1) - firstPoint len c)).map (fun i => firstPoint len c + i)

/-- R98: the spans of a column with STYLE DOTS. -/
def dotSpans (s : State) (g : Geometry) (k : Nat) (n : Chan) (sc : ChanScaling) (c : Nat) : List (Nat × Nat) :=
  (pointsIn g.len c).map (rowsAt s g k n sc)

/-- R99: the points that make the span of a column: those in it and, above column 0, the last one before it. -/
def vectorPoints (len c : Nat) : List Nat :=
  if c = 0 then pointsIn len c else (firstPoint len c - 1) :: pointsIn len c

/-- The span from the smallest to the largest row of some rows. -/
def spanOver : List (Nat × Nat) → List (Nat × Nat)
  | [] => []
  | r :: rs => [rs.foldl (fun acc x => (Nat.min acc.1 x.1, Nat.max acc.2 x.2)) r]

/-- R99: the span of a column with STYLE VECTORS, L of 500 or more. -/
def vectorSpans (s : State) (g : Geometry) (k : Nat) (n : Chan) (sc : ChanScaling) (c : Nat) : List (Nat × Nat) :=
  spanOver ((vectorPoints g.len c).map (rowsAt s g k n sc))

/-- R100: the interpolated row y(c). -/
def interpolated (s : State) (g : Geometry) (k : Nat) (n : Chan) (sc : ChanScaling) (c : Nat) : Nat :=
  let i := firstPoint g.len (c + 1) - 1
  let y := fun (j : Nat) => (rowsAt s g k n sc j).1
  if g.len ≤ i + 1 then y (g.len - 1)
  else
    let x0 := columnOf g.len i
    let x1 := columnOf g.len (i + 1)
    ((y i : Int) + roundHalfAway (((y (i + 1) : Int) - y i) * ((c : Int) - x0)) (x1 - x0)).toNat

/-- R100: the span of a column with STYLE VECTORS, L below 500. -/
def interpolatedSpans (s : State) (g : Geometry) (k : Nat) (n : Chan) (sc : ChanScaling) (c : Nat) : List (Nat × Nat) :=
  let last := columnOf g.len (g.len - 1)
  if last < c then []
  else
    let y0 := interpolated s g k n sc c
    if c = last then [(y0, y0)]
    else
      let y1 := interpolated s g k n sc (c + 1)
      [(Nat.min y0 y1, Nat.max y0 y1)]

/-- R98 to R100: the spans of a column of a record. -/
def columnSpans (s : State) (g : Geometry) (k : Nat) (n : Chan) (style : Style) (sc : ChanScaling) (c : Nat) : List (Nat × Nat) :=
  match style with
  | .dots => dotSpans s g k n sc c
  | .vectors => if 500 ≤ g.len then vectorSpans s g k n sc c else interpolatedSpans s g k n sc c

/-- Whether a row lies in some span. -/
def marked (spans : List (Nat × Nat)) (r : Nat) : Bool := spans.any (fun sp => decide (sp.1 ≤ r) && decide (r ≤ sp.2))

/-- The entries of one column of a plane. -/
def columnOfPlane (p : List (Nat × Byte)) (c : Nat) : List (Nat × Byte) :=
  p.filter (fun e => decide (400 * c ≤ e.1) && decide (e.1 < 400 * (c + 1)))

/-- A plane with the intensities of one column given by a function of the old intensity and the row. -/
def mapColumn (f : Nat → Byte → Byte) (c : Nat) (p : List (Nat × Byte)) : List (Nat × Byte) :=
  let old := columnOfPlane p c
  tabSplice p (400 * c) (400 * (c + 1)) ((List.range 400).filterMap (fun r =>
    let v := f r (tabGet 0 old (400 * c + r))
    if v = 0 then none else some (400 * c + r, v)))

/-- R101: an intensity after one hit. -/
def hitValue (w : Nat) (i : Byte) : Byte := BitVec.ofNat 8 (Nat.min 255 (i.toNat + w))

/-- R101: one hit on every marked pixel of a column. -/
def hitColumn (w c : Nat) (spans : List (Nat × Nat)) (p : List (Nat × Byte)) : List (Nat × Byte) :=
  mapColumn (fun r i => if marked spans r then hitValue w i else i) c p

/-- R112: a column set to an intensity on its spans and to 0 elsewhere. -/
def setColumn (w c : Nat) (spans : List (Nat × Nat)) (p : List (Nat × Byte)) : List (Nat × Byte) :=
  mapColumn (fun r _ => if marked spans r then BitVec.ofNat 8 w else 0) c p

/-! ## Draw jobs -/

/-- R108: the job ends complete: the pin is released and the view segment set. -/
def completeJob (j : DrawJob) (s : State) : State :=
  { s with raster := { s.raster with job := none, view := some (j.seg, j.serial) } }

/-- R95, R106: the values of a channel fixed at a job's start. -/
def scalingFor (s : State) (g : Geometry) (n : Chan) : ChanScaling :=
  ⟨(s.setup.ch.get n).pos, expansion (hwOf (g.range.get n)) (s.setup.ch.get n).scale⟩

/-- R106: the job of an entry whose segment has a geometry. -/
def jobOf (s : State) (e : DrawEntry) (g : Geometry) : DrawJob :=
  let draws : PerChan Bool := .ofFn (fun n => e.chans.get n && g.enabled.get n)
  { seg := e.seg
    serial := e.serial
    lo := (regionOf e.seg g).1
    hi := (regionOf e.seg g).2
    draws := draws
    todo := draws.members
    nextCol := 0
    hitw := s.setup.hitw
    style := s.setup.style
    scaling := .ofFn (scalingFor s g) }

/-- R106, steps 1 to 3; a job with no channel to draw completes at once. -/
def startJob (e : DrawEntry) (g : Geometry) (s : State) : State :=
  let j := jobOf s e g
  let planes := if e.clearFirst then clearedPlanes j.draws s.raster.planes else s.raster.planes
  let s1 := { s with raster := { s.raster with planes := planes, job := some j } }
  if j.todo.isEmpty then completeJob j s1 else s1

/-- R106: RASTER takes the head entry off the list; a stale one is dropped. -/
def takeHeadEntry (s : State) : State :=
  match s.raster.job, s.raster.list with
  | none, e :: rest =>
    let s1 := { s with raster := { s.raster with list := rest } }
    if doneWith s e.seg e.serial then
      match (segAt s e.seg).info with
      | some i => startJob e i.geo s1
      | none => s1
    else s1
  | _, _ => s

/-- The job after the hitting of a column (R101). -/
def DrawJob.advance (j : DrawJob) : DrawJob :=
  if j.nextCol < 499 then { j with nextCol := j.nextCol + 1 } else { j with nextCol := 0, todo := j.todo.drop 1 }

/-- R101, R108: hit the job's next column of its channel n, read under its geometry. -/
def hitJobColumn (j : DrawJob) (n : Chan) (g : Geometry) (s : State) : State :=
  let spans := columnSpans s g j.seg n j.style (j.scaling.get n) j.nextCol
  let p := hitColumn j.hitw j.nextCol spans (s.raster.planes.get n)
  let j' := j.advance
  let s1 := { s with raster := { s.raster with planes := s.raster.planes.set n p, job := some j' } }
  if j'.todo.isEmpty then completeJob j' s1 else s1

/-- DRAW_COLUMN (R101): the next column of the job in progress. A region outside the memory does not exist (log 25). -/
def execDrawColumn (s : State) : Host.Outcome State Fault Refusal :=
  if s.pins.resetLow then .next s
  else
    match s.raster.job with
    | none => .next s
    | some j =>
      match j.todo, (segAt s j.seg).info with
      | n :: _, some i =>
        if regionExists (regionOf j.seg i.geo) then .next (hitJobColumn j n i.geo s) else .fault .noSuchMemory
      | _, _ => .next s

/-! ## Roll -/

/-- R111: RASTER at entry into ROLLING. -/
def rasterEnterRoll (s : State) : State :=
  { s with raster := { s.raster with
      planes := ⟨[], [], [], []⟩, list := [], job := none, view := none, writeCol := 0, wrapped := false } }

/-- R112, R125: the start column COMPOSE takes from RASTER. -/
def takeStartCol (s : State) : State :=
  { s with compose := { s.compose with startCol := if s.raster.wrapped then s.raster.writeCol else 0 } }

/-- R112: the rows of a roll column of a channel. -/
def rollSpan (s : State) (g : Geometry) (n : Chan) (lo hi : Byte) : Nat × Nat :=
  (rowOf (scalingFor s g n) hi, rowOf (scalingFor s g n) lo)

/-- R112, steps 1 and 2: column w of the four planes. -/
def rollPlanes (s : State) (g : Geometry) (col : PerChan (Byte × Byte)) : PerChan (List (Nat × Byte)) :=
  .ofFn (fun n =>
    let spans := if g.enabled.get n then [rollSpan s g n (col.get n).1 (col.get n).2] else []
    setColumn s.setup.hitw s.raster.writeCol spans (s.raster.planes.get n))

/-- R112: RASTER takes a column record: the smallest and largest code of each channel. -/
def rasterRollColumn (g : Geometry) (col : PerChan (Byte × Byte)) (s : State) : State :=
  let w := (s.raster.writeCol + 1) % 500
  takeStartCol { s with raster := { s.raster with
      planes := rollPlanes s g col
      writeCol := w
      wrapped := s.raster.wrapped || decide (w = 0) } }

/-- R113: a plane whose stored column (w + j) mod 500 comes to position j. -/
def rotatePlane (w : Nat) (p : List (Nat × Byte)) : List (Nat × Byte) :=
  (p.filter (fun e => decide (400 * w ≤ e.1))).map (fun e => (e.1 - 400 * w, e.2)) ++
  (p.filter (fun e => decide (e.1 < 400 * w))).map (fun e => (e.1 + 400 * (500 - w), e.2))

/-- R113: RASTER at the leaving of ROLLING; `view` when the exit made segment 0 DONE. -/
def rasterLeaveRoll (view : Option (Nat × Serial)) (s : State) : State :=
  let w := s.raster.writeCol
  let p := s.raster.planes
  let planes := if s.raster.wrapped then ⟨rotatePlane w p.c1, rotatePlane w p.c2, rotatePlane w p.c3, rotatePlane w p.c4⟩ else p
  takeStartCol { s with raster := { s.raster with
      planes := planes, writeCol := 0, wrapped := false
      view := match view with | some v => some v | none => s.raster.view } }

/-! ## Reset, power, orders -/

/-- R116: RASTER at RESTART. -/
def rasterRestart (s : State) : State := { s with raster := .cold }

/-- R116: RASTER on entry into STANDBY, once ACQ has abandoned a roll. -/
def rasterStandby (s : State) : State := { s with raster := { s.raster with job := none, list := [] } }

/-- R213: the channel set of a body's byte, none when a bit stands for no channel. -/
def chanSetOf (b : Byte) : Option (PerChan Bool) := if b.toNat < 16 then some (.ofSetByte b) else none

/-- R114: the segment, serial and set of a DRAW that passes its checks but the last three. -/
def drawChecks (s : State) (body : List Byte) : Status :=
  let seg := (byteAt body 0).toNat
  if s.power.state = .standby then .wrongState
  else if s.acq.state = .rolling then .wrongState
  else if (byteAt body 5).toNat = 0 ∨ 15 < (byteAt body 5).toNat then .badValue
  else if (segAt s seg).state ≠ .done then .wrongState
  else if (segAt s seg).serial ≠ BitVec.ofNat 32 (natAt body 1 4) then .stale
  else if 8 ≤ s.raster.list.length then .busy
  else .ok

/-- R114: the ordered entry of a DRAW. -/
def drawEntryOf (body : List Byte) : DrawEntry :=
  ⟨(byteAt body 0).toNat, BitVec.ofNat 32 (natAt body 1 4), .ofSetByte (byteAt body 5), byteAt body 6 != 0, false⟩

/-- DRAW (R114). -/
def execDraw (tag : Byte) (body : List Byte) (s : State) : Host.Outcome State Fault Refusal :=
  order 0x20 (lenIs 7) tag body (fun s =>
    match drawChecks s body with
    | .ok => answer 0x20 tag .ok [] { s with raster := { s.raster with list := s.raster.list ++ [drawEntryOf body] } }
    | st => answer 0x20 tag st [] s) s

/-- PLANES.CLEAR (R115). -/
def execPlanesClear (tag : Byte) (body : List Byte) (s : State) : Host.Outcome State Fault Refusal :=
  order 0x21 (lenIs 1) tag body (fun s =>
    match chanSetOf (byteAt body 0) with
    | some set => if set.nonempty then answer 0x21 tag .ok [] (clearPlanes set s) else answer 0x21 tag .badValue [] s
    | none => answer 0x21 tag .badValue [] s) s

/-- R9: the derived K of a channel. -/
def derivedK (s : State) (n : Chan) : Nat :=
  let present := hwOf (s.setup.range n)
  let hw := match s.raster.view with
    | some (k, ser) =>
      if doneWith s k ser then
        (match (segAt s k).info with
         | some i => if i.geo.enabled.get n then hwOf (i.geo.range.get n) else present
         | none => present)
      else present
    | none => present
  expansion hw (s.setup.ch.get n).scale

end Sys2Proof.Machine
end

