-- ==== Sys2Proof/Machine/Acquire.lean ====
section
/-! DEFINITION. ACQ: the time tag, the codes, the segment table, arms, captures, runs, roll, stops and the ACQ orders (chapters 2 to 4). -/

namespace Sys2Proof.Machine

/-! ## Records -/

/-- Write a segment record. -/
def setSeg (k : Nat) (r : SegRecord) (s : State) : State :=
  { s with acq := { s.acq with segs := tabSet (.free 0) s.acq.segs k r } }

/-- The record of the segment being worked (R43). -/
def curSeg (s : State) : SegRecord := segAt s s.acq.cur

/-- R43: ACQ takes a state and tells COMPOSE. -/
def setAcqState (a : AcqState) (s : State) : State := rebuildAnnotation { s with acq := { s.acq with state := a } }

/-- R43: a capture is in flight. -/
def inFlight (s : State) : Bool :=
  match s.acq.state with
  | .arming | .waiting | .capturing | .rolling => true
  | .stopped | .held => false

/-- R37, R57: the DONE segments that a condition names become FREE with their serial kept, the pinned one apart. -/
def freeDone (which : Nat → SegRecord → Bool) (s : State) : State :=
  let f := fun (e : Nat × SegRecord) =>
    if decide (e.2.state = .done) && which e.1 e.2 && !pinnedSeg s e.1 then SegRecord.free e.2.serial else e.2
  { s with acq := { s.acq with
      segs := s.acq.segs.filterMap (fun e => if f e = .free 0 then none else some (e.1, f e)) } }

/-- R37: the layout of an arm differs from the last one's. -/
def newLayout (s : State) (g : Geometry) : Bool :=
  match s.acq.prevLayout with
  | some l => decide (l ≠ g.layout)
  | none => false

/-- R37: the region of a record meets a region about to be armed. -/
def recordMeets (k : Nat) (r : SegRecord) (region : Nat × Nat) : Bool :=
  match r.info with
  | some i => overlaps (regionOf k i.geo) region
  | none => false

/-- R37: the freeing at an arm of index k under a geometry. -/
def freeForArm (k : Nat) (g : Geometry) (s : State) : State :=
  freeDone (fun j r => newLayout s g || recordMeets j r (regionOf k g)) s

/-- R38, R45: the arm of index k under a geometry waits for the pin (log 12). -/
def armWaits (k : Nat) (g : Geometry) (s : State) : Bool := pinMeets s (regionOf k g) || pinnedSeg s k

/-! ## Arms -/

/-- R70: cleared adders, no interval in progress, no points. -/
def discardPoints (s : State) : State :=
  { s with acq := { s.acq with
      points := [], ivCount := 0, iv := ⟨.empty, .empty, .empty, .empty⟩, preCount := 0, postCount := 0, rollCount := 0 } }

/-- R53: both primes clear. -/
def clearPrimes (s : State) : State := { s with acq := { s.acq with risePrime := false, fallPrime := false } }

/-- R64, R68: ACQ enters HELD and its note. A re-arm in HELD whose region still meets the pin comes here again, and enters
the note anew (log 39). -/
def enterHeld (s : State) : State := enterNote .acq (setAcqState .held { s with acq := { s.acq with cur := 0 } })

/-- R32: the ring position the next pre-trigger point would overwrite; 0 when P is 0. -/
def originFor (preCount pre : Nat) : Nat := if pre = 0 then 0 else preCount % pre

/-- R49: what a trigger records: tag, kind and ring origin in the segment, the last trigger tag; force pending clears. -/
def markTrigger (kind : TrigKind) (tag : Tick) (s : State) : State :=
  let r := curSeg s
  let s1 := { s with acq := { s.acq with forcePending := false, lastTrig := some tag, postCount := 0 } }
  match r.info with
  | some i =>
    setSeg s.acq.cur { r with info := some { i with
      trigTag := some tag, trigKind := some kind, geo := { i.geo with origin := originFor s.acq.preCount i.geo.pre } } } s1
  | none => s1

/-- R49: the segment becomes FILLING and ACQ enters CAPTURING. -/
def enterCapturing (s : State) : State :=
  setAcqState .capturing (setSeg s.acq.cur { curSeg s with state := .filling } s)

/-- R48: the READY entry with P = 0: the READY tick is the arm tag, and a pending force is taken at once. -/
def readyAtOnce (armTag : Tick) (s : State) : State :=
  let s1 := { s with acq := { s.acq with readyTick := armTag } }
  if s1.acq.forcePending then enterCapturing (markTrigger .forced s1.acq.timeTag s1) else s1

/-- R47 steps 3 to 5, R50: a capture into index k starts with these fields. -/
def beginCapture (k : Nat) (i : SegInfo) (s : State) : State :=
  let s1 := clearPrimes (discardPoints { s with acq := { s.acq with cur := k } })
  if i.geo.pre = 0 then readyAtOnce i.armTag (setAcqState .waiting (setSeg k ⟨.ready, 0, some i⟩ s1))
  else setAcqState .arming (setSeg k ⟨.prefill, 0, some i⟩ s1)

/-- R44, R47: the fields of a record at its arm. -/
def armInfo (g : Geometry) (s : State) : SegInfo where
  generation := s.gen
  geo := g
  armTag := s.acq.timeTag
  trigTag := none
  trigKind := none
  attempts := 0
  flags := .const .empty
  meas := none
  outcome := none

/-- R47: an arm of index k. -/
def arm (k : Nat) (s : State) : State :=
  let g := s.setup.geometry
  let s1 := freeForArm k g s
  if armWaits k g s1 then enterHeld s1
  else beginCapture k (armInfo g s1) { s1 with acq := { s1.acq with prevLayout := some g.layout } }

/-- R58: the buffer a REPEAT arm chooses. -/
def bufferChoice (s : State) : Nat :=
  let pref := match s.acq.lastDone with | some (0, _) => 1 | _ => 0
  let other := 1 - pref
  let busy := fun (k : Nat) => pinnedSeg s k || pendingSeg s k
  if !busy pref then pref else if !busy other then other else if pinnedSeg s pref then other else pref

/-- R58: the arm of a REPEAT run. -/
def armRepeat (s : State) : State := arm (bufferChoice s) s

/-- R39: store bytes through the memory port; an address outside the memory does not exist (log 25). -/
def portStore (m : List Host.Cell) (a : Nat) (bs : List Byte) : List Host.Cell :=
  if a + bs.length ≤ memSize then memStore m a bs else m

/-- R39: every point of the roll region with minimum 128 and maximum 128 for every enabled channel. -/
def rollFill (g : Geometry) : List Byte := List.replicate (500 * (2 * g.enabled.members.length)) 128

/-- R39: the memory with the roll region written. -/
def fillRoll (g : Geometry) (m : List Host.Cell) : List Host.Cell :=
  tabSplice m 0 (rollFill g).length ((rollFill g).zipIdx.map (fun p => (p.2, p.1)))

/-- R60, steps 2 to 4. -/
def beginRoll (g : Geometry) (s : State) : State :=
  let s1 := setSeg 0 ⟨.filling, 0, some (armInfo g s)⟩ (discardPoints s)
  let s2 := { s1 with acq := { s1.acq with
      cur := 0
      runKind := .roll
      forcePending := false
      columnsLeft := if s1.acq.single then 500 else s1.acq.columnsLeft
      mem := fillRoll g s1.acq.mem
      prevLayout := some g.layout } }
  enterNote .acq (setAcqState .rolling (rasterEnterRoll s2))

/-- R60: entry into ROLLING, or the wait for the pin. -/
def enterRoll (s : State) : State :=
  let g := s.setup.rollGeometry s.acq.fresh
  let s1 := freeForArm 0 g { s with acq := { s.acq with fresh := s.acq.fresh + 1 } }
  if armWaits 0 g s1 then enterHeld s1 else beginRoll g s1

/-! ## Runs -/

/-- R60: the arm of a REPEAT run at a start, a re-arm or a release. -/
def armRepeatOrRoll (s : State) : State :=
  let s1 := { s with acq := { s.acq with runKind := .repeats } }
  if s1.setup.rollConditions then enterRoll s1 else armRepeat s1

/-- R57, R63: the start of a SEGMENTED run. -/
def startSegmented (s : State) : State :=
  let s1 := freeDone (fun _ _ => true) s
  arm 0 { s1 with acq := { s1.acq with runKind := .segmented, runIndex := 0, countDone := 0, lastDone := none } }

/-- R57, R63: start under the run mode as it stands. -/
def launch (s : State) : State :=
  match s.setup.runmode with
  | .repeats => armRepeatOrRoll s
  | .segmented => startSegmented s

/-- R57, R59: a start from STOPPED. -/
def startRun (single : Bool) (s : State) : State :=
  launch { s with acq := { s.acq with lastTrig := none, countDone := 0, lastDone := none, single := single } }

/-- R46, R59, R68: ACQ enters STOPPED and its note. -/
def enterStopped (s : State) : State :=
  enterNote .acq (setAcqState .stopped { s with acq := { s.acq with cur := 0, runKind := .idle, single := false } })

/-- R38: the arm that waits in HELD takes place under the record as it stands. A REPEAT arm chooses its buffer anew (R58), as a
release is an arm of its own in R47 (log 49); whether it rolls is read anew too (log 13). -/
def armHeld (s : State) : State :=
  match s.acq.runKind with
  | .segmented => arm s.acq.runIndex s
  | .idle | .repeats | .roll => armRepeatOrRoll s

/-! ## Capture end -/

/-- R70, R72: the adders of a channel at a capture end; a channel outside the enabled set keeps them cleared. -/
def addersAt (s : State) (g : Geometry) (n : Chan) : Adders :=
  if g.enabled.get n then addersOf g.mode s.acq.points n else .cleared

/-- R76: the flag sets of a capture end; a channel outside the enabled set has none. -/
def flagSetsAt (s : State) (i : SegInfo) : PerChan FlagSet :=
  .ofFn (fun n => if i.geo.enabled.get n then
    flagSetFor (s.setup.ch.get n) (addersAt s i.geo n) (hwOf (i.geo.range.get n)) (i.flags.get n).lane else .empty)

/-- R79: the results of a capture end as flags. -/
def resultsAt (s : State) (g : Geometry) : BitVec 76 :=
  Chan.all.foldl (fun acc n => if g.enabled.get n then
    acc ||| resultFlags n (s.setup.ch.get n) (addersAt s g n) (hwOf (g.range.get n)) else acc) 0

/-- R44: the measurements of a capture end. -/
def measAt (s : State) (g : Geometry) : PerChan Meas :=
  .ofFn (fun n => if g.enabled.get n then
    let a := addersAt s g n
    ⟨BitVec.ofNat 8 a.min, BitVec.ofNat 8 a.max, mean16 a.sum a.n⟩ else ⟨0, 0, 0⟩)

/-- R84: whether a capture is rejected. -/
def rejectedBy (s : State) (g : Geometry) (f : PerChan FlagSet) : Bool :=
  Chan.all.any (fun n => g.enabled.get n && rejects (s.setup.ch.get n).reject (f.get n))

/-- R50: the serial after the one given most recently; a DONE record never carries 0. -/
def nextSerial (c : Serial) : Serial := if c + 1 = 0 then 1 else c + 1

/-- R50: index k becomes DONE with the next serial. -/
def makeDone (k : Nat) (i : SegInfo) (s : State) : State :=
  let ser := nextSerial s.acq.serialCounter
  setSeg k ⟨.done, ser, some i⟩ { s with acq := { s.acq with
    serialCounter := ser, countDone := s.acq.countDone + 1, lastDone := some (k, ser) } }

/-- R81: SEG_REJECT at a segment made DONE. -/
def segRejectFollow (o : SegOutcome) (s : State) : State :=
  match o with
  | .rejected => monOccur (flagBit flagSegReject) s
  | .pass => monEnd (flagBit flagSegReject) s

/-- R51: whether the run stops after a segment. -/
def runEnds (s : State) (k : Nat) (g : Geometry) (o : SegOutcome) : Bool :=
  let onReject := decide (o = .rejected) && s.setup.stoprej
  match s.acq.runKind with
  | .segmented => decide (g.nEff ≤ k + 1) || onReject
  | .idle | .repeats | .roll => s.acq.single || onReject

/-- R51: the next arm of a run that goes on. -/
def nextArm (s : State) : State :=
  match s.acq.runKind with
  | .segmented => arm (s.acq.runIndex + 1) { s with acq := { s.acq with runIndex := s.acq.runIndex + 1 } }
  | .idle | .repeats | .roll => armRepeat s

/-- R51: after index k has become DONE. -/
def afterDone (k : Nat) (g : Geometry) (o : SegOutcome) (s : State) : State :=
  let ends := runEnds s k g o
  let draws := (decide (s.acq.runKind ≠ .segmented) || ends) && g.enabled.nonempty
  let s1 := if draws then enterAutomatic k (segAt s k).serial g.enabled s else s
  let s2 := enterNote .acq s1
  if ends then enterStopped s2 else nextArm s2

/-- R50: the recapture of index k. -/
def recapture (k : Nat) (i : SegInfo) (s : State) : State :=
  beginCapture k { i with
    generation := s.gen
    geo := { i.geo with origin := 0 }
    armTag := s.acq.timeTag
    trigTag := none
    trigKind := none
    attempts := i.attempts + 1
    flags := .const .empty
    meas := none
    outcome := none } s

/-- R50: the segment becomes DONE with an outcome, and the run goes on or ends. Its measurements are present whatever
channels it captured (log 40). -/
def finishSegment (k : Nat) (i : SegInfo) (f : PerChan FlagSet) (m : PerChan Meas) (o : SegOutcome) (s : State) : State :=
  afterDone k i.geo o (segRejectFollow o
    (makeDone k { i with flags := f, meas := some m, outcome := some o } s))

/-- R50, R72, R85: capture end of the segment being worked. -/
def captureEnd (s : State) : State :=
  match (curSeg s).info with
  | none => s
  | some i =>
    let f := flagSetsAt s i
    let m := measAt s i.geo
    let rejected := rejectedBy s i.geo f
    let s1 := monCaptureEnd (resultsAt s i.geo) s
    if rejected && decide (i.attempts < s.setup.recapture) then recapture s.acq.cur i s1
    else finishSegment s.acq.cur i f m (if rejected then .rejected else .pass) s1

/-- R49: an accepted trigger; with P = L it is the capture end. An interval that has all its codes and is not written yet counts
as the interval in progress: it becomes point P, and with P = L it is dropped (log 42). -/
def acceptTrigger (kind : TrigKind) (tag : Tick) (s : State) : State :=
  let s1 := markTrigger kind tag s
  match (curSeg s1).info with
  | some i => if i.geo.pre < i.geo.len then enterCapturing s1 else captureEnd s1
  | none => s1

/-! ## Points and columns -/

/-- S of the segment being worked. -/
def curInterval (s : State) : Nat :=
  match (curSeg s).info with
  | some i => i.geo.interval
  | none => 0

/-- R32, R39: the interval in progress of the capture in flight has all its codes. -/
def intervalFull (s : State) : Bool := inFlight s && (curSeg s).info.isSome && decide (curInterval s ≤ s.acq.ivCount) &&
  decide (0 < s.acq.ivCount)

/-- R33: the bytes of a point of the interval in progress. -/
def ivBytes (g : Geometry) (iv : PerChan IntervalChan) : List Byte :=
  g.enabled.members.flatMap (fun n => match g.mode with
    | .sample => [(iv.get n).first]
    | .peak => [(iv.get n).lo, (iv.get n).hi])

/-- R71: what a point gives the adders of a channel. -/
def pointMeas (mode : AcqMode) (c : IntervalChan) : PointMeas :=
  match mode with
  | .sample => ⟨c.first, c.first, c.ovr⟩
  | .peak => ⟨c.lo, c.hi, decide (c.lo = 0) || decide (c.hi = 255)⟩

/-- R27: the flag sets once a written point's interval has marked LANE. -/
def markLane (g : Geometry) (iv : PerChan IntervalChan) (f : PerChan FlagSet) : PerChan FlagSet :=
  .ofFn (fun n => if g.enabled.get n && (iv.get n).lockLow then { f.get n with lane := true } else f.get n)

/-- The next interval begins. -/
def resetInterval (s : State) : State :=
  { s with acq := { s.acq with ivCount := 0, iv := ⟨.empty, .empty, .empty, .empty⟩ } }

/-- R34: write the interval's point at position q of segment k, and mark LANE (R27). -/
def storePoint (k q : Nat) (i : SegInfo) (s : State) : State :=
  let s1 := setSeg k { segAt s k with info := some { i with flags := markLane i.geo s.acq.iv i.flags } } s
  { s1 with acq := { s1.acq with
      mem := portStore s.acq.mem (k * i.geo.size + q * (chanCount i.geo.enabled * pointBytes i.geo.mode)) (ivBytes i.geo s.acq.iv) } }

/-- R70, R71: give the point at position q to the adders; those of the enabled channels read it (addersAt). -/
def measurePoint (q : Nat) (g : Geometry) (s : State) : State :=
  { s with acq := { s.acq with points := tabPut s.acq.points q (.ofFn (fun n => pointMeas g.mode (s.acq.iv.get n))) } }

/-- R32: the interval that ended is written to its position: the ring before the trigger, P onward after it; with P = 0
nothing is written before the trigger. -/
def writePoint (s : State) : State :=
  match (curSeg s).info with
  | none => s
  | some i =>
    match s.acq.state with
    | .capturing =>
      let q := i.geo.pre + s.acq.postCount
      let s1 := measurePoint q i.geo (storePoint s.acq.cur q i s)
      resetInterval { s1 with acq := { s1.acq with postCount := s1.acq.postCount + 1 } }
    | .arming | .waiting =>
      if i.geo.pre = 0 then resetInterval s
      else
        let q := s.acq.preCount % i.geo.pre
        let s1 := measurePoint q i.geo (storePoint s.acq.cur q i s)
        resetInterval { s1 with acq := { s1.acq with preCount := s1.acq.preCount + 1 } }
    | _ => s

/-- R39, R60: the column record goes to segment 0 and to RASTER. -/
def writeColumn (s : State) : State :=
  match (curSeg s).info with
  | none => s
  | some i =>
    let col : PerChan (Byte × Byte) := .ofFn (fun n => ((s.acq.iv.get n).lo, (s.acq.iv.get n).hi))
    let s1 := rasterRollColumn i.geo col (storePoint s.acq.cur (s.acq.rollCount % 500) i s)
    resetInterval { s1 with acq := { s1.acq with
      rollCount := s1.acq.rollCount + 1
      columnsLeft := if s1.acq.single then s1.acq.columnsLeft - 1 else s1.acq.columnsLeft } }

/-- R48: the P-th point has been written and READY is due. -/
def readyDue (s : State) : Bool :=
  decide (s.acq.state = .arming) && (match (curSeg s).info with | some i => decide (i.geo.pre ≤ s.acq.preCount) | none => false)

/-- R50: position L - 1 has been written. -/
def endDue (s : State) : Bool :=
  decide (s.acq.state = .capturing) &&
    (match (curSeg s).info with | some i => decide (i.geo.len ≤ i.geo.pre + s.acq.postCount) | none => false)

/-- R42: the tick of the last code taken. -/
def lastCodeTick (s : State) : Tick := if s.acq.nsPhase = 0 then s.acq.timeTag - 1 else s.acq.timeTag

/-- R48: PREFILL to READY, then a pending force. -/
def becomeReady (s : State) : State :=
  let s1 := setAcqState .waiting (setSeg s.acq.cur { curSeg s with state := .ready }
    { s with acq := { s.acq with readyTick := lastCodeTick s } })
  if s1.acq.forcePending then acceptTrigger .forced s1.acq.timeTag s1 else s1

/-- R55: the AUTO deadline. -/
def autoDeadline (s : State) : Tick := s.acq.readyTick + BitVec.ofNat 48 (s.setup.tauto * 125000)

/-- R55: the AUTO trigger is due: TAUTO × 125,000 ticks have passed since the READY tick (an interval below the wrap period
is measured rightly, R42). -/
def autoDue (s : State) : Bool :=
  decide (s.acq.state = .waiting) && decide (s.setup.tmode = .auto) &&
  decide (s.setup.tauto * 125000 ≤ (s.acq.timeTag - s.acq.readyTick).toNat)

/-- R61: a single roll has written its last column. -/
def columnsDone (s : State) : Bool :=
  decide (s.acq.state = .rolling) && s.acq.single && decide (s.acq.columnsLeft = 0)

/-- R38: HELD with the pin released. -/
def releaseDue (s : State) : Bool := decide (s.acq.state = .held) && s.raster.job.isNone

/-- R61: segment 0 becomes DONE PASS with the ring origin of R39, and ACQ enters STOPPED. DESIGN CHOICE (log 50): a column
interval that has all its codes and is not written yet is dropped. -/
def endRoll (s : State) : State :=
  match (curSeg s).info with
  | none => enterStopped s
  | some i =>
    let origin := if 500 ≤ s.acq.rollCount then s.acq.rollCount % 500 else 0
    let s1 := segRejectFollow .pass (makeDone 0 { i with
      geo := { i.geo with origin := origin }, trigKind := some .auto, outcome := some .pass } s)
    enterStopped (rasterLeaveRoll (some (0, (segAt s1 0).serial)) (discardPoints s1))

/-! ## Codes -/

/-- R52: the level code of a channel source. -/
def levelCode (u : Setup) (n : Chan) : Int := clampInt 1 254 (128 + roundHalfAway (u.tlevel * 25) (hwOf (u.range n)))

/-- What the detector sees of its source in one nanosecond: whether it sets the rising prime, sets the falling prime,
crosses upward with the rising prime set, crosses downward with the falling prime set (R53). -/
structure Seen where
  setsRise : Bool
  setsFall : Bool
  high : Bool
  low : Bool
  deriving DecidableEq, Repr

/-- R53: the comparisons of one nanosecond. -/
def seen (u : Setup) (code : PerChan Byte) (ext : Bool) : Seen :=
  match u.tsrc with
  | .chan n =>
    let c : Int := (code.get n).toNat
    let v := levelCode u n
    ⟨decide (c ≤ v - u.thyst), decide (v + u.thyst ≤ c), decide (v ≤ c), decide (c ≤ v)⟩
  | .ext => ⟨!ext, ext, ext, !ext⟩

/-- R53: whether TSLOPE takes a rising or a falling crossing as a candidate. -/
def candidate (sl : Slope) (rise fall : Bool) : Bool :=
  match sl with
  | .rise => rise | .fall => fall | .either => rise || fall

/-- R54: holdoff lets a candidate at a tick be accepted. -/
def holdoffPassed (s : State) (tick : Tick) : Bool :=
  match s.acq.lastTrig with
  | none => true
  | some t => decide (s.setup.holdoff * 125 ≤ (tick - t).toNat)

/-- R53, R54: the detector takes one nanosecond at a tick. -/
def detect (code : PerChan Byte) (ext : Bool) (tick : Tick) (s : State) : State :=
  match s.acq.state with
  | .arming | .waiting =>
    let x := seen s.setup code ext
    let rise := s.acq.risePrime && x.high
    let fall := s.acq.fallPrime && x.low
    let s1 := { s with acq := { s.acq with
        risePrime := (s.acq.risePrime && !x.high) || x.setsRise
        fallPrime := (s.acq.fallPrime && !x.low) || x.setsFall } }
    if decide (s.acq.state = .waiting) && candidate s.setup.tslope rise fall && holdoffPassed s tick then
      acceptTrigger .edge tick s1
    else s1
  | _ => s

/-- R32, R33: one code in the interval in progress of a channel; `n` codes were taken before it. -/
def IntervalChan.add (c : IntervalChan) (n : Nat) (code : Byte) (locked : Bool) : IntervalChan where
  first := if n = 0 then code else c.first
  lo := if code.toNat < c.lo.toNat then code else c.lo
  hi := if c.hi.toNat < code.toNat then code else c.hi
  ovr := c.ovr || decide (code = 0) || decide (code = 255)
  lockLow := c.lockLow || !locked

/-- R26: the code a lane passes on. -/
def passedCode (s : State) (x : Sample) (n : Chan) : Byte := if s.pins.lock.get n then x.code.get n else s.acq.held.get n

/-- The codes of one nanosecond join the interval in progress while a capture is in flight. -/
def accumulate (code : PerChan Byte) (s : State) : State :=
  if inFlight s then
    { s with acq := { s.acq with
        ivCount := s.acq.ivCount + 1
        iv := .ofFn (fun n => (s.acq.iv.get n).add s.acq.ivCount (code.get n) (s.pins.lock.get n)) } }
  else s

/-- R42: one nanosecond passes. -/
def advanceNs (s : State) : State :=
  if s.acq.nsPhase < 7 then { s with acq := { s.acq with nsPhase := s.acq.nsPhase + 1 } }
  else { s with acq := { s.acq with
      nsPhase := 0
      timeTag := s.acq.timeTag + 1
      wraps := if s.acq.timeTag + 1 = 0 then s.acq.wraps + 1 else s.acq.wraps } }

/-- R55: the AUTO deadline lies before this tick. -/
def autoOverdue (s : State) : Bool := autoDue s && decide (s.acq.timeTag ≠ autoDeadline s)

/-- Do a thing if it is due. -/
def whenDue (due : State → Bool) (f : State → State) (s : State) : State := if due s then f s else s

/-- The point or column write of a full interval. -/
def writeInterval (s : State) : State := if s.acq.state = .rolling then writeColumn s else writePoint s

/-- R55: the AUTO trigger at its deadline. -/
def fireAuto (s : State) : State := acceptTrigger .auto (autoDeadline s) s

/-- What comes before the next code is taken: the write of a full interval, READY, capture end, the end of a single roll, an
AUTO trigger that is overdue, an arm at a release (log 4). -/
def settle (s : State) : State :=
  whenDue releaseDue armHeld (whenDue autoOverdue fireAuto (whenDue columnsDone endRoll (whenDue endDue captureEnd
    (whenDue readyDue becomeReady (whenDue intervalFull writeInterval s)))))

/-- R25: ACQ takes the codes and EXT_TRIG of one nanosecond. -/
def takeCode (s0 : State) (x : Sample) : State :=
  let s := settle s0
  let code : PerChan Byte := .ofFn (passedCode s x)
  let tick := s.acq.timeTag
  let s1 := { s with
    pins := { s.pins with lanes := x }
    acq := { s.acq with held := .ofFn (fun n => if s.pins.lock.get n then x.code.get n else s.acq.held.get n) } }
  detect code x.ext tick (advanceNs (accumulate code s1))

/-- R34: the region of the capture in flight lies in the acquisition memory. -/
def captureExists (s : State) : Bool :=
  match (curSeg s).info with
  | some i => !(inFlight s) || regionExists (regionOf s.acq.cur i.geo)
  | none => true

/-- SEGMENT_READY (R48). -/
def execSegmentReady (s : State) : Host.Outcome State Fault Refusal :=
  live (fun s => whenDue readyDue becomeReady s) s

/-- AUTO_TRIGGER (R55). -/
def execAutoTrigger (s : State) : Host.Outcome State Fault Refusal :=
  live (fun s => whenDue autoDue fireAuto s) s

/-- CAPTURE_END (R50). -/
def execCaptureEnd (s : State) : Host.Outcome State Fault Refusal :=
  live (fun s => whenDue endDue captureEnd s) s

/-- COLUMNS_LEFT_ZERO (R61). -/
def execColumnsLeftZero (s : State) : Host.Outcome State Fault Refusal :=
  live (fun s => whenDue columnsDone endRoll s) s

/-- ARM_AT_RELEASE (R38). -/
def execArmAtRelease (s : State) : Host.Outcome State Fault Refusal :=
  live (fun s => whenDue releaseDue armHeld s) s

/-- DRAW_JOB_START (R106); an arm that a release lets take place comes first (R38, log 30). -/
def execDrawJobStart (s : State) : Host.Outcome State Fault Refusal :=
  live (fun s => takeHeadEntry (whenDue releaseDue armHeld s)) s

/-- LANE_CONDITION_CHANGE (R27): the lock line of a channel takes a level; MON follows the condition. -/
def execLaneConditionChange (n : Chan) (lock : Bool) (s : State) : Host.Outcome State Fault Refusal :=
  let s1 := { s with pins := { s.pins with lock := s.pins.lock.set n lock } }
  if s1.pins.resetLow then .next s1 else .next (laneFollow n s1)

/-! ## Stops, changes, power, restart -/

/-- R63: the segment in flight becomes FREE with serial 0; a roll is brought into window order (R113), without the column of
an interval that has all its codes and is not written yet (DESIGN CHOICE, log 50). -/
def abandon (s : State) : State :=
  let s1 := setSeg s.acq.cur (.free 0) (discardPoints { s with acq := { s.acq with forcePending := false } })
  if s.acq.state = .rolling then rasterLeaveRoll none s1 else s1

/-- R63: a change of ACQ class. -/
def acqChange (s : State) : State :=
  match s.acq.state with
  | .stopped => s
  | .held => launch s
  | .arming | .waiting | .capturing | .rolling => launch (abandon s)

/-- R53, R55: a change of TRIG class from an old record; a deadline it puts in the past fires AUTO at once. -/
def trigChange (old : Setup) (s : State) : State :=
  let u := s.setup
  let s1 := if old.tsrc ≠ u.tsrc ∨ old.tslope ≠ u.tslope then clearPrimes s else s
  if (old.tmode ≠ u.tmode ∨ old.tauto ≠ u.tauto) ∧ autoDue s1 then acceptTrigger .auto s1.acq.timeTag s1 else s1

/-- R62: STOP outside STANDBY. -/
def stopAcq (s : State) : State :=
  match s.acq.state with
  | .stopped => s
  | .arming | .waiting | .capturing => enterStopped (abandon s)
  | .held => enterStopped { s with acq := { s.acq with forcePending := false } }
  | .rolling => endRoll { s with acq := { s.acq with forcePending := false } }

/-- R57: RUN outside STANDBY. DESIGN CHOICE (log 50): a full column interval not written yet then lowers no columns left. -/
def runAcq (s : State) : State :=
  if s.acq.state = .stopped then startRun false s else { s with acq := { s.acq with single := false } }

/-- R59: SINGLE outside STANDBY. DESIGN CHOICE (log 50): a full column interval not written yet counts among the 500. -/
def singleAcq (s : State) : State :=
  match s.acq.state with
  | .stopped => startRun true s
  | .rolling => if s.acq.single then s else { s with acq := { s.acq with single := true, columnsLeft := 500 } }
  | .arming | .waiting | .capturing | .held => { s with acq := { s.acq with single := true } }

/-- R56: whether FORCE is answered OK. -/
def forceTaken (s : State) : Bool :=
  match s.acq.state with
  | .stopped | .rolling => false
  | .held | .arming | .waiting | .capturing => true

/-- R56: FORCE. -/
def forceAcq (s : State) : State :=
  match s.acq.state with
  | .held | .arming => { s with acq := { s.acq with forcePending := true } }
  | .waiting => acceptTrigger .forced s.acq.timeTag s
  | .stopped | .rolling | .capturing => s

/-- R40, R65, R67: end every WAVE.READ still reading with a status. -/
def endWaves (st : Status) (s : State) : State :=
  let s1 := s.acq.waves.foldl (fun acc w => answer 0x15 w.tag st [] acc) s
  { s1 with acq := { s1.acq with waves := [] } }

/-- R65: what ACQ reports to POWER on entry into STANDBY. -/
def isRunning (s : State) : Bool := decide (s.acq.state ≠ .stopped) && !s.acq.single

/-- R65: ACQ on entry into STANDBY. That an ACQ already STOPPED enters the ACQ note too is DESIGN CHOICE (log 19). -/
def acqStandby (s : State) : State :=
  let s1 := endWaves .wrongState s
  let s2 := if inFlight s1 then abandon s1 else s1
  let s3 := enterStopped { s2 with acq := { s2.acq with forcePending := false } }
  { s3 with acq := { s3.acq with selfRefresh := true } }

/-- R41, R65, R68, R193: ACQ at the move from STANDBY to ON. R41 and R193 end self-refresh before the first access; that it
ends at the move itself, an access due or not, is DESIGN CHOICE (log 51). -/
def acqWake (runAtWake : Bool) (s : State) : State :=
  let s1 := { s with acq := { s.acq with selfRefresh := false } }
  if runAtWake then enterNote .acq (startRun false s1) else s1

/-- R69: ACQ at RESTART: its waves end STALE, then STOPPED, every segment FREE with serial 0, and the run record reset but
for the serial counter. -/
def acqRestart (s : State) : State :=
  let s1 := endWaves .stale s
  { s1 with acq := { Acq.cold with
      timeTag := s1.acq.timeTag
      wraps := s1.acq.wraps
      nsPhase := s1.acq.nsPhase
      held := s1.acq.held
      serialCounter := s1.acq.serialCounter
      selfRefresh := s1.acq.selfRefresh
      mem := s1.acq.mem
      memEpoch := s1.acq.memEpoch
      fresh := s1.acq.fresh } }

/-! ## Orders -/

/-- RUN (R57). -/
def execRun (tag : Byte) (body : List Byte) (s : State) : Host.Outcome State Fault Refusal :=
  order 0x10 (lenIs 0) tag body (fun s =>
    if s.power.state = .standby then answer 0x10 tag .wrongState [] s else answer 0x10 tag .ok [] (runAcq s)) s

/-- STOP (R62). -/
def execStop (tag : Byte) (body : List Byte) (s : State) : Host.Outcome State Fault Refusal :=
  order 0x11 (lenIs 0) tag body (fun s =>
    if s.power.state = .standby then answer 0x11 tag .wrongState [] s else answer 0x11 tag .ok [] (stopAcq s)) s

/-- SINGLE (R59). -/
def execSingle (tag : Byte) (body : List Byte) (s : State) : Host.Outcome State Fault Refusal :=
  order 0x12 (lenIs 0) tag body (fun s =>
    if s.power.state = .standby then answer 0x12 tag .wrongState [] s else answer 0x12 tag .ok [] (singleAcq s)) s

/-- FORCE (R56). -/
def execForce (tag : Byte) (body : List Byte) (s : State) : Host.Outcome State Fault Refusal :=
  order 0x13 (lenIs 0) tag body (fun s =>
    if s.power.state = .standby ∨ forceTaken s = false then answer 0x13 tag .wrongState [] s
    else answer 0x13 tag .ok [] (forceAcq s)) s

/-- R216: the code of a segment state. -/
def SegState.code : SegState → Byte
  | .free => 0 | .prefill => 1 | .ready => 2 | .filling => 3 | .done => 4

/-- R216. -/
def SegOutcome.code : SegOutcome → Byte
  | .pass => 0 | .rejected => 1

/-- R216. -/
def TrigKind.code : TrigKind → Byte
  | .edge => 0 | .auto => 1 | .forced => 2

/-- R216: the presence bits of a record that is not FREE; bit 16 stands with the measurements, of a record with no enabled
channel too (log 40). -/
def SegInfo.presence (i : SegInfo) : Byte :=
  BitVec.ofNat 8 (1 + 2 * i.trigKind.isSome.toNat + 4 * i.trigTag.isSome.toNat + 8 * i.outcome.isSome.toNat +
    16 * i.meas.isSome.toNat)

/-- R216: the code of a thing that may be absent, 0 when it is. -/
def codeOr {α : Type} (f : α → Byte) : Option α → Byte
  | some x => f x
  | none => 0

/-- R216: the flag set of a channel, 0 outside the enabled set. -/
def SegInfo.flagByte (i : SegInfo) (n : Chan) : Byte := if i.geo.enabled.get n then (i.flags.get n).toByte else 0

/-- R216: the measurements of a channel, 0 outside the enabled set or when absent. -/
def SegInfo.measBytes (i : SegInfo) (n : Chan) : List Byte :=
  match i.meas with
  | some m => if i.geo.enabled.get n then [(m.get n).min, (m.get n).max] ++ be 2 (m.get n).mean16 else [0, 0, 0, 0]
  | none => [0, 0, 0, 0]

/-- R216: the items of a record from offset 9 on. -/
def infoItems (i : SegInfo) : List Byte :=
  let g := i.geo
  be 4 i.generation.toNat ++ be 1 g.depthIdx ++ be 4 g.interval ++ be 4 g.len ++ be 4 g.pre ++ be 4 g.size ++
  be 4 (if i.trigKind.isSome then g.origin else 0) ++ beInt 1 g.mode.code ++ [g.enabled.setByte] ++
  be 1 g.range.c1 ++ be 1 g.range.c2 ++ be 1 g.range.c3 ++ be 1 g.range.c4 ++ be 6 i.armTag.toNat ++
  be 6 ((i.trigTag.getD 0).toNat) ++ [codeOr TrigKind.code i.trigKind] ++ be 1 i.attempts ++
  [i.flagByte .ch1, i.flagByte .ch2, i.flagByte .ch3, i.flagByte .ch4] ++
  i.measBytes .ch1 ++ i.measBytes .ch2 ++ i.measBytes .ch3 ++ i.measBytes .ch4

/-- R66, R216: the items of a SEG.READ answer after the status. -/
def segItems (k : Nat) (r : SegRecord) : List Byte :=
  be 1 k ++ [r.state.code] ++ be 4 r.serial.toNat ++
  (match r.info with
   | some i => [i.presence, codeOr SegOutcome.code i.outcome] ++ infoItems i
   | none => List.replicate 67 0)

/-- SEG.READ (R66). -/
def execSegRead (tag : Byte) (body : List Byte) (s : State) : Host.Outcome State Fault Refusal :=
  order 0x14 (lenIs 1) tag body (fun s =>
    answer 0x14 tag .ok (segItems (byteAt body 0).toNat (segAt s (byteAt body 0).toNat)) s) s

/-- R67: the number of points a WAVE.READ gets. -/
def waveCount (g : Geometry) (first count : Nat) : Nat :=
  let most := match g.mode with | .sample => 1000 | .peak => 500
  Nat.min (Nat.min (Nat.max 1 count) most) (g.len - first)

/-- R67: the read a WAVE.READ order asks for, or the status that refuses it. -/
def waveChecks (s : State) (tag : Byte) (body : List Byte) : Except Status WaveRead :=
  let k := (byteAt body 0).toNat
  let ser := BitVec.ofNat 32 (natAt body 1 4)
  let first := natAt body 6 4
  let count := natAt body 10 2
  if s.power.state = .standby then .error .wrongState
  else match (segAt s k).info with
    | none => .error .wrongState
    | some i =>
      if (segAt s k).state ≠ .done then .error .wrongState
      else if (segAt s k).serial ≠ ser then .error .stale
      else match Chan.ofNum? (byteAt body 5).toNat with
        | none => .error .badValue
        | some n =>
          if !i.geo.enabled.get n ∨ i.geo.len ≤ first then .error .badValue
          else
            let c := waveCount i.geo first count
            .ok ⟨tag, k, ser, n, first, c, decide (c ≠ count)⟩

/-- WAVE.READ (R67): the reads begin, and the place for the answer stays kept. -/
def execWaveRead (tag : Byte) (body : List Byte) (s : State) : Host.Outcome State Fault Refusal :=
  order 0x15 (lenIs 12) tag body (fun s =>
    match waveChecks s tag body with
    | .ok w => { s with acq := { s.acq with waves := s.acq.waves ++ [w] } }
    | .error st => answer 0x15 tag st [] s) s

/-- R67, R216: the items of a WAVE.READ answer. -/
def waveItems (s : State) (g : Geometry) (w : WaveRead) : List Byte :=
  be 1 w.seg ++ be 4 w.serial.toNat ++ be 1 w.chan.num ++ be 4 w.first ++ be 2 w.count ++
  (List.range w.count).flatMap (fun i => pointBytesAt s g w.seg (w.first + i) w.chan)

/-- R67: the status of a WAVE.READ whose record did not change. -/
def WaveRead.status (w : WaveRead) : Status := if w.clamped then .clamped else .ok

/-- WAVE_READ_DONE (R67): the oldest WAVE.READ has read its last byte and meets the closing check of R40. -/
def execWaveReadDone (s : State) : Host.Outcome State Fault Refusal :=
  if s.pins.resetLow then .next s
  else
    match s.acq.waves with
    | [] => .next s
    | w :: rest =>
      let s1 := { s with acq := { s.acq with waves := rest } }
      match (segAt s w.seg).info with
      | some i =>
        if doneWith s w.seg w.serial then
          if regionExists (regionOf w.seg i.geo) then .next (answer 0x15 w.tag w.status (waveItems s i.geo w) s1)
          else .fault .noSuchMemory
        else .next (answer 0x15 w.tag .stale [] s1)
      | none => .next (answer 0x15 w.tag .stale [] s1)

/-- R216: the acquisition state word. -/
def stateWord (s : State) : Byte :=
  match s.acq.state with
  | .stopped => 0
  | .arming => 1
  | .waiting => match s.setup.tmode with | .normal => 2 | .auto => 3
  | .capturing => 4
  | .held => 5
  | .rolling => 6

/-- R217: presence, index and serial of last DONE or of the view segment. -/
def indexSerial (x : Option (Nat × Serial)) : List Byte :=
  match x with
  | some (k, ser) => 1 :: be 1 k ++ be 4 ser.toNat
  | none => [0, 0, 0, 0, 0, 0]

/-- R68, R217: the body of the ACQ note. -/
def acqNote (s : State) : List Byte := stateWord s :: indexSerial s.acq.lastDone ++ be 4 s.acq.countDone.toNat

end Sys2Proof.Machine
end

