-- ==== Sys2Proof/Machine/Live.lean ====
section
/-! DEFINITION. SETUP: the classes of a change, its application (R11 to R16), and the setup orders (chapter 1). -/

namespace Sys2Proof.Machine

/-! ## Classes -/

/-- R1, R14: whether a change alters an ACQ-class field of a channel, a SCALE change across a range included. -/
def acqChanChange (a b : ChanSetup) : Bool :=
  decide (a.on ≠ b.on) || decide (a.coupling ≠ b.coupling) || decide (a.bwlimit ≠ b.bwlimit) ||
  decide (rangeOf a.scale ≠ rangeOf b.scale)

/-- R2, R13: the change carries ACQ. -/
def carriesAcq (a b : Setup) : Bool :=
  Chan.all.any (fun n => acqChanChange (a.ch.get n) (b.ch.get n)) || decide (a.tbase ≠ b.tbase) || decide (a.depth ≠ b.depth) ||
  decide (a.pretrig ≠ b.pretrig) || decide (a.acqmode ≠ b.acqmode) || decide (a.runmode ≠ b.runmode) ||
  decide (a.segcount ≠ b.segcount) || decide (a.roll ≠ b.roll)

/-- R2, R13: the change carries TRIG. -/
def carriesTrig (a b : Setup) : Bool :=
  decide (a.tsrc ≠ b.tsrc) || decide (a.tslope ≠ b.tslope) || decide (a.tlevel ≠ b.tlevel) || decide (a.thyst ≠ b.thyst) ||
  decide (a.tmode ≠ b.tmode) || decide (a.tauto ≠ b.tauto) || decide (a.holdoff ≠ b.holdoff)

/-- R1, R3, R13: the channels a MAP-class change affects. -/
def mapChannels (a b : Setup) : PerChan Bool :=
  let every := decide (a.persist ≠ b.persist) || decide (a.style ≠ b.style)
  .ofFn (fun n => every || decide ((a.ch.get n).scale ≠ (b.ch.get n).scale) || decide ((a.ch.get n).pos ≠ (b.ch.get n).pos))

/-- R15: the change refreshes the annotation. -/
def refreshesAnnotation (a b : Setup) : Bool :=
  Chan.all.any (fun n => decide ((a.ch.get n).on ≠ (b.ch.get n).on) || decide ((a.ch.get n).scale ≠ (b.ch.get n).scale)) ||
  decide (a.tbase ≠ b.tbase) || decide (a.tsrc ≠ b.tsrc) || decide (a.tslope ≠ b.tslope) || decide (a.tlevel ≠ b.tlevel) ||
  decide (a.tmode ≠ b.tmode) || decide (a.runmode ≠ b.runmode) || decide (a.roll ≠ b.roll)

/-! ## The application of a change -/

/-- R27: MON is told of the LANE conditions of the channels whose ON changed. -/
def laneAfterChange (a b : Setup) (s : State) : State :=
  Chan.all.foldl (fun acc n => if (a.ch.get n).on ≠ (b.ch.get n).on then laneFollow n acc else acc) s

/-- R13: ACQ takes a change of ACQ class. -/
def tellAcq (a b : Setup) (s : State) : State := if carriesAcq a b then acqChange s else s

/-- R13: ACQ takes a change of TRIG class. -/
def tellTrig (a b : Setup) (s : State) : State := if carriesTrig a b then trigChange a s else s

/-- R13: RASTER takes a change of MAP class. -/
def tellMap (a b : Setup) (s : State) : State := if (mapChannels a b).nonempty then mapChange (mapChannels a b) s else s

/-- R15: COMPOSE refreshes the annotation. -/
def tellAnnotation (a b : Setup) (s : State) : State := if refreshesAnnotation a b then rebuildAnnotation s else s

/-- R11, R13: the blocks of the classes are told of a stored change (the order among them, log 10). -/
def tellBlocks (a b : Setup) (s : State) : State :=
  tellAnnotation a b (tellMap a b (tellTrig a b (tellAcq a b (laneAfterChange a b s))))

/-- R11, steps 3 to 5: the record takes its resulting values. A record that no field alters tells no block. -/
def adopt (u : Setup) (s : State) : State :=
  if u = s.setup then s else tellBlocks s.setup u { s with setup := u, gen := s.gen + 1 }

/-! ## Orders -/

/-- R213, R214: what a FIELD.SET body offers for a field: none when its length or its presence byte does not fit the field. -/
def offeredValue (f : Field) (body : List Byte) : Option FieldValue :=
  match f.kind with
  | .text => if body.length = 19 then some (.text (body.drop 3)) else none
  | .limit =>
    if body.length = 7 then
      (match (byteAt body 2).toNat with
       | 0 => some (.limit none)
       | 1 => some (.limit (some (intAt body 3 4)))
       | _ => none)
    else none
  | .numeric _ _ | .coded _ => if body.length = 7 then some (.number (intAt body 3 4)) else none

/-- R215: presence and value of a FIELD answer. The presence of a field that is no limit field is 1 (log 24). -/
def valueItems : FieldValue → List Byte
  | .number v => 1 :: beInt 4 v
  | .limit (some v) => 1 :: beInt 4 v
  | .limit none => [0, 0, 0, 0, 0]
  | .text cs => 1 :: cs

/-- R214, R215: presence and value of a FIELD answer that refuses: 0, 16 bytes for the id of NAME. -/
def refusedItems (id : Nat) : List Byte := List.replicate (if id = 0x21 then 17 else 5) 0

/-- R215: the items of a FIELD answer. -/
def fieldItems (id : Nat) (items : List Byte) (s : State) : List Byte := be 2 id ++ items ++ be 4 s.gen.toNat

/-- The id a FIELD order names. -/
def bodyId (body : List Byte) : Nat := natAt body 0 2

/-- R17: an accepted FIELD.SET of a value. -/
def fieldStore (tag : Byte) (id : Nat) (f : Field) (v : FieldValue) (clamped : Bool) (s : State) : State :=
  let s' := adopt (s.setup.put f v) s
  answer 0x08 tag (if clamped then .clamped else .ok) (fieldItems id (valueItems v) s') s'

/-- FIELD.SET (R17, R214). -/
def execFieldSet (tag : Byte) (body : List Byte) (s : State) : Host.Outcome State Fault Refusal :=
  order 0x08 (fun n => n == 7 || n == 19) tag body (fun s =>
    let id := bodyId body
    let refuse := fun (st : Status) => answer 0x08 tag st (fieldItems id (refusedItems id) s) s
    match fieldOfId id with
    | none => refuse .badField
    | some f =>
      match offeredValue f body with
      | none => refuse .badValue
      | some x =>
        match acceptValue f x with
        | none => refuse .badValue
        | some (v, clamped) => fieldStore tag id f v clamped s) s

/-- R9, R218: the derived value of an id. -/
def derivedValue (s : State) (id : Nat) : Option Nat :=
  match Chan.ofNum? (id / 256) with
  | some n => if id % 256 = 0x80 then some (s.setup.range n) else if id % 256 = 0x81 then some (derivedK s n) else none
  | none =>
    if id = 0x80 then some s.setup.geometry.interval
    else if id = 0x81 then some s.setup.geometry.len
    else if id = 0x82 then some s.setup.geometry.nEff
    else none

/-- FIELD.GET (R18). -/
def execFieldGet (tag : Byte) (body : List Byte) (s : State) : Host.Outcome State Fault Refusal :=
  order 0x09 (lenIs 2) tag body (fun s =>
    let id := bodyId body
    match fieldOfId id, derivedValue s id with
    | some f, _ => answer 0x09 tag .ok (fieldItems id (valueItems (s.setup.get f)) s) s
    | none, some v => answer 0x09 tag .ok (fieldItems id (valueItems (.number v)) s) s
    | none, none => answer 0x09 tag .badField (fieldItems id (refusedItems id) s) s) s

/-- SETUP.READ (R19). -/
def execSetupRead (tag : Byte) (body : List Byte) (s : State) : Host.Outcome State Fault Refusal :=
  order 0x0A (lenIs 0) tag body (fun s => answer 0x0A tag .ok (be 4 s.gen.toNat ++ imageOf s.setup) s) s

/-- R20, R215: the items of a SETUP.WRITE answer. -/
def writeItems (clamps id : Nat) (s : State) : List Byte := be 1 clamps ++ be 4 s.gen.toNat ++ be 2 id

/-- SETUP.WRITE (R20). -/
def execSetupWrite (tag : Byte) (body : List Byte) (s : State) : Host.Outcome State Fault Refusal :=
  order 0x0B (lenIs 512) tag body (fun s =>
    match readImage body with
    | .ok (u, clamps) =>
      let s' := adopt u s
      answer 0x0B tag (if clamps = 0 then .ok else .clamped) (writeItems clamps 0 s') s'
    | .error id => answer 0x0B tag .badValue (writeItems 0 id s) s) s

/-- SETUP.DEFAULT (R21). -/
def execSetupDefault (tag : Byte) (body : List Byte) (s : State) : Host.Outcome State Fault Refusal :=
  order 0x0C (lenIs 0) tag body (fun s =>
    let s' := adopt .default s
    answer 0x0C tag .ok (be 4 s'.gen.toNat) s') s

end Sys2Proof.Machine
end

