-- ==== Sys2Proof/Machine/Store.lean ====
section
/-! DEFINITION. STORE: slots, the directory, flash steps, the scan, jobs, the store bus and the store orders (chapter 8). -/

namespace Sys2Proof.Machine

/-! ## Slots and headers -/

/-- R219: the marker. -/
def slotMarker : List Byte := [0x4D, 0x47, 0x53, 0x55]

/-- The sum of some bytes. -/
def sumBytes (bs : List Byte) : Nat := bs.foldl (fun acc b => acc + b.toNat) 0

/-- R165, R219: the check over a header's bytes 0..5 and 7..28 and the body. -/
def slotCheck (header body : List Byte) : Nat := (sumBytes (header.take 6) + sumBytes (slice header 7 22) + sumBytes body) % 65536

/-- R166: the classification of slot k from its header page and its body. -/
def classifySlot (k : Nat) (header body : List Byte) : DirEntry :=
  if header.take 4 ≠ slotMarker then .empty
  else if byteAt header 4 ≠ 0x01 ∨ (byteAt header 5).toNat ≠ k ∨ natAt header 27 2 ≠ 512 then .corrupt
  else if slotCheck header body ≠ natAt header 29 2 then .corrupt
  else .valid (byteAt header 6 != 0xFF) (BitVec.ofNat 32 (natAt header 7 4)) (slice header 11 16)

/-- R165: the 29 header bytes before the check. -/
def headerFields (k : Nat) (seq : Count) (name : List Byte) : List Byte :=
  slotMarker ++ [0x01] ++ be 1 k ++ [0xFF] ++ be 4 seq.toNat ++ name ++ be 2 512

/-- R164, R175, R219: page 0 of a save. -/
def headerPage (k : Nat) (seq : Count) (name image : List Byte) : List Byte :=
  let h := headerFields k seq name
  h ++ be 2 (slotCheck h image) ++ List.replicate 225 0xFF

/-- R178: page 0 of a PROTECT(off): the header it read with protect 0xFF, the rest of the page 0xFF (R164). -/
def unprotectedPage (header : List Byte) : List Byte :=
  header.take 6 ++ [0xFF] ++ slice header 7 24 ++ List.replicate 225 0xFF

/-- R178: the page of a PROTECT(on): every byte 0xFF except the protect byte. -/
def protectPage : List Byte := List.replicate 6 0xFF ++ [0x00] ++ List.replicate 249 0xFF

/-- R164: what a program step leaves in a byte of the flash. -/
def programmedByte (old new : Byte) : Byte := old &&& new

/-! ## The directory -/

/-- R168: the entry of a slot. -/
def dirAt (s : State) (k : Nat) : DirEntry := tabGet .unknown s.store.dir k

/-- R168: set the entry of a slot. -/
def setDir (k : Nat) (e : DirEntry) (s : State) : State :=
  { s with store := { s.store with dir := tabSet .unknown s.store.dir k e } }

/-- R168: the sequences of the VALID entries of the directory. -/
def validSequences (s : State) : List Nat :=
  (List.range 32).filterMap (fun k => match dirAt s k with | .valid _ q _ => some q.toNat | _ => none)

/-- R175: the sequence of the next save: one more, modulo 2^32, than the highest of a VALID entry; 1 with none. -/
def nextSequence (s : State) : Count :=
  match validSequences s with
  | [] => 1
  | q :: qs => BitVec.ofNat 32 (qs.foldl Nat.max q + 1)

/-- R173: the entry is VALID and protected. -/
def DirEntry.isProtected : DirEntry → Bool
  | .valid p _ _ => p
  | _ => false

/-! ## Steps -/

/-- R167: the time limit of a step in ticks of 8 ns. -/
def stepLimit : StepKind → Nat
  | .readPage => 125000
  | .programPage _ => 625000
  | .eraseSector => 50000000

/-- R164: the address of page p of slot k. -/
def pageAddr (k p : Nat) : Nat := k * 4096 + p * 256

/-- R175 to R179: the step of a job's phase. -/
def phaseStep (s : State) (j : StoreJob) (p : JobPhase) : StepKind × Nat :=
  let body := fun (bs : List Byte) (page : Nat) => (StepKind.programPage (slice bs (256 * (page - 1)) 256), pageAddr j.slot page)
  match p with
  | .classify _ pages => (.readPage, pageAddr j.slot pages.length)
  | .saveErase | .eraseSector | .offErase _ _ => (.eraseSector, pageAddr j.slot 0)
  | .saveBody1 => match j.kind with | .save image _ => body image 1 | _ => body [] 1
  | .saveBody2 => match j.kind with | .save image _ => body image 2 | _ => body [] 2
  | .saveHeader =>
    match j.kind with
    | .save image name => (.programPage (headerPage j.slot (nextSequence s) name image), pageAddr j.slot 0)
    | _ => (.programPage [], pageAddr j.slot 0)
  | .protectOn => (.programPage protectPage, pageAddr j.slot 0)
  | .offBody1 _ b => body b 1
  | .offBody2 _ b => body b 2
  | .offHeader h _ => (.programPage (unprotectedPage h), pageAddr j.slot 0)

/-- The step the running job or the scan takes next. -/
def nextStep (s : State) : Option (StepKind × Nat) :=
  match s.store.running, s.store.queue, s.store.scan with
  | some r, j :: _, _ => some (phaseStep s j r.phase)
  | _, _, some sc => some (.readPage, pageAddr sc.slot sc.pages.length)
  | _, _, none => none

/-- R172, R181: with the bus OWNED and no step in flight, the next step starts. -/
def startStep (s : State) : State :=
  if s.store.bus = .owned ∧ s.store.step.isNone then
    match nextStep s with
    | some (kind, addr) => { s with store := { s.store with step := some ⟨kind, addr, s.acq.timeTag⟩ } }
    | none => s
  else s

/-! ## Ends of jobs and of the scan -/

/-- R183: the kind of a job's record. -/
def JobKind.record : JobKind → RecordKind
  | .save _ _ => .save | .recall => .recall | .erase => .erase
  | .protect true => .protectOn | .protect false => .protectOff

/-- R172: the head job ends with a result. -/
def endJob (r : JobResult) (s : State) : State :=
  match s.store.queue with
  | [] => s
  | j :: rest =>
    let s1 := enterNote .store { s with store := { s.store with
        queue := rest, running := none, last := some ⟨some j.slot, j.kind.record, r⟩ } }
    if r = .done then monEnd (flagBit flagStoreFault) s1 else s1

/-- The running job goes on with a phase. -/
def setPhase (p : JobPhase) (s : State) : State :=
  { s with store := { s.store with running := s.store.running.map (fun r => { r with phase := p }) } }

/-- The running job has completed an erase or a program step. -/
def setAltered (s : State) : State :=
  { s with store := { s.store with running := s.store.running.map (fun r => { r with altered := true }) } }

/-- R186: an abandoned job ends, after a closing refresh when it has altered the flash. -/
def finishAbandoned (r : Running) (s : State) : State :=
  if r.altered then setPhase (.classify (.refresh .abandoned) []) s else endJob .abandoned s

/-- R175, R177, R178: what a start check decides for a job and its slot's entry: its end or its first phase. -/
def startDecision (j : StoreJob) (e : DirEntry) : Except JobResult JobPhase :=
  match j.kind with
  | .save _ _ => if e = .unknown then .ok (.classify .startCheck []) else if e.isProtected then .error .prot else .ok .saveErase
  | .recall => .ok (.classify .recall [])
  | .erase => if e = .unknown then .ok (.classify .startCheck []) else if e.isProtected then .error .prot else .ok .eraseSector
  | .protect on =>
    match e with
    | .unknown => .ok (.classify .startCheck [])
    | .empty => .error .empty
    | .corrupt => .error .corrupt
    | .valid p _ _ =>
      if on then (if p then .error .done else .ok .protectOn)
      else if p then .ok (.classify .protectOff []) else .error .done

/-- A start check acts: the job ends or goes on. -/
def applyDecision (d : Except JobResult JobPhase) (s : State) : State :=
  match d with
  | .ok p => setPhase p s
  | .error r => endJob r s

/-- R171: the scan ends; a VALID slot 0 queues RECALL(0) at the head. -/
def endScan (failed : Bool) (s : State) : State :=
  let s1 := enterNote .store { s with store := { s.store with
      scan := none, last := some ⟨none, .scan, if failed then .failed else .done⟩ } }
  match dirAt s1 0 with
  | .valid _ _ _ => { s1 with store := { s1.store with queue := ⟨.recall, 0⟩ :: s1.store.queue } }
  | _ => s1

/-- R170: the scan moves on from a slot. -/
def scanOn (sc : Scan) (failed : Bool) (s : State) : State :=
  if sc.slot < 31 then { s with store := { s.store with scan := some ⟨sc.slot + 1, [], failed⟩ } } else endScan failed s

/-! ## The bus -/

/-- R181: work is waiting: the bus is LENT and a job is in the queue or the scan has not ended. -/
def workWaiting (s : State) : Bool :=
  decide (s.store.bus = .lent) && (!s.store.queue.isEmpty || s.store.scan.isSome)

/-- R183: the STORE note when work is waiting. -/
def noteWanted (s : State) : State := if workWaiting s then enterNote .store s else s

/-- R180: the step in flight has ended in LENDING: the bus becomes LENT and the withheld answer is entered. -/
def lendIfAsked (s : State) : State :=
  if s.store.bus = .lending then
    let s1 := { s with store := { s.store with bus := .lent, withheld := none } }
    let s2 := match s.store.withheld with
      | some tag => answer 0x3B tag .ok [] s1
      | none => s1
    noteWanted s2
  else s

/-! ## Jobs that join the queue, and the standby autosave -/

/-- R173, R181: a job joins the tail of the queue. -/
def enqueueJob (j : StoreJob) (s : State) : State :=
  let s1 := { s with store := { s.store with queue := s.store.queue ++ [j] } }
  if s1.store.bus = .lent then enterNote .store s1 else s1

/-- R175: a save of the live setup as it stands, with a name. -/
def saveJob (s : State) (slot : Nat) (name : List Byte) : StoreJob :=
  ⟨.save (imageOf { s.setup with name := name }) name, slot⟩

/-- R170, R185: a standby autosave with its snapshot acts: it is skipped, or its job joins the queue. `scanning` says whether
the scan ran when STORE was told of the move. -/
def autosaveActs (scanning : Bool) (s : State) (j : StoreJob) : State :=
  if scanning || (dirAt s 0).isProtected || decide (4 ≤ s.store.queue.length) then
    enterNote .store { s with store := { s.store with last := some ⟨some 0, .save, .skipped⟩ } }
  else enqueueJob j s

/-- R185, R192: the standby autosave. Its snapshot is of the moment STORE is told; during a flash step it acts when the step has
ended (R167). -/
def autosave (s : State) : State :=
  let j := saveJob s 0 s.setup.name
  if s.store.step.isSome then { s with store := { s.store with autosaves := s.store.autosaves ++ [j] } }
  else autosaveActs s.store.scan.isSome s j

/-- R167: a step ends with an effect; then what waited for its end acts: a lending, and the power moves in their order (log 44).
On a bus that stays OWNED the next step starts. The scan runs before the effect just when it ran at each move that waited, since
cold reset alone starts it (R170); so a move during its last step is skipped. -/
def endStep (effect : State → State) (s : State) : State :=
  s.store.autosaves.foldl (autosaveActs s.store.scan.isSome)
    (startStep (lendIfAsked (effect { s with store := { s.store with step := none, autosaves := [] } })))

/-! ## The effects of a step's end -/

/-- R169, R176, R178, R179: the classification of a job's slot is complete. -/
def classified (j : StoreJob) (r : Running) (why : ClassifyFor) (header body : List Byte) (s : State) : State :=
  let e := classifySlot j.slot header body
  let s1 := setDir j.slot e s
  match why with
  | .refresh res => endJob res s1
  | .startCheck => if r.abandoned then finishAbandoned r s1 else applyDecision (startDecision j e) s1
  | .recall =>
    if r.abandoned then finishAbandoned r s1
    else match e with
      | .valid _ _ _ =>
        (match readImage body with
         | .ok (u, _) => endJob .done (adopt u s1)
         | .error _ => endJob .corrupt s1)
      | .corrupt => endJob .corrupt s1
      | .empty | .unknown => endJob .empty s1
  | .protectOff =>
    if r.abandoned then finishAbandoned r s1
    else match e with
      | .valid _ _ _ => setPhase (.offErase header body) s1
      | .corrupt => endJob .corrupt s1
      | .empty | .unknown => endJob .empty s1

/-- Whether a classification is a closing refresh, which a RESTART lets finish (R186). -/
def ClassifyFor.isRefresh : ClassifyFor → Bool
  | .refresh _ => true
  | _ => false

/-- R169: a read step of a job has ended in time. -/
def jobRead (j : StoreJob) (r : Running) (page : List Byte) (s : State) : State :=
  match r.phase with
  | .classify why pages =>
    (match pages with
     | [h, b] => classified j r why h (b ++ page) s
     | _ => if r.abandoned && !why.isRefresh then finishAbandoned r s else setPhase (.classify why (pages ++ [page])) s)
  | _ => s

/-- R170: a read step of the scan has ended in time. -/
def scanRead (sc : Scan) (page : List Byte) (s : State) : State :=
  match sc.pages with
  | [h, b] => scanOn sc sc.failed (setDir sc.slot (classifySlot sc.slot h (b ++ page)) s)
  | _ => { s with store := { s.store with scan := some { sc with pages := sc.pages ++ [page] } } }

/-- R169, R170: a read step has ended in time. -/
def readDone (page : List Byte) (s : State) : State :=
  match s.store.running, s.store.queue, s.store.scan with
  | some r, j :: _, _ => jobRead j r page s
  | _, _, some sc => scanRead sc page s
  | _, _, none => s

/-- R175, R178: a program step of a job, with the data it programmed, has ended in time. -/
def jobProgrammed (j : StoreJob) (p : JobPhase) (data : List Byte) (s : State) : State :=
  match p with
  | .saveBody1 => setPhase .saveBody2 s
  | .saveBody2 => setPhase .saveHeader s
  | .saveHeader => endJob .done (setDir j.slot (.valid false (BitVec.ofNat 32 (natAt data 7 4)) (slice data 11 16)) s)
  | .protectOn =>
    match dirAt s j.slot with
    | .valid _ q n => endJob .done (setDir j.slot (.valid true q n) s)
    | _ => endJob .done s
  | .offBody1 h b => setPhase (.offBody2 h b) s
  | .offBody2 h b => setPhase (.offHeader h b) s
  | .offHeader h _ => endJob .done (setDir j.slot (.valid false (BitVec.ofNat 32 (natAt h 7 4)) (slice h 11 16)) s)
  | .classify _ _ | .saveErase | .eraseSector | .offErase _ _ => s

/-- R175, R177, R178: the erase step of a job has ended in time. -/
def jobErased (j : StoreJob) (p : JobPhase) (s : State) : State :=
  match p with
  | .saveErase => setPhase .saveBody1 s
  | .eraseSector => endJob .done (setDir j.slot .empty s)
  | .offErase h b => setPhase (.offBody1 h b) s
  | _ => s

/-- A program or erase step of the running job has ended in time; an abandoned job ends (R186). -/
def alteredThen (f : StoreJob → JobPhase → State → State) (s : State) : State :=
  match s.store.running, s.store.queue with
  | some r, j :: _ =>
    let s1 := setAltered s
    if r.abandoned then finishAbandoned { r with altered := true } s1 else f j r.phase s1
  | _, _ => s

/-- R179, R186: a step of a job has timed out. -/
def jobTimeout (j : StoreJob) (r : Running) (s : State) : State :=
  match r.phase with
  | .classify .recall _ => endJob .failed (setDir j.slot .unknown s)
  | .classify (.refresh _) _ => endJob .failed (setDir j.slot .unknown s)
  | .classify .startCheck _ | .classify .protectOff _ =>
    setPhase (.classify (.refresh .failed) []) (setDir j.slot .unknown s)
  | _ => setPhase (.classify (.refresh .failed) []) s

/-- R167, R170, R179: a step has timed out. -/
def stepTimeout (s : State) : State :=
  let s1 := monOccur (flagBit flagStoreFault) s
  match s1.store.running, s1.store.queue, s1.store.scan with
  | some r, j :: _, _ => jobTimeout j r s1
  | _, _, some sc => scanOn sc true (setDir sc.slot .unknown s1)
  | _, _, none => s1

/-- R167: how long the step in flight has run, in ticks. -/
def stepAge (s : State) (st : FlashStep) : Nat := (s.acq.timeTag - st.start).toNat

/-- R167: the step in flight can still end in time. At the very tick at which its limit runs out it may still end, and it may time
out (`timedOut`): the spec leaves that tick open, and whichever row comes first acts (log 47). -/
def inTime (s : State) (st : FlashStep) : Bool := decide (stepAge s st ≤ stepLimit st.kind)

/-- R167: the step in flight has reached its limit; at that very tick it may end in time as well (`inTime`, log 47). -/
def timedOut (s : State) : Bool :=
  match s.store.step with
  | some st => decide (stepLimit st.kind ≤ stepAge s st)
  | none => false

/-- FLASH_READ_PAGE_END (R167). -/
def execFlashReadPageEnd (page : Vector Byte 256) (s : State) : Host.Outcome State Fault Refusal :=
  live (fun s =>
    match s.store.step with
    | some st => if st.kind = .readPage ∧ inTime s st then endStep (readDone page.toList) s else s
    | none => s) s

/-- FLASH_PROGRAM_PAGE_END (R167). -/
def execFlashProgramPageEnd (s : State) : Host.Outcome State Fault Refusal :=
  live (fun s =>
    match s.store.step with
    | some st =>
      (match st.kind with
       | .programPage data =>
         if inTime s st then endStep (alteredThen (fun j p => jobProgrammed j p data)) s else s
       | _ => s)
    | none => s) s

/-- FLASH_ERASE_SECTOR_END (R167). -/
def execFlashEraseSectorEnd (s : State) : Host.Outcome State Fault Refusal :=
  live (fun s =>
    match s.store.step with
    | some st => if st.kind = .eraseSector ∧ inTime s st then endStep (alteredThen jobErased) s else s
    | none => s) s

/-- FLASH_STEP_TIMEOUT (R167). -/
def execFlashStepTimeout (s : State) : Host.Outcome State Fault Refusal :=
  live (fun s => if timedOut s then endStep stepTimeout s else s) s

/-! ## Jobs -/

/-- R172: the head job can start. -/
def jobStartDue (s : State) : Bool :=
  s.store.running.isNone && s.store.scan.isNone && decide (s.store.bus = .owned) && s.store.step.isNone && !s.store.queue.isEmpty

/-- R172: the head job makes its start check. -/
def startJobNow (s : State) : State :=
  match s.store.queue with
  | [] => s
  | j :: _ =>
    match startDecision j (dirAt s j.slot) with
    | .ok p => startStep { s with store := { s.store with running := some ⟨p, false, false⟩ } }
    | .error r => endJob r s

/-- STORE_JOB_START (R172). -/
def execStoreJobStart (s : State) : Host.Outcome State Fault Refusal :=
  live (fun s => whenDue jobStartDue startJobNow s) s

/-- R173: the checks of a job offered by an order or a key action. -/
def jobChecks (s : State) (j : StoreJob) : Status :=
  let e := dirAt s j.slot
  if 31 < j.slot then .badValue
  else if s.store.scan.isSome then .notReady
  else
    let status := match j.kind with
      | .save _ _ | .erase => if e.isProtected then Status.prot else .ok
      | .recall | .protect _ => match e with | .empty => .empty | .corrupt => .corrupt | _ => .ok
    if status = .ok ∧ 4 ≤ s.store.queue.length then .busy else status

/-- R186: RESTART discards the jobs behind the head, and with them the autosaves that would stand behind a running job once its
step has ended (log 44). -/
def storeRestart (s : State) : State :=
  { s with store := { s.store with
      queue := s.store.queue.take 1
      autosaves := if s.store.running.isSome then [] else s.store.autosaves } }

/-- R186: RESTART ends the head job: after its step in flight, after its refresh, or at once; one that has not started
ends at once (log 21). -/
def storeAbandon (s : State) : State :=
  match s.store.running with
  | none => endJob .abandoned s
  | some r =>
    match r.phase with
    | .classify (.refresh _) _ => s
    | _ =>
      if s.store.step.isSome then { s with store := { s.store with running := some { r with abandoned := true } } }
      else startStep (finishAbandoned r s)

/-! ## Orders -/

/-- R215: the answer to a job's order. -/
def answerJob (kind tag : Byte) (st : Status) (j : StoreJob) (s : State) : State :=
  match jobChecks s j with
  | .ok =>
    let s' := enqueueJob j s
    answer kind tag st (be 1 s'.store.queue.length) s'
  | refusal => answer kind tag refusal [] s

/-- SLOT.SAVE (R173). -/
def execSlotSave (tag : Byte) (body : List Byte) (s : State) : Host.Outcome State Fault Refusal :=
  order 0x36 (fun n => n == 1 || n == 17) tag body (fun s =>
    let slot := (byteAt body 0).toNat
    let given := body.drop 1
    if given.isEmpty then answerJob 0x36 tag .ok (saveJob s slot s.setup.name) s
    else answerJob 0x36 tag (if given.any (fun c => !printable c) then .clamped else .ok) (saveJob s slot (cleanName given)) s) s

/-- SLOT.RECALL (R173). -/
def execSlotRecall (tag : Byte) (body : List Byte) (s : State) : Host.Outcome State Fault Refusal :=
  order 0x37 (lenIs 1) tag body (fun s => answerJob 0x37 tag .ok ⟨.recall, (byteAt body 0).toNat⟩ s) s

/-- SLOT.ERASE (R173). -/
def execSlotErase (tag : Byte) (body : List Byte) (s : State) : Host.Outcome State Fault Refusal :=
  order 0x38 (lenIs 1) tag body (fun s => answerJob 0x38 tag .ok ⟨.erase, (byteAt body 0).toNat⟩ s) s

/-- SLOT.PROTECT (R173). -/
def execSlotProtect (tag : Byte) (body : List Byte) (s : State) : Host.Outcome State Fault Refusal :=
  order 0x39 (lenIs 2) tag body (fun s =>
    let slot := (byteAt body 0).toNat
    match (byteAt body 1).toNat with
    | 0 => answerJob 0x39 tag .ok ⟨.protect false, slot⟩ s
    | 1 => answerJob 0x39 tag .ok ⟨.protect true, slot⟩ s
    | _ => answer 0x39 tag .badValue [] s) s

/-- R215: the bytes of a directory entry. -/
def DirEntry.bytes : DirEntry → List Byte
  | .unknown => 0 :: List.replicate 21 0
  | .empty => 1 :: List.replicate 21 0
  | .corrupt => 3 :: List.replicate 21 0
  | .valid p q n => [2, boolByte p] ++ be 4 q.toNat ++ n

/-- R215: the code of a bus state. -/
def BusState.code : BusState → Byte
  | .owned => 0 | .lending => 1 | .lent => 2

/-- R184: STORE is ready. -/
def storeReady (s : State) : Bool := s.store.scan.isNone

/-- SLOT.LIST (R174). -/
def execSlotList (tag : Byte) (body : List Byte) (s : State) : Host.Outcome State Fault Refusal :=
  order 0x3A (lenIs 0) tag body (fun s =>
    answer 0x3A tag .ok ([boolByte (storeReady s), s.store.bus.code] ++ be 1 s.store.queue.length ++
      (List.range 32).flatMap (fun k => (dirAt s k).bytes)) s) s

/-- BUS.LEND (R180). -/
def execBusLend (tag : Byte) (body : List Byte) (s : State) : Host.Outcome State Fault Refusal :=
  order 0x3B (lenIs 0) tag body (fun s =>
    match s.store.bus with
    | .owned =>
      if s.store.step.isSome then { s with store := { s.store with bus := .lending, withheld := some tag } }
      else noteWanted (answer 0x3B tag .ok [] { s with store := { s.store with bus := .lent } })
    | .lending => answer 0x3B tag .busy [] s
    | .lent => answer 0x3B tag .wrongState [] s) s

/-- BUS.RETURN (R182). -/
def execBusReturn (tag : Byte) (body : List Byte) (s : State) : Host.Outcome State Fault Refusal :=
  order 0x3C (lenIs 0) tag body (fun s =>
    match s.store.bus with
    | .lent => answer 0x3C tag .ok [] (startStep { s with store := { s.store with bus := .owned } })
    | .owned | .lending => answer 0x3C tag .wrongState [] s) s

/-! ## Reports -/

/-- R217: the code of a record's kind. -/
def RecordKind.code : RecordKind → Byte
  | .save => 0 | .recall => 1 | .erase => 2 | .protectOn => 3 | .protectOff => 4 | .scan => 5

/-- R217: the code of a result. -/
def JobResult.code : JobResult → Byte
  | .done => 0 | .empty => 1 | .corrupt => 2 | .prot => 3 | .failed => 4 | .abandoned => 5 | .skipped => 6

/-- R183, R217: the body of the STORE note. -/
def storeNote (s : State) : List Byte :=
  (match s.store.last with
   | some r => [1, (match r.slot with | some k => BitVec.ofNat 8 k | none => 0xFF), r.kind.code, r.result.code]
   | none => [0, 0, 0, 0]) ++
  be 1 s.store.queue.length ++ [s.store.bus.code, boolByte (storeReady s), boolByte (workWaiting s)]

/-- The lines STORE drives onto the store bus: high impedance while it is lent (R180). -/
def storeDrives (s : State) : Bool := decide (s.store.bus ≠ .lent)

end Sys2Proof.Machine
end

