-- ==== Sys2Proof/Machine/Power.lean ====
section
/-! DEFINITION. POWER: the moves of the power state and what each block does at them (chapter 9). -/

namespace Sys2Proof.Machine

/-- R158, R161: the idle timer restarts. -/
def restartIdle (s : State) : State := { s with panel := { s.panel with idleStart := s.acq.timeTag } }

/-- R142, R160: every reported indication is cleared, which stops every repeat. -/
def clearReported (keys : List (Nat × KeyState)) : List (Nat × KeyState) :=
  keys.map (fun e => (e.1, { e.2 with reported := false, deadline := none }))

/-- A key that is UP with count 0 and no indication: the cold value of an unlisted key (R162). -/
def KeyState.cold : KeyState := ⟨false, 0, false, none⟩

/-- A table of keys without the entries that hold the cold value. -/
def trimKeys (keys : List (Nat × KeyState)) : List (Nat × KeyState) := keys.filter (fun e => decide (e.2 ≠ .cold))

/-- R160: PANEL on entry into STANDBY. -/
def panelStandby (s : State) : State :=
  { s with panel := { s.panel with
      keys := trimKeys (clearReported s.panel.keys)
      knobs := s.panel.knobs.map (fun e => (e.1, { e.2 with steps := 0 })) } }

/-- R189: POWER sets the new state and the cause and enters its note (log 19). -/
def setPower (p : PowerState) (c : MoveCause) (s : State) : State :=
  enterNote .power { s with power := { s.power with state := p, cause := c } }

/-- R191: ON to DARK. -/
def moveToDark (c : MoveCause) (s : State) : State := stopScanout (setPower .dark c s)

/-- R192: ON or DARK to STANDBY. -/
def moveToStandby (c : MoveCause) (s : State) : State :=
  let s1 := setPower .standby c { s with power := { s.power with runAtWake := isRunning s } }
  autosave (panelStandby (stopScanout (rasterStandby (acqStandby s1))))

/-- R191: DARK to ON. -/
def wakeFromDark (c : MoveCause) (s : State) : State := restartIdle (startScanout (setPower .on c s))

/-- R193: STANDBY to ON. -/
def wakeFromStandby (c : MoveCause) (s : State) : State :=
  let run := s.power.runAtWake
  let s1 := setPower .on c { s with power := { s.power with runAtWake := false } }
  restartIdle (startScanout (acqWake run s1))

/-- R189: a request to stand in ON. -/
def requestOn (c : MoveCause) (s : State) : State :=
  match s.power.state with
  | .on => s
  | .dark => wakeFromDark c s
  | .standby => wakeFromStandby c s

/-- R189: a request to stand in STANDBY. -/
def requestStandby (c : MoveCause) (s : State) : State :=
  match s.power.state with
  | .on | .dark => moveToStandby c s
  | .standby => s

/-- R189: a request to stand in DARK, which only ON grants. -/
def requestDark (c : MoveCause) (s : State) : State :=
  match s.power.state with
  | .on => moveToDark c s
  | .dark | .standby => s

/-- R189: a waking press or detent, which only DARK grants. -/
def requestWaking (s : State) : State :=
  match s.power.state with
  | .dark => wakeFromDark .panelWake s
  | .on | .standby => s

/-- R189: a WAKE action with the power state PANEL stood in. -/
def requestWake (taken : PowerState) (s : State) : State :=
  match taken with
  | .standby => requestOn .keyWake s
  | .on | .dark => requestStandby .keyWake s

/-- R215: the code of a power state. -/
def PowerState.code : PowerState → Byte
  | .on => 0 | .dark => 1 | .standby => 2

/-- R217: the code of a cause. -/
def MoveCause.code : MoveCause → Byte
  | .none => 0 | .order => 1 | .idle => 2 | .panelWake => 3 | .keyWake => 4

/-- R190: the answer to a POWER order that was taken. -/
def answerPower (tag : Byte) (s : State) : State := answer 0x3F tag .ok [s.power.state.code] s

/-- POWER (R190). -/
def execPower (tag : Byte) (body : List Byte) (s : State) : Host.Outcome State Fault Refusal :=
  order 0x3F (lenIs 1) tag body (fun s =>
    match (byteAt body 0).toNat with
    | 0 => answerPower tag (requestOn .order s)
    | 1 => if s.power.state = .standby then answer 0x3F tag .wrongState [] s else answerPower tag (requestDark .order s)
    | 2 => answerPower tag (requestStandby .order s)
    | _ => answer 0x3F tag .badValue [] s) s

/-- R158: the idle time has elapsed in ON. -/
def idleDue (s : State) : Bool :=
  decide (s.power.state = .on) && decide (s.panel.idleMinutes ≠ 0) &&
  decide (s.panel.idleMinutes * 7500000000 ≤ (s.acq.timeTag - s.panel.idleStart).toNat)

/-- IDLE_TIMER_EXPIRY (R158). -/
def execIdleTimerExpiry (s : State) : Host.Outcome State Fault Refusal :=
  live (fun s => whenDue idleDue (requestDark .idle) s) s

/-- R195, R217: the body of the POWER note. -/
def powerNote (s : State) : List Byte := [s.power.state.code, s.power.cause.code, boolByte s.power.runAtWake]

end Sys2Proof.Machine
end

