-- ==== Sys2Proof/Machine/Panel.lean ====
section
/-! DEFINITION. PANEL: keys, the event FIFO, bindings, knobs, lamps, lock, idle time, scans and the panel orders (chapter 7). -/

namespace Sys2Proof.Machine

/-! ## Keys -/

/-- The state of a key. -/
def keyAt (s : State) (k : Nat) : KeyState := tabGet .cold s.panel.keys k

/-- Write the state of a key. -/
def setKey (k : Nat) (x : KeyState) (s : State) : State :=
  { s with panel := { s.panel with keys := tabSet .cold s.panel.keys k x } }

/-- R144: PANEL produces a key event at the present tick. -/
def produceEvent (key : Nat) (kind : KeyEventKind) (acted : Bool) (s : State) : State :=
  if s.panel.fifo.length < 16 then
    let e : KeyEvent := ⟨key, kind, acted, s.acq.timeTag.setWidth 32⟩
    enterNote .panel (monEnd (flagBit flagPanelOverrun) { s with panel := { s.panel with fifo := s.panel.fifo ++ [e] } })
  else monOccur (flagBit flagPanelOverrun) s

/-- R146: the binding of a key. -/
def bindingOf (s : State) (k : Nat) : Option KeyBinding := tabGet? s.panel.bindings k

/-- R147: a job that a SAVE or RECALL action offers, and whether it was taken. -/
def actJob (j : StoreJob) (s : State) : State × Bool :=
  match jobChecks s j with
  | .ok => (enqueueJob j s, true)
  | _ => (s, false)

/-- R22: a change of one channel's ON to the opposite of its stored value. -/
def toggled (u : Setup) (n : Chan) : Setup :=
  { u with ch := u.ch.set n { u.ch.get n with on := !(u.ch.get n).on } }

/-- R146, R147: run an action other than WAKE; whether it was taken. -/
def runAction (a : KeyAction) (s : State) : State × Bool :=
  match a with
  | .nothing | .wake => (s, false)
  | .runstop => (if s.acq.state = .stopped then runAcq s else stopAcq s, true)
  | .single => (singleAcq s, true)
  | .force => (forceAcq s, forceTaken s)
  | .chan n => (adopt (toggled s.setup n) s, true)
  | .clear => (clearPlanes (.const true) s, true)
  | .defaults => (adopt .default s, true)
  | .save slot => actJob (saveJob s slot s.setup.name) s
  | .recall slot => actJob ⟨.recall, slot⟩ s

/-- R142, R143: a reported press sets the indication, and the repeat deadline of a repeatable key. -/
def reportPress (k : Nat) (s : State) : State :=
  let rep := match bindingOf s k with | some b => b.repeatable | none => false
  setKey k { keyAt s k with reported := true, deadline := if rep then some (s.acq.timeTag + 50000000) else none } s

/-- R147: a press in ON. A WAKE action moves the power state after its event (log 18). -/
def pressInOn (k : Nat) (s : State) : State :=
  match bindingOf s k with
  | none => reportPress k (produceEvent k .press false s)
  | some b =>
    if b.action = .wake then requestWake .on (reportPress k (produceEvent k .press true s))
    else if s.panel.lock then reportPress k (produceEvent k .press false s)
    else
      let r := runAction b.action s
      reportPress k (produceEvent k .press r.2 r.1)

/-- R159: a press in DARK wakes. -/
def pressInDark (k : Nat) (s : State) : State := requestWaking (reportPress k (produceEvent k .press false s))

/-- R160: a press in STANDBY: only a key bound to WAKE acts. -/
def pressInStandby (k : Nat) (s : State) : State :=
  match bindingOf s k with
  | some b => if b.action = .wake then requestWake .standby (reportPress k (produceEvent k .press true s)) else s
  | none => s

/-- R158, R160: activity restarts the idle timer; a transition in STANDBY is none but a WAKE press. -/
def activity (s : State) : State := if s.power.state = .standby then s else restartIdle s

/-- R141, R147: the debounced state of a key becomes DOWN. -/
def pressKey (k : Nat) (s : State) : State :=
  let s1 := activity (setKey k { keyAt s k with down := true, count := 0 } s)
  match s1.power.state with
  | .on => pressInOn k s1
  | .dark => pressInDark k s1
  | .standby => pressInStandby k s1

/-- R141, R142: the debounced state of a key becomes UP. -/
def releaseKey (k : Nat) (s : State) : State :=
  let had := (keyAt s k).reported
  let s1 := activity (setKey k .cold s)
  if had ∧ s.power.state ≠ .standby then produceEvent k .release false s1 else s1

/-- R143: a key repeats at a scan at or after its deadline. -/
def repeatDue (s : State) (k : Nat) : Bool :=
  let x := keyAt s k
  let marked := match bindingOf s k with | some b => b.repeatable | none => false
  x.down && x.reported && marked && (match x.deadline with | some d => reached s.acq.timeTag d | none => false)

/-- R143: a REPEAT event; the deadline moves 80 ms on (log 16). -/
def repeatKey (k : Nat) (s : State) : State :=
  let x := keyAt s k
  produceEvent k .repeats false (setKey k { x with deadline := x.deadline.map (fun d => d + 10000000) } s)

/-- R140: the switch of a key stands closed or open, for the scans to read. -/
def setSwitch (k : Nat) (closed : Bool) (s : State) : State :=
  { s with pins := { s.pins with
      keys := if closed then s.pins.keys ||| BitVec.twoPow 64 k else s.pins.keys &&& ~~~(BitVec.twoPow 64 k) } }

/-- KEY_PRESS (R147): the switch stands closed (log 41); a key that is UP is pressed. -/
def execKeyPress (key : Fin 64) (s : State) : Host.Outcome State Fault Refusal :=
  live (fun s => if (keyAt s key.val).down then s else pressKey key.val s) (setSwitch key.val true s)

/-- KEY_RELEASE (R142): the switch stands open (log 41); a key that is DOWN is released. -/
def execKeyRelease (key : Fin 64) (s : State) : Host.Outcome State Fault Refusal :=
  live (fun s => if (keyAt s key.val).down then releaseKey key.val s else s) (setSwitch key.val false s)

/-- KEY_REPEAT (R143). -/
def execKeyRepeat (key : Fin 64) (s : State) : Host.Outcome State Fault Refusal :=
  live (fun s => if repeatDue s key.val then repeatKey key.val s else s) s

/-! ## Knobs -/

/-- A knob at rest with nothing counted and no binding: the cold value of an unlisted knob, lines high (R149, R162). -/
def Knob.cold : Knob := ⟨true, true, true, true, 0, none, 0, 0, false, none⟩

/-- The state of a knob. -/
def knobAt (s : State) (n : Nat) : Knob := tabGet .cold s.panel.knobs n

/-- Write the state of a knob. -/
def setKnob (n : Nat) (x : Knob) (s : State) : State :=
  { s with panel := { s.panel with knobs := tabSet .cold s.panel.knobs n x } }

/-- R150: the multiplier of a detent at a tick. -/
def multiplier (last : Option (Tick × Dir)) (now : Tick) (d : Dir) : Nat :=
  match last with
  | none => 1
  | some (t, d') =>
    if d ≠ d' then 1
    else if (now - t).toNat < 1250000 then 10
    else if (now - t).toNat < 5000000 then 3
    else 1

/-- R150: the signed steps of a detent. -/
def signedSteps (d : Dir) (m : Nat) : Int := match d with | .clockwise => m | .anticlockwise => -(m : Int)

/-- R151, R154: a sum held at the ends of its range. -/
def saturate (v : Int) : Int := clampInt (-32767) 32767 v

/-- R153: the 1-2-5 values of CHn.SCALE. -/
def scaleValues : List Nat := (List.range 13).map hwOf

/-- R153: the next 1-2-5 value strictly above, the same at the top. -/
def scaleUp (v : Nat) : Nat := (scaleValues.find? (fun x => decide (v < x))).getD v

/-- R153: the next 1-2-5 value strictly below, the same at the bottom. -/
def scaleDown (v : Nat) : Nat := (scaleValues.reverse.find? (fun x => decide (x < v))).getD v

/-- R153: one step of FINE up. -/
def fineUp (v : Nat) : Nat :=
  let r := (roundHalfAway ((v : Int) * 101) 100).toNat
  Nat.min 10000000 (if r = v then v + 1 else r)

/-- R153: one step of FINE down. -/
def fineDown (v : Nat) : Nat :=
  let r := (roundHalfAway ((v : Int) * 99) 100).toNat
  Nat.max 1000 (if r = v then v - 1 else r)

/-- A step taken a number of times. -/
def times (f : Nat → Nat) : Nat → Nat → Nat
  | 0, v => v
  | n + 1, v => times f n (f v)

/-- R153: a CHn.SCALE moved a signed number of steps. -/
def moveScale (up down : Nat → Nat) (steps : Int) (v : Nat) : Nat :=
  if 0 ≤ steps then times up steps.natAbs v else times down steps.natAbs v

/-- R153: the number a batch offers for a field of a present number. -/
def offeredNumber (b : KnobBinding) (steps now : Int) : Int :=
  match b.rule, b.target with
  | .step125, .chan _ .scale => moveScale scaleUp scaleDown steps now.toNat
  | .step125, _ => now + steps
  | .fine, _ => moveScale fineUp fineDown steps now.toNat
  | .linear size, _ => now + steps * size

/-- R22, R153, R154: the record a batch offers, clamped in silence (R8). -/
def batchSetup (u : Setup) (b : KnobBinding) (steps : Int) : Setup :=
  match u.get b.target with
  | .number v =>
    (match acceptValue b.target (.number (offeredNumber b steps v)) with
     | some (x, _) => u.put b.target x
     | none => u)
  | _ => u

/-- R154: offer a batch when none is in flight and the step count is not 0; SETUP applies it at that moment. -/
def offerBatch (n : Nat) (b : KnobBinding) (s : State) : State :=
  let k := knobAt s n
  if k.inFlight ∨ k.steps = 0 then s
  else adopt (batchSetup s.setup b k.steps) (setKnob n { k with steps := 0, inFlight := true } s)

/-- R150, R151, R154: a counted detent. -/
def countDetent (n : Nat) (d : Dir) (s : State) : State :=
  let k := knobAt s n
  let m := signedSteps d (multiplier k.lastDetent s.acq.timeTag d)
  let k1 := { k with lastDetent := some (s.acq.timeTag, d) }
  match k.binding with
  | none => enterNote (.knob (Fin.ofNat 8 n)) (setKnob n { k1 with acc := saturate (k.acc + m) } s)
  | some b => offerBatch n b (setKnob n { k1 with steps := saturate (k.steps + m) } s)

/-- R150, R157, R159, R160: a detent, counted or discarded. -/
def takeDetent (n : Nat) (d : Dir) (s : State) : State :=
  let s1 := activity s
  match s1.power.state with
  | .on => if s1.panel.lock && (knobAt s1 n).binding.isSome then s1 else countDetent n d s1
  | .dark => requestWaking s1
  | .standby => s1

/-- R149: both lines of a knob are high, its resting state. -/
def setLinesHigh (n : Nat) (s : State) : State :=
  { s with pins := { s.pins with
      encA := s.pins.encA ||| BitVec.twoPow 8 n, encB := s.pins.encB ||| BitVec.twoPow 8 n } }

/-- R149: a knob that has returned to rest: both lines accepted high, its quarter count 0. -/
def Knob.atRest (x : Knob) : Knob := { x with a := true, b := true, rawA := true, rawB := true, quarter := 0 }

/-- KNOB_DETENT (R150): the knob comes to rest with both lines high (log 41), and its detent is taken. -/
def execKnobDetent (knob : Fin 8) (dir : Dir) (s : State) : Host.Outcome State Fault Refusal :=
  live (fun s => takeDetent knob.val dir (setKnob knob.val (knobAt s knob.val).atRest s)) (setLinesHigh knob.val s)

/-- R154: SETUP hands back the batch of a knob; movement gathered meanwhile makes the next. -/
def batchResult (n : Nat) (s : State) : State :=
  let s1 := setKnob n { knobAt s n with inFlight := false } s
  match (knobAt s n).binding with
  | some b => offerBatch n b s1
  | none => s1

/-- KNOB_BATCH_RESULT (R154). -/
def execKnobBatchResult (knob : Fin 8) (s : State) : Host.Outcome State Fault Refusal :=
  live (fun s => if (knobAt s knob.val).inFlight then batchResult knob.val s else s) s

/-! ## Scans -/

/-- R140: the KEY_ROW lines while a scan drives row r: that row and no other (log 45). -/
def keyRowLines (r : Nat) : BitVec 8 := BitVec.twoPow 8 r

/-- R140: the KEY_COL lines while a scan drives row r, a bit for each closed position of the row. -/
def keyColLines (s : State) (r : Nat) : BitVec 8 := s.pins.keys.extractLsb' (8 * r) 8

/-- R140: a scan reads key 8 × r + c at row r and column c. -/
def keyClosed (s : State) (k : Nat) : Bool := (keyColLines s (k / 8)).getLsbD (k % 8)

/-- R141: one scan of one key. -/
def scanKey (s : State) (k : Nat) : State :=
  let x := keyAt s k
  let closed := keyClosed s k
  if closed = x.down then (if x.count = 0 then s else setKey k { x with count := 0 } s)
  else if x.count < 3 then setKey k { x with count := x.count + 1 } s
  else if closed then pressKey k s
  else releaseKey k s

/-- R143: the repeat of one key at a scan. -/
def scanRepeat (s : State) (k : Nat) : State := if repeatDue s k then repeatKey k s else s

/-- R140, R141, R143: one scan: the transitions in increasing key id, then the repeats. -/
def scanKeys (s : State) : State := (List.range 64).foldl scanRepeat ((List.range 64).foldl scanKey s)

/-- R149: the place of a knob's lines in the clockwise order. -/
def quadPlace (a b : Bool) : Nat :=
  match a, b with
  | true, true => 0 | false, true => 1 | false, false => 2 | true, false => 3

/-- R149: the quarter that an accepted change adds. -/
def quarterOf (a b a' b' : Bool) : Int :=
  if (quadPlace a b + 1) % 4 = quadPlace a' b' then 1
  else if (quadPlace a' b' + 1) % 4 = quadPlace a b then -1
  else 0

/-- R149: the knob after a sample of its lines and the detent it completes, if any. -/
def sampleKnob (x : Knob) (a b : Bool) : Knob × Option Dir :=
  let a' := if a = x.rawA then a else x.a
  let b' := if b = x.rawB then b else x.b
  let x1 := { x with rawA := a, rawB := b }
  if a' ≠ x.a ∧ b' ≠ x.b then (x1, none)
  else
    let q := x.quarter + quarterOf x.a x.b a' b'
    let x2 := { x1 with a := a', b := b', quarter := clampInt (-4) 4 q }
    if a' ∧ b' ∧ ¬(x.a ∧ x.b) then
      ({ x2 with quarter := 0 }, if q = 4 then some .clockwise else if q = -4 then some .anticlockwise else none)
    else (x2, none)

/-- R149: one sample of one knob. -/
def scanKnob (s : State) (n : Nat) : State :=
  let r := sampleKnob (knobAt s n) (s.pins.encA.getLsbD n) (s.pins.encB.getLsbD n)
  let s1 := if r.1 = knobAt s n then s else setKnob n r.1 s
  match r.2 with
  | some d => takeDetent n d s1
  | none => s1

/-- R149: one sample of the sixteen lines, the knobs one after another from 0 to 7 (log 17). -/
def scanKnobs (s : State) : State := (List.range 8).foldl scanKnob s

/-! ## Reset -/

/-- R149: a knob whose lines have been taken as they stand, the last sample of each among them (log 43). -/
def Knob.atLines (x : Knob) (a b : Bool) : Knob := { x with a := a, b := b, rawA := a, rawB := b, quarter := 0 }

/-- R149, R162: the knobs at cold reset, their states from the lines. -/
def coldKnobs (p : Pins) : List (Nat × Knob) :=
  (List.range 8).filterMap (fun n =>
    let x := Knob.cold.atLines (p.encA.getLsbD n) (p.encB.getLsbD n)
    if x = .cold then none else some (n, x))

/-- R163: a knob at RESTART. -/
def restartKnob (s : State) (n : Nat) : Knob :=
  { (knobAt s n).atLines (s.pins.encA.getLsbD n) (s.pins.encB.getLsbD n) with
    lastDetent := none, acc := 0, steps := 0, inFlight := false }

/-- R163: PANEL at RESTART. -/
def panelRestart (s : State) : State :=
  restartIdle { s with panel := { s.panel with
      fifo := []
      keys := trimKeys ((clearReported s.panel.keys).map (fun e => (e.1, { e.2 with count := 0 })))
      knobs := (List.range 8).filterMap (fun n => if restartKnob s n = .cold then none else some (n, restartKnob s n)) } }

/-! ## Lamps -/

/-- The mode of a lamp. -/
def lampAt (s : State) (i : Nat) : LampMode := tabGet (.plain .off) s.panel.lamps i

/-- R184: STORE's work is running on a bus that is OWNED or LENDING. A queued job whose predecessor has just ended counts: it
follows at once. -/
def workRunning (s : State) : Bool :=
  decide (s.store.bus ≠ .lent) && (s.store.running.isSome || s.store.scan.isSome || !s.store.queue.isEmpty)

/-- R156: what a follow source shows. -/
def followShows (s : State) (src : FollowSource) : Blink :=
  match src with
  | .run =>
    match s.acq.state with
    | .arming | .capturing | .rolling => .on
    | .waiting => if s.setup.tmode = .auto then .on else .fast
    | .held => .slow
    | .stopped => .off
  | .single => if s.acq.single then .on else .off
  | .chan n => if (s.setup.ch.get n).on then .on else .off
  | .flags => if s.mon.summary then .slow else .off
  | .store => if workRunning s then .on else if workWaiting s then .fast else .off
  | .power =>
    match s.power.state with
    | .on => .on
    | .dark => .slow
    | .standby => s.panel.standbyMode

/-- R155: whether a lamp of a blink mode is lit at a tick. -/
def blinkLit (m : Blink) (t : Tick) : Bool :=
  match m with
  | .off => false
  | .on => true
  | .slow => t.toNat / 62500000 % 2 == 0
  | .fast => t.toNat / 15625000 % 2 == 0

/-- R155: LAMP line i is high. -/
def lampLit (s : State) (i : Nat) : Bool :=
  match lampAt s i with
  | .plain m => blinkLit m s.acq.timeTag
  | .follow src => blinkLit (followShows s src) s.acq.timeTag

/-! ## Orders -/

/-- R214: the action of a code and a parameter; none when the code or its parameter is outside its set. -/
def actionOf (code param : Nat) : Option KeyAction :=
  match code with
  | 0 => some .nothing
  | 1 => some .runstop
  | 2 => some .single
  | 3 => some .force
  | 4 => (Chan.ofNum? param).map .chan
  | 5 => some .clear
  | 6 => some .defaults
  | 7 => if param ≤ 31 then some (.save param) else none
  | 8 => if param ≤ 31 then some (.recall param) else none
  | 9 => some .wake
  | _ => none

/-- R143: the unmarking of a key ends its repeats. -/
def unmarkKey (k : Nat) (s : State) : State := setKey k { keyAt s k with deadline := none } s

/-- R215: the answer to PANEL.KEYBIND: the entries after the order. -/
def answerKeybind (tag : Byte) (s : State) : State := answer 0x2C tag .ok (be 1 s.panel.bindings.length) s

/-- R146: write an entry of the key binding table. -/
def bindKey (k : Nat) (b : KeyBinding) (s : State) : State :=
  let s1 := { s with panel := { s.panel with bindings := tabPut s.panel.bindings k b } }
  if b.repeatable then s1 else unmarkKey k s1

/-- R146: remove an entry of the key binding table. -/
def unbindKey (k : Nat) (s : State) : State :=
  unmarkKey k { s with panel := { s.panel with bindings := tabDel s.panel.bindings k } }

/-- PANEL.KEYBIND (R146). -/
def execPanelKeybind (tag : Byte) (body : List Byte) (s : State) : Host.Outcome State Fault Refusal :=
  order 0x2C (lenIs 4) tag body (fun s =>
    let k := (byteAt body 0).toNat
    let code := (byteAt body 1).toNat
    if 63 < k then answer 0x2C tag .badValue [] s
    else if code = 0xFF then answerKeybind tag (unbindKey k s)
    else match actionOf code (byteAt body 2).toNat with
      | none => answer 0x2C tag .badValue [] s
      | some a =>
        if (bindingOf s k).isNone ∧ 16 ≤ s.panel.bindings.length then answer 0x2C tag .busy [] s
        else answerKeybind tag (bindKey k ⟨a, byteAt body 3 != 0⟩ s)) s

/-- R152: the rules a target takes: STEP125, FINE, LINEAR; none for a field that is no bindable target. -/
def targetRules : Field → Option (Bool × Bool)
  | .chan _ .scale => some (true, true)
  | .chan _ .pos => some (false, false)
  | .dev .tbase | .dev .depth => some (true, false)
  | .dev .tlevel | .dev .holdoff | .dev .curV1 | .dev .curV2 | .dev .curH1 | .dev .curH2 | .dev .tbright | .dev .bllevel =>
    some (false, false)
  | _ => none

/-- R152: the step rule of a code and a size for a target that takes STEP125 and FINE as given. -/
def ruleOf (allowed : Bool × Bool) (code size : Nat) : Option StepRule :=
  match code with
  | 1 => if allowed.1 then some .step125 else none
  | 2 => if allowed.2 then some .fine else none
  | 3 => if 1 ≤ size ∧ size ≤ 1000000 then some (.linear size) else none
  | _ => none

/-- R152: write the entry of a knob, empty or not. -/
def bindKnob (n : Nat) (b : Option KnobBinding) (s : State) : State :=
  setKnob n { knobAt s n with binding := b, acc := 0, steps := 0, lastDetent := none } s

/-- PANEL.KNOBBIND (R152). -/
def execPanelKnobbind (tag : Byte) (body : List Byte) (s : State) : Host.Outcome State Fault Refusal :=
  order 0x2D (lenIs 8) tag body (fun s =>
    let n := (byteAt body 0).toNat
    let rule := (byteAt body 3).toNat
    if 7 < n then answer 0x2D tag .badValue [] s
    else if rule = 0 then answer 0x2D tag .ok [] (bindKnob n none s)
    else match fieldOfId (natAt body 1 2) with
      | none => answer 0x2D tag .badField [] s
      | some f =>
        match targetRules f with
        | none => answer 0x2D tag .badField [] s
        | some allowed =>
          match ruleOf allowed rule (natAt body 4 4) with
          | none => answer 0x2D tag .badValue [] s
          | some r => answer 0x2D tag .ok [] (bindKnob n (some ⟨f, r⟩) s)) s

/-- R214: the follow source of a code. -/
def sourceOf (code : Nat) : Option FollowSource :=
  match code with
  | 0 => some .run
  | 1 => some .single
  | 2 => some (.chan .ch1)
  | 3 => some (.chan .ch2)
  | 4 => some (.chan .ch3)
  | 5 => some (.chan .ch4)
  | 6 => some .flags
  | 7 => some .store
  | 8 => some .power
  | _ => none

/-- R214: the lamp mode of a code and a source. -/
def lampModeOf (mode source : Nat) : Option LampMode :=
  match mode with
  | 0 => some (.plain .off)
  | 1 => some (.plain .on)
  | 2 => some (.plain .slow)
  | 3 => some (.plain .fast)
  | 4 => (sourceOf source).map .follow
  | _ => none

/-- R155: write a lamp's mode. -/
def setLamp (i : Nat) (m : LampMode) (s : State) : State :=
  { s with panel := { s.panel with lamps := tabSet (.plain .off) s.panel.lamps i m } }

/-- PANEL.LED (R155). -/
def execPanelLed (tag : Byte) (body : List Byte) (s : State) : Host.Outcome State Fault Refusal :=
  order 0x2E (lenIs 3) tag body (fun s =>
    let lamp := (byteAt body 0).toNat
    match lampModeOf (byteAt body 1).toNat (byteAt body 2).toNat with
    | none => answer 0x2E tag .badValue [] s
    | some m =>
      if lamp ≤ 31 then answer 0x2E tag .ok [] (setLamp lamp m s)
      else if lamp = 0xFF then
        (match m with
         | .plain b => answer 0x2E tag .ok [] { s with panel := { s.panel with standbyMode := b } }
         | .follow _ => answer 0x2E tag .badValue [] s)
      else answer 0x2E tag .badValue [] s) s

/-- R157: the lock set on discards the step count of every bound knob. -/
def lockOn (s : State) : State :=
  { s with panel := { s.panel with
      lock := true
      knobs := s.panel.knobs.map (fun e => (e.1, { e.2 with steps := 0 })) } }

/-- PANEL.LOCK (R157). -/
def execPanelLock (tag : Byte) (body : List Byte) (s : State) : Host.Outcome State Fault Refusal :=
  order 0x2F (lenIs 1) tag body (fun s =>
    match (byteAt body 0).toNat with
    | 0 => answer 0x2F tag .ok [] { s with panel := { s.panel with lock := false } }
    | 1 => answer 0x2F tag .ok [] (lockOn s)
    | _ => answer 0x2F tag .badValue [] s) s

/-- PANEL.IDLE (R158). -/
def execPanelIdle (tag : Byte) (body : List Byte) (s : State) : Host.Outcome State Fault Refusal :=
  order 0x30 (lenIs 1) tag body (fun s =>
    let m := (byteAt body 0).toNat
    if 240 < m then answer 0x30 tag .badValue [] s
    else answer 0x30 tag .ok [] (restartIdle { s with panel := { s.panel with idleMinutes := m } })) s

/-- R216: the code of an event's kind. -/
def KeyEventKind.code : KeyEventKind → Byte
  | .press => 0 | .release => 1 | .repeats => 2

/-- R216: the seven bytes of a key event. -/
def eventBytes (e : KeyEvent) : List Byte := be 1 e.key ++ [e.kind.code, boolByte e.acted] ++ be 4 e.time.toNat

/-- KEYS.READ (R145). -/
def execKeysRead (tag : Byte) (body : List Byte) (s : State) : Host.Outcome State Fault Refusal :=
  order 0x31 (lenIs 0) tag body (fun s =>
    answer 0x31 tag .ok (be 1 s.panel.fifo.length ++ s.panel.fifo.flatMap eventBytes)
      { s with panel := { s.panel with fifo := [] } }) s

/-- R151: every accumulator becomes 0. -/
def clearAccumulators (knobs : List (Nat × Knob)) : List (Nat × Knob) :=
  (knobs.map (fun e => (e.1, { e.2 with acc := 0 }))).filter (fun e => decide (e.2 ≠ .cold))

/-- KNOBS.READ (R151). -/
def execKnobsRead (tag : Byte) (body : List Byte) (s : State) : Host.Outcome State Fault Refusal :=
  order 0x32 (lenIs 0) tag body (fun s =>
    answer 0x32 tag .ok ((List.range 8).flatMap (fun n => beInt 2 (knobAt s n).acc))
      { s with panel := { s.panel with knobs := clearAccumulators s.panel.knobs } }) s

end Sys2Proof.Machine
end

