-- ==== Sys2Proof/Machine/Codes.lean ====
section
/-! DEFINITION. The rows that carry codes, and the scans of keys and knobs that fall due while their time passes (R25, R140, R149). -/

namespace Sys2Proof.Machine

/-- R42: the ticks since cold reset, the wraps of the time tag counted. -/
def ticksSinceReset (s : State) : Nat := s.acq.wraps * 2 ^ 48 + s.acq.timeTag.toNat

/-- R140, R149: the scans that fall at a tick: knobs every 15,625 ticks, keys every 125,000, counted on through the wraps of
the time tag (log 17). -/
def scansAt (s : State) : State :=
  let s1 := if ticksSinceReset s % 15625 = 0 then scanKnobs s else s
  if ticksSinceReset s % 125000 = 0 then scanKeys s1 else s1

/-- R42: a code that ends a tick is followed by the scans of the tick that begins. -/
def scanAtTick (s : State) : State := if s.acq.nsPhase = 0 then scansAt s else s

/-- R25, R140, R149: one nanosecond passes: its code is taken, then the scans of the tick that it may begin. -/
def passCode (s : State) (x : Sample) : State := scanAtTick (takeCode s x)

/-- The codes of consecutive nanoseconds. -/
def passCodes (xs : List Sample) (s : State) : State := xs.foldl passCode s

/-- A row that takes codes: while RESET_N is high, and if the region of the capture in flight exists (log 25). -/
def codesRow (f : State → State) (s : State) : Host.Outcome State Fault Refusal :=
  if s.pins.resetLow then .next s
  else if captureExists s then .next (f s) else .fault .noSuchMemory

/-- POINT_WRITTEN (R32): the codes, then the write of the interval they complete. -/
def execPointWritten (codes : List Sample) (s : State) : Host.Outcome State Fault Refusal :=
  codesRow (fun s =>
    let s1 := passCodes codes s
    if intervalFull s1 ∧ s1.acq.state ≠ .rolling then writePoint s1 else s1) s

/-- EDGE_TRIGGER (R54): the codes, the last of which is the crossing. -/
def execEdgeTrigger (codes : List Sample) (s : State) : Host.Outcome State Fault Refusal :=
  codesRow (fun s => passCodes codes s) s

/-- ROLL_COLUMN (R39): the codes, then the column of the interval they complete. -/
def execRollColumn (codes : List Sample) (s : State) : Host.Outcome State Fault Refusal :=
  codesRow (fun s =>
    let s1 := passCodes codes s
    if intervalFull s1 ∧ s1.acq.state = .rolling then writeColumn s1 else s1) s

end Sys2Proof.Machine
end

