-- ==== Sys2Proof/Machine/Monitor.lean ====
section
/-! DEFINITION. The flag orders (chapter 4, R87 to R91). -/

namespace Sys2Proof.Machine

/-- FLAGS.PEEK (R87). -/
def execFlagsPeek (tag : Byte) (body : List Byte) (s : State) : Host.Outcome State Fault Refusal :=
  order 0x18 (lenIs 0) tag body (fun s => answer 0x18 tag .ok (flagItems s.mon) s) s

/-- R88: the latched state of every reported flag becomes false. -/
def clearLatched (s : State) : State := { s with mon := { s.mon with latched := 0 } }

/-- FLAGS.TAKE (R88). -/
def execFlagsTake (tag : Byte) (body : List Byte) (s : State) : Host.Outcome State Fault Refusal :=
  order 0x19 (lenIs 0) tag body (fun s => answer 0x19 tag .ok (flagItems s.mon) (clearLatched s)) s

/-- R83, R89: the masks are written; a summary that turns true enters the FLAGS note. -/
def writeMask (m : BitVec 76) (s : State) : State :=
  let s1 := { s with mon := { s.mon with mask := m } }
  if !s.mon.summary && s1.mon.summary then enterNote .flags s1 else s1

/-- FLAGS.MASK (R89). -/
def execFlagsMask (tag : Byte) (body : List Byte) (s : State) : Host.Outcome State Fault Refusal :=
  order 0x1A (lenIs 10) tag body (fun s =>
    match flagSetOf body with
    | some m =>
      let s' := writeMask m s
      answer 0x1A tag .ok (flagSetBytes m ++ [boolByte s'.mon.summary]) s'
    | none => answer 0x1A tag .badValue [] s) s

/-- R91: MON at RESTART, before the LANE occurrences. -/
def monRestart (s : State) : State := { s with mon := { s.mon with current := 0, latched := 0 } }

/-- R83, R217: the body of the FLAGS note. -/
def flagsNote (s : State) : List Byte := boolByte s.mon.summary :: flagSetBytes s.mon.latched

end Sys2Proof.Machine
end

