-- ==== Sys2Proof/Machine/Link.lean ====
section
/-! DEFINITION. LINK: select periods, inbound and outbound frames, the link orders, RESTART and cold reset (chapters 9 and 10). -/

namespace Sys2Proof.Machine

/-! ## Frames -/

/-- R200: the register after one bit. -/
def crcBit (r : BitVec 16) (b : Bool) : BitVec 16 :=
  if r.getLsbD 15 != b then (r <<< 1) ^^^ 0x1021#16 else r <<< 1

/-- R200: the register after one byte, most significant bit first. -/
def crcByte (r : BitVec 16) (b : Byte) : BitVec 16 :=
  [7, 6, 5, 4, 3, 2, 1, 0].foldl (fun acc i => crcBit acc (b.getLsbD i)) r

/-- R200: the CRC of some bytes. -/
def crcOf (bs : List Byte) : BitVec 16 := bs.foldl crcByte 0xFFFF#16

/-- R199: KIND, TAG, LEN and BODY. -/
def frameHead (f : Frame) : List Byte := [f.kind, f.tag] ++ be 2 f.body.length ++ f.body

/-- R199: the bytes of a frame as they travel. -/
def frameBytes (f : Frame) : List Byte := frameHead f ++ be 2 (crcOf (frameHead f)).toNat

/-- R199: the frame of 6 + LEN gathered bytes. -/
def frameOf (bs : List Byte) : Frame := ⟨byteAt bs 0, byteAt bs 1, slice bs 4 (bs.length - 6)⟩

/-- R199, R200: the received CHECK is the CRC. -/
def checkMatches (bs : List Byte) : Bool :=
  decide ((crcOf (bs.take (bs.length - 2))).toNat = natAt bs (bs.length - 2) 2)

/-- R198, R199: the rest of the period's inbound bytes are ignored. -/
def ignoreRest (s : State) : State := { s with link := { s.link with gathered := [], ignoring := true } }

/-- R199: LINK discards the gathered bytes. -/
def discardFrame (s : State) : State := monOccur (flagBit flagLinkDiscard) (ignoreRest s)

/-- R199: the gathered bytes with one more. -/
def gather (bs : List Byte) (s : State) : State :=
  if bs.length = 1 ∧ byteAt bs 0 = 0 then ignoreRest s
  else if bs.length = 4 ∧ 1024 < natAt bs 2 2 then discardFrame s
  else if 4 ≤ bs.length ∧ bs.length = 6 + natAt bs 2 2 then
    if checkMatches bs then takeFrame (frameOf bs) (ignoreRest s) else discardFrame s
  else { s with link := { s.link with gathered := bs } }

/-! ## Sending -/

/-- R214: the note kind of a source. -/
def noteKind : NoteSource → Byte
  | .panel => 0x40
  | .knob n => BitVec.ofNat 8 (0x41 + n.val)
  | .acq => 0x49
  | .flags => 0x4A
  | .store => 0x4B
  | .power => 0x4C

/-- R206, R217: the body of a source's note as it stands. -/
def noteBody (s : State) : NoteSource → List Byte
  | .panel => be 1 s.panel.fifo.length
  | .knob n => beInt 2 (knobAt s n.val).acc
  | .acq => acqNote s
  | .flags => flagsNote s
  | .store => storeNote s
  | .power => powerNote s

/-- R151, R206: what the building of a body changes: a KNOBn note takes the accumulator. -/
def noteTaken (src : NoteSource) (s : State) : State :=
  match src with
  | .knob n => setKnob n.val { knobAt s n.val with acc := 0 } s
  | _ => s

/-- R206: the frame of a note. -/
def noteFrame (src : NoteSource) (body : List Byte) : Frame := ⟨noteKind src, 0, body⟩

/-- R206, R207: LINK chooses the head entry of the note list; its body is built now unless it was. -/
def sendNote (e : NoteEntry) (rest : List NoteEntry) (s : State) : State :=
  match e.built with
  | some body => { s with link := { s.link with sending := some ⟨some e.src, noteFrame e.src body, false⟩ } }
  | none =>
    let body := noteBody s e.src
    let s1 := noteTaken e.src s
    { s1 with link := { s1.link with
        notes := { e with built := some body } :: rest
        sending := some ⟨some e.src, noteFrame e.src body, false⟩ } }

/-- R207: the choice at the fall of LINK_SEL. -/
def chooseFrame (s : State) : State :=
  match s.link.partly, s.link.answers, s.link.notes with
  | some o, _, _ => { s with link := { s.link with sending := some o, partly := none } }
  | none, f :: _, _ => { s with link := { s.link with sending := some ⟨none, f, false⟩ } }
  | none, [], e :: rest => sendNote e rest s
  | none, [], [] => { s with link := { s.link with sending := none } }

/-- R205: an entry fully sent leaves the list; with the again mark the source enters anew at the tail. -/
def noteSent (src : NoteSource) (notes : List NoteEntry) : List NoteEntry :=
  let again := notes.any (fun e => decide (e.src = src) && e.again)
  let rest := notes.filter (fun e => decide (e.src ≠ src))
  if again then rest ++ [⟨src, none, false⟩] else rest

/-- R207: a frame fully sent leaves its queue or list, unless a RESTART has removed its entry (R211). -/
def frameLeft (o : Outgoing) (s : State) : State :=
  let s1 := { s with link := { s.link with sending := none } }
  if o.gone then s1
  else match o.note with
    | none => { s1 with link := { s1.link with answers := s1.link.answers.drop 1 } }
    | some src => { s1 with link := { s1.link with notes := noteSent src s1.link.notes } }

/-- R199: the bytes of a frame on the wire. -/
def sentLength (o : Outgoing) : Nat := 6 + o.frame.body.length

/-- R198, R207: the clocks of the period up to n bytes: they are counted, and a frame whose last byte is among them leaves. -/
def clockTo (n : Nat) (s : State) : State :=
  let s1 := { s with link := { s.link with clocked := { s.link.clocked with bytes := Nat.max s.link.clocked.bytes n } } }
  match s.link.sending with
  | some o => if sentLength o ≤ s1.link.clocked.bytes then frameLeft o s1 else s1
  | none => s1

/-- R198: the clocks of the next n inbound bytes, with what they carry out. -/
def clockNext (n : Nat) (s : State) : State :=
  let m := s.link.clocked.taken + n
  clockTo m { s with link := { s.link with clocked := { s.link.clocked with taken := m } } }

/-- R198: one inbound byte of the period and the clocks that carry it, a byte each way. At a byte that ends the frames of both
directions, the outbound frame leaves before the inbound one is taken (log 46). -/
def takeByte (s : State) (b : Byte) : State :=
  if s.link.inPeriod then
    let s1 := clockNext 1 s
    if s1.link.ignoring then s1 else gather (s1.link.gathered ++ [b]) s1
  else s

/-- R198: inbound bytes of a period in turn. -/
def takeBytes (bs : List Byte) (s : State) : State := bs.foldl takeByte s

/-- R207: the frame of a period that ended before its last byte is partly sent, unless its entry is gone (R211). -/
def keepPartly (sending : Option Outgoing) : Option Outgoing :=
  match sending with
  | some o => if o.gone then none else some o
  | none => none

/-- The level of LINK_SEL. -/
def setSel (low : Bool) (s : State) : State := { s with pins := { s.pins with linkSelLow := low } }

/-- R198, R199, R207: a select period begins. -/
def startPeriod (s : State) : State :=
  chooseFrame { s with link := { s.link with inPeriod := true, gathered := [], ignoring := false, clocked := ⟨0, 0⟩ } }

/-- R199, R207: a select period ends; a frame left incomplete is discarded. -/
def endPeriod (s : State) : State :=
  let s1 := if s.link.gathered.isEmpty then s else monOccur (flagBit flagLinkDiscard) s
  { s1 with link := { s1.link with
      inPeriod := false, gathered := [], ignoring := false, clocked := ⟨0, 0⟩
      partly := keepPartly s1.link.sending
      sending := none } }

/-- SELECT_PERIOD_START (R207): LINK_SEL falls. -/
def execSelectPeriodStart (s : State) : Host.Outcome State Fault Refusal :=
  if s.pins.linkSelLow then .next s
  else if s.pins.resetLow then .next (setSel true s)
  else .next (startPeriod (setSel true s))

/-- SELECT_PERIOD_END (R199, R212): the bytes not yet taken, then LINK_SEL rises; bits after the last whole byte are
ignored (R198). -/
def execSelectPeriodEnd (bytes : List Byte) (_stray : List Bool) (s : State) : Host.Outcome State Fault Refusal :=
  if !s.pins.linkSelLow then .next s
  else if s.pins.resetLow then .next (setSel false s)
  else
    let s1 := takeBytes bytes s
    .next (setSel false (if s1.link.inPeriod then endPeriod s1 else s1))

/-- FRAME_COMPLETE (R199): the inbound bytes up to the one that completes a frame. -/
def execFrameComplete (bytes : List Byte) (s : State) : Host.Outcome State Fault Refusal :=
  live (fun s => takeBytes bytes s) s

/-- LEN_ABOVE_1024 (R199): the inbound bytes up to byte 3. -/
def execLenAbove1024 (bytes : List Byte) (s : State) : Host.Outcome State Fault Refusal :=
  live (fun s => takeBytes bytes s) s

/-- FRAME_SENT (R207): the period is clocked up to the last byte of the outbound frame, which leaves. -/
def execFrameSent (s : State) : Host.Outcome State Fault Refusal :=
  live (fun s =>
    if s.link.inPeriod then (match s.link.sending with | some o => clockTo (sentLength o) s | none => s) else s) s

/-- R198: the byte that LINK presents after the bytes clocked so far: the next of the frame it sends, 0x00 after it and without
one; without one too while LINK waits for LINK_SEL to rise after a cold reset (R212, log 48). -/
def linkOutByte (s : State) : Byte :=
  match s.link.sending with
  | some o => byteAt (frameBytes o.frame) s.link.clocked.bytes
  | none => 0

/-- R198: LINK drives LINK_OUT from the fall of LINK_SEL to its rise, in a select period and while it waits for the rise of a
LINK_SEL that was low at the rise of RESET_N (R212). -/
def linkOutDriven (s : State) : Bool := s.pins.linkSelLow

/-- R198: the byte on LINK_OUT, none at high impedance. -/
def linkOut (s : State) : Option Byte := if linkOutDriven s then some (linkOutByte s) else none

/-- R198: the level of LINK_OUT once k bits of the present byte have been clocked, most significant bit first. -/
def linkOutBit (s : State) (k : Nat) : Option Bool := (linkOut s).map (fun b => b.getLsbD (7 - k))

/-- R208: ATTN is low. While RESET_N is low it goes on showing the queues as they stand (log 34). -/
def attnLow (s : State) : Bool := !s.link.answers.isEmpty || !s.link.notes.isEmpty

/-! ## The link orders -/

/-- R203: the KIND of a BAD_KIND answer. -/
def badKindAnswer (kind : Byte) : Byte := if 1 ≤ kind.toNat ∧ kind.toNat ≤ 0x3F then kind + 0x80 else 0x80

/-- ORDER_BAD_KIND (R202, R203): an order of a kind outside the table is dispatched. A kind of the table is no case of this
row (log 3). -/
def execOrderBadKind (kind tag : Byte) (body : List Byte) (s : State) : Host.Outcome State Fault Refusal :=
  live (fun s =>
    if orderKinds.contains kind.toNat then s
    else
      let f : Frame := ⟨kind, tag, body⟩
      let s1 := atHead f s
      if dispatchable f s1 then pushAnswer ⟨badKindAnswer kind, tag, [Status.badKind.code, kind]⟩ (popInbound s1) else s1) s

/-- R209: the items of IDENT. -/
def identItems : List Byte :=
  ascii "SAGUZEN " ++ ascii "MG-440  " ++ [1] ++ be 2 1024 ++ [4, 8, 13] ++ be 4 25000

/-- IDENT (R209). -/
def execIdent (tag : Byte) (body : List Byte) (s : State) : Host.Outcome State Fault Refusal :=
  order 0x01 (lenIs 0) tag body (fun s => answer 0x01 tag .ok identItems s) s

/-- R210, R216: the items of STATE; the order's own kept place counts among answers owed. -/
def stateItems (s : State) : List Byte :=
  [s.power.state.code, stateWord s] ++ be 4 s.acq.countDone.toNat ++ indexSerial s.acq.lastDone ++ be 4 s.gen.toNat ++
  [boolByte s.mon.summary] ++ indexSerial s.raster.view ++ be 1 s.raster.list.length ++
  [boolByte (storeReady s), s.store.bus.code] ++ be 1 s.store.queue.length ++ be 1 s.panel.fifo.length ++
  be 6 s.acq.timeTag.toNat ++ be 1 s.link.inbound.length ++ be 1 s.link.answers.length ++ be 1 (owed s + 1) ++
  be 1 s.link.notes.length

/-- STATE (R210). -/
def execState (tag : Byte) (body : List Byte) (s : State) : Host.Outcome State Fault Refusal :=
  order 0x02 (lenIs 0) tag body (fun s => answer 0x02 tag .ok (stateItems s) s) s

/-- R196: POWER at RESTART. -/
def powerRestart (s : State) : State := { s with power := { s.power with runAtWake := false } }

/-- R211, step 2: every block takes its restart values. -/
def restartBlocks (s : State) : State :=
  powerRestart (storeRestart (panelRestart (composeRestart (rasterRestart (monRestart (acqRestart s))))))

/-- R211: a frame clocking out finishes its period, but its entry is gone. -/
def outgoingGone (o : Option Outgoing) : Option Outgoing := o.map (fun x => { x with gone := true })

/-- R211, step 3: the answer queue, the partly sent frame and the note list are cleared. -/
def clearLink (s : State) : State :=
  { s with link := { s.link with answers := [], notes := [], partly := none, sending := outgoingGone s.link.sending } }

/-- R211: the steps of a RESTART, then what the blocks make of it after its answer: LANE occurrences (R91), the end of an
abandoned job (R186), the annotation (R135). FLAGS joins the emptied list before STORE (log 20). -/
def restartPart (tag : Byte) (s : State) : State :=
  let discarded := s.link.inbound.length
  let s1 := restartBlocks { s with link := { s.link with inbound := [] } }
  let cleared := s1.link.answers.length
  let s2 := answer 0x03 tag .ok (be 1 discarded ++ be 1 cleared ++ be 4 s.gen.toNat) (clearLink s1)
  rebuildAnnotation (storeAbandon (laneOccurAll s2))

/-- RESTART (R211). -/
def execRestart (tag : Byte) (body : List Byte) (s : State) : Host.Outcome State Fault Refusal :=
  order 0x03 (lenIs 0) tag body (fun s => restartPart tag s) s

/-! ## Reset -/

/-- R197: the part right after the rise of RESET_N, the input pins as they stand; MON is told of the LANE conditions (R90). -/
def coldState (s : State) : State :=
  laneFollowAll { State.reset with
    acq := { Acq.cold with memEpoch := s.acq.memEpoch + 1, fresh := s.acq.fresh }
    panel := { Panel.cold with knobs := coldKnobs s.pins }
    pins := { s.pins with resetLow := false }
    pending := s.pending }

/-- COLD_RESET (R197): RESET_N rises. -/
def execColdReset (s : State) : Host.Outcome State Fault Refusal := .next (coldState s)

/-- RESET_N_LOW (R197): RESET_N falls, and the part does nothing while it is low. -/
def execResetNLow (s : State) : Host.Outcome State Fault Refusal :=
  .next { s with pins := { s.pins with resetLow := true } }

end Sys2Proof.Machine
end

