-- ==== Sys2Proof/Machine/Idle.lean ====
section
/-! DEFINITION. What the part does of its own while no command waits: the steps that are due, and the passing of a tick (log 2, log 4). -/

namespace Sys2Proof.Machine

/-- R202, R214: the row that dispatches a frame of the inbound queue. -/
def orderRow (f : Frame) : Instr :=
  match f.kind.toNat with
  | 0x01 => .ident f.tag f.body
  | 0x02 => .state f.tag f.body
  | 0x03 => .restart f.tag f.body
  | 0x08 => .fieldSet f.tag f.body
  | 0x09 => .fieldGet f.tag f.body
  | 0x0A => .setupRead f.tag f.body
  | 0x0B => .setupWrite f.tag f.body
  | 0x0C => .setupDefault f.tag f.body
  | 0x10 => .run f.tag f.body
  | 0x11 => .stop f.tag f.body
  | 0x12 => .single f.tag f.body
  | 0x13 => .force f.tag f.body
  | 0x14 => .segRead f.tag f.body
  | 0x15 => .waveRead f.tag f.body
  | 0x18 => .flagsPeek f.tag f.body
  | 0x19 => .flagsTake f.tag f.body
  | 0x1A => .flagsMask f.tag f.body
  | 0x20 => .draw f.tag f.body
  | 0x21 => .planesClear f.tag f.body
  | 0x22 => .textPut f.tag f.body
  | 0x23 => .textMove f.tag f.body
  | 0x24 => .textMark f.tag f.body
  | 0x25 => .textReturn f.tag f.body
  | 0x26 => .textErase f.tag f.body
  | 0x27 => .paletteSet f.tag f.body
  | 0x28 => .screen f.tag f.body
  | 0x2C => .panelKeybind f.tag f.body
  | 0x2D => .panelKnobbind f.tag f.body
  | 0x2E => .panelLed f.tag f.body
  | 0x2F => .panelLock f.tag f.body
  | 0x30 => .panelIdle f.tag f.body
  | 0x31 => .keysRead f.tag f.body
  | 0x32 => .knobsRead f.tag f.body
  | 0x36 => .slotSave f.tag f.body
  | 0x37 => .slotRecall f.tag f.body
  | 0x38 => .slotErase f.tag f.body
  | 0x39 => .slotProtect f.tag f.body
  | 0x3A => .slotList f.tag f.body
  | 0x3B => .busLend f.tag f.body
  | 0x3C => .busReturn f.tag f.body
  | 0x3F => .power f.tag f.body
  | _ => .orderBadKind f.kind f.tag f.body

/-- R202: the order at the head of the inbound queue is due when the answer queue has room. -/
def orderDue (s : State) : Option Instr := if answerRoom s then s.link.inbound.head?.map orderRow else none

/-- R106: the next entry of the draw list can be taken. -/
def drawStartDue (s : State) : Bool := s.raster.job.isNone && !s.raster.list.isEmpty

/-- R101: the job in progress has a column to hit. -/
def drawColumnDue (s : State) : Bool :=
  match s.raster.job with
  | some j => !j.todo.isEmpty && (segAt s j.seg).info.isSome
  | none => false

/-- R154: the first knob whose batch is in flight. -/
def batchDue (s : State) : Option (Fin 8) :=
  ((List.range 8).find? (fun n => (knobAt s n).inFlight)).map (Fin.ofNat 8)

/-- The steps of the part's own that may be due, in the order the model takes them on an empty queue (log 2). -/
def dueSteps (s : State) : List (Option Instr) :=
  let row := fun (due : Bool) (i : Instr) => if due then some i else none
  [orderDue s, row (readyDue s) .segmentReady, row (endDue s) .captureEnd, row (columnsDone s) .columnsLeftZero,
   row (intervalFull s && decide (s.acq.state ≠ .rolling)) (.pointWritten []),
   row (intervalFull s && decide (s.acq.state = .rolling)) (.rollColumn []), row (autoDue s) .autoTrigger,
   row (releaseDue s) .armAtRelease, row (drawStartDue s) .drawJobStart, row (drawColumnDue s) .drawColumn] ++
  [row (!s.acq.waves.isEmpty) .waveReadDone, (batchDue s).map .knobBatchResult, row (jobStartDue s) .storeJobStart,
   row (timedOut s) .flashStepTimeout, row (frameDue s) .frameEvent, row (idleDue s) .idleTimerExpiry]

/-- The first due step of the part's own (log 2). -/
def nextDue (s : State) : Option Instr := if s.pins.resetLow then none else (dueSteps s).findSome? id

/-- The rest of the present tick passes with the codes on the lines (log 4), then the scans of the new tick. -/
def passTick (s : State) : State := passCodes (List.replicate (8 - s.acq.nsPhase) s.pins.lanes) s

/-- The part with no command waiting and nothing due: nothing while RESET_N is low (R197), else a tick passes. -/
def idleTick (s : State) : Host.Outcome State Fault Refusal := codesRow passTick s

end Sys2Proof.Machine
end

