-- ==== Sys2Proof/Machine/Dispatch.lean ====
section
/-! DEFINITION. What each command does: one arm per constructor of Instr, one direct call of its meaning. -/

namespace Sys2Proof.Machine

def exec (i : Instr) (s : State) : Host.Outcome State Fault Refusal :=
  match i with
  | .coldReset => Sys2Proof.Machine.execColdReset s
  | .selectPeriodStart => Sys2Proof.Machine.execSelectPeriodStart s
  | .selectPeriodEnd bytes stray => Sys2Proof.Machine.execSelectPeriodEnd bytes stray s
  | .frameComplete bytes => Sys2Proof.Machine.execFrameComplete bytes s
  | .frameSent => Sys2Proof.Machine.execFrameSent s
  | .orderBadKind kind tag body => Sys2Proof.Machine.execOrderBadKind kind tag body s
  | .ident tag body => Sys2Proof.Machine.execIdent tag body s
  | .state tag body => Sys2Proof.Machine.execState tag body s
  | .restart tag body => Sys2Proof.Machine.execRestart tag body s
  | .fieldSet tag body => Sys2Proof.Machine.execFieldSet tag body s
  | .fieldGet tag body => Sys2Proof.Machine.execFieldGet tag body s
  | .setupRead tag body => Sys2Proof.Machine.execSetupRead tag body s
  | .setupWrite tag body => Sys2Proof.Machine.execSetupWrite tag body s
  | .setupDefault tag body => Sys2Proof.Machine.execSetupDefault tag body s
  | .run tag body => Sys2Proof.Machine.execRun tag body s
  | .stop tag body => Sys2Proof.Machine.execStop tag body s
  | .single tag body => Sys2Proof.Machine.execSingle tag body s
  | .force tag body => Sys2Proof.Machine.execForce tag body s
  | .segRead tag body => Sys2Proof.Machine.execSegRead tag body s
  | .waveRead tag body => Sys2Proof.Machine.execWaveRead tag body s
  | .waveReadDone => Sys2Proof.Machine.execWaveReadDone s
  | .armAtRelease => Sys2Proof.Machine.execArmAtRelease s
  | .pointWritten codes => Sys2Proof.Machine.execPointWritten codes s
  | .segmentReady => Sys2Proof.Machine.execSegmentReady s
  | .edgeTrigger codes => Sys2Proof.Machine.execEdgeTrigger codes s
  | .autoTrigger => Sys2Proof.Machine.execAutoTrigger s
  | .captureEnd => Sys2Proof.Machine.execCaptureEnd s
  | .laneConditionChange n lock => Sys2Proof.Machine.execLaneConditionChange n lock s
  | .rollColumn codes => Sys2Proof.Machine.execRollColumn codes s
  | .columnsLeftZero => Sys2Proof.Machine.execColumnsLeftZero s
  | .flagsPeek tag body => Sys2Proof.Machine.execFlagsPeek tag body s
  | .flagsTake tag body => Sys2Proof.Machine.execFlagsTake tag body s
  | .flagsMask tag body => Sys2Proof.Machine.execFlagsMask tag body s
  | .draw tag body => Sys2Proof.Machine.execDraw tag body s
  | .planesClear tag body => Sys2Proof.Machine.execPlanesClear tag body s
  | .drawJobStart => Sys2Proof.Machine.execDrawJobStart s
  | .drawColumn => Sys2Proof.Machine.execDrawColumn s
  | .frameEvent => Sys2Proof.Machine.execFrameEvent s
  | .textPut tag body => Sys2Proof.Machine.execTextPut tag body s
  | .textMove tag body => Sys2Proof.Machine.execTextMove tag body s
  | .textMark tag body => Sys2Proof.Machine.execTextMark tag body s
  | .textReturn tag body => Sys2Proof.Machine.execTextReturn tag body s
  | .textErase tag body => Sys2Proof.Machine.execTextErase tag body s
  | .paletteSet tag body => Sys2Proof.Machine.execPaletteSet tag body s
  | .screen tag body => Sys2Proof.Machine.execScreen tag body s
  | .keyPress key => Sys2Proof.Machine.execKeyPress key s
  | .keyRelease key => Sys2Proof.Machine.execKeyRelease key s
  | .keyRepeat key => Sys2Proof.Machine.execKeyRepeat key s
  | .knobDetent knob dir => Sys2Proof.Machine.execKnobDetent knob dir s
  | .knobBatchResult knob => Sys2Proof.Machine.execKnobBatchResult knob s
  | .idleTimerExpiry => Sys2Proof.Machine.execIdleTimerExpiry s
  | .panelKeybind tag body => Sys2Proof.Machine.execPanelKeybind tag body s
  | .panelKnobbind tag body => Sys2Proof.Machine.execPanelKnobbind tag body s
  | .panelLed tag body => Sys2Proof.Machine.execPanelLed tag body s
  | .panelLock tag body => Sys2Proof.Machine.execPanelLock tag body s
  | .panelIdle tag body => Sys2Proof.Machine.execPanelIdle tag body s
  | .keysRead tag body => Sys2Proof.Machine.execKeysRead tag body s
  | .knobsRead tag body => Sys2Proof.Machine.execKnobsRead tag body s
  | .slotSave tag body => Sys2Proof.Machine.execSlotSave tag body s
  | .slotRecall tag body => Sys2Proof.Machine.execSlotRecall tag body s
  | .slotErase tag body => Sys2Proof.Machine.execSlotErase tag body s
  | .slotProtect tag body => Sys2Proof.Machine.execSlotProtect tag body s
  | .slotList tag body => Sys2Proof.Machine.execSlotList tag body s
  | .busLend tag body => Sys2Proof.Machine.execBusLend tag body s
  | .busReturn tag body => Sys2Proof.Machine.execBusReturn tag body s
  | .storeJobStart => Sys2Proof.Machine.execStoreJobStart s
  | .flashReadPageEnd page => Sys2Proof.Machine.execFlashReadPageEnd page s
  | .flashProgramPageEnd => Sys2Proof.Machine.execFlashProgramPageEnd s
  | .flashEraseSectorEnd => Sys2Proof.Machine.execFlashEraseSectorEnd s
  | .flashStepTimeout => Sys2Proof.Machine.execFlashStepTimeout s
  | .power tag body => Sys2Proof.Machine.execPower tag body s
  | .lenAbove1024 bytes => Sys2Proof.Machine.execLenAbove1024 bytes s
  | .resetNLow => Sys2Proof.Machine.execResetNLow s

end Sys2Proof.Machine
end

