-- ==== Sys2Proof/Safety.lean ====
section
/-! DEFINITION. What the statements about the model speak of: an order ready for dispatch, its answer, arms and starts of runs, and
the properties every step keeps. -/

namespace Sys2Proof.Machine

/-! ## Orders -/

/-- R202: the order of a kind, a tag and a body can be dispatched: it stands at the head of the inbound queue, the answer
queue has room, and RESET_N is high. -/
abbrev Ready (kind tag : Byte) (body : List Byte) (s : State) : Prop :=
  s.pins.resetLow = false ∧ s.link.inbound.head? = some ⟨kind, tag, body⟩ ∧ answerRoom s = true

/-- The state with the order at the head of the inbound queue gone (R202) and its answer at the tail of the answer queue
(R203). -/
def answered (kind tag : Byte) (st : Status) (items : List Byte) (s : State) : State :=
  { s with link := { s.link with
      inbound := s.link.inbound.drop 1, answers := s.link.answers ++ [⟨kind + 0x80, tag, st.code :: items⟩] } }

/-- R214: the LEN values each order kind permits. -/
def permittedLen (kind len : Nat) : Bool :=
  if kind = 0x08 then len == 7 || len == 19
  else if kind = 0x09 then len == 2
  else if kind = 0x0B then len == 512
  else if kind = 0x14 then len == 1
  else if kind = 0x15 then len == 12
  else if kind = 0x1A then len == 10
  else if kind = 0x20 then len == 7
  else if kind = 0x21 then len == 1
  else if kind = 0x22 then decide (2 ≤ len) && decide (len ≤ 1001)
  else if kind = 0x23 then len == 2
  else if kind = 0x26 then len == 4
  else if kind = 0x27 then decide (5 ≤ len) && decide (len ≤ 50) && decide (len % 3 = 2)
  else if kind = 0x28 then len == 1
  else if kind = 0x2C then len == 4
  else if kind = 0x2D then len == 8
  else if kind = 0x2E then len == 3
  else if kind = 0x2F then len == 1
  else if kind = 0x30 then len == 1
  else if kind = 0x36 then len == 1 || len == 17
  else if kind = 0x37 then len == 1
  else if kind = 0x38 then len == 1
  else if kind = 0x39 then len == 2
  else if kind = 0x3F then len == 1
  else len == 0

/-! ## Codes and scans -/

/-- R140, R149: no scan falls while n codes pass: none of them ends a tick just before one whose number since cold reset
15,625 divides (log 17). -/
def NoScanFalls (n : Nat) (s : State) : Prop :=
  s.acq.nsPhase < 8 ∧ ∀ j, 1 ≤ j → j ≤ n → (s.acq.nsPhase + j) % 8 = 0 →
    (ticksSinceReset s + (s.acq.nsPhase + j) / 8) % 15625 ≠ 0

/-! ## Triggers -/

/-- R32, R49: what an accepted trigger of a kind and a tag leaves before anything follows from it: the record being worked, whose
fields were i, holds tag, kind and ring origin, the last trigger tag is this one and force pending is off. The acquisition state
CAPTURING is what CAPTURE_END asks for; with P = L the capture end (R50) follows at once. -/
def triggered (kind : TrigKind) (tag : Tick) (i : SegInfo) (s : State) : State :=
  { s with acq := { s.acq with
      state := .capturing
      forcePending := false
      lastTrig := some tag
      postCount := 0
      segs := tabSet (.free 0) s.acq.segs s.acq.cur { segAt s s.acq.cur with info := some { i with
        trigTag := some tag
        trigKind := some kind
        geo := { i.geo with origin := if i.geo.pre = 0 then 0 else s.acq.preCount % i.geo.pre } } } } }

/-! ## Arms -/

/-- R37, R58: the pin stands on the DONE record of segment j. -/
def PinnedRecord (j : Nat) (s : State) : Prop :=
  ∃ d, s.raster.job = some d ∧ d.seg = j ∧ (segAt s j).state = .done ∧ (segAt s j).serial = d.serial

/-- R38, R45: the arm of index k with segments of `size` bytes waits for the pin: the region meets the pinned one, or the pin stands
on the DONE record of index k itself (log 12). -/
def MeetsPin (k size : Nat) (s : State) : Prop :=
  PinnedRecord k s ∨ ∃ d, s.raster.job = some d ∧ d.lo < (k + 1) * size ∧ k * size < d.hi ∧ d.lo < d.hi

/-- R37: the DONE record of segment j becomes FREE at the arm of index k under g: it is not pinned, and the layout differs from the
previous arm's or its region shares a byte with the one armed. -/
def FreedByArm (k : Nat) (g : Geometry) (s : State) (j : Nat) : Prop :=
  (segAt s j).state = .done ∧ ¬ PinnedRecord j s ∧
  ((∃ l, s.acq.prevLayout = some l ∧ l ≠ ⟨g.len, g.interval, g.enabled, pointBytes g.mode⟩) ∨
    ∃ i, (segAt s j).info = some i ∧ j * i.geo.size < (k + 1) * g.size ∧ k * g.size < (j + 1) * i.geo.size)

/-- R57, R63: the start of a SEGMENTED run frees every DONE segment that is not pinned. -/
def FreedByRun (s : State) (j : Nat) : Prop := (segAt s j).state = .done ∧ ¬ PinnedRecord j s

/-- R44: segment j from s to t: FREE with its serial kept where it is freed, else as it was. -/
def FreedOrKept (freed : Nat → Prop) (s t : State) (j : Nat) : Prop :=
  (freed j → segAt t j = ⟨.free, (segAt s j).serial, none⟩) ∧ (¬ freed j → segAt t j = segAt s j)

/-- R44, R47: the fields of a record that an arm or an entry into ROLLING sets under a geometry. -/
def freshInfo (g : Geometry) (s : State) : SegInfo :=
  ⟨s.gen, g, s.acq.timeTag, none, none, 0, .const .empty, none, none⟩

/-- R47, R48: index k has been armed under g, from s to t: its record stands anew, PREFILL, or READY with P = 0, where a pending
force is taken at once (R56); primes, points and the interval in progress are gone, and the run goes on as it was. -/
def Armed (freed : Nat → Prop) (k : Nat) (g : Geometry) (s t : State) : Prop :=
  ∃ forced : Bool, (forced = true ↔ g.pre = 0 ∧ s.acq.forcePending = true) ∧
    t.acq.state = (if forced then .capturing else if g.pre = 0 then .waiting else .arming) ∧ t.acq.cur = k ∧
    segAt t k = ⟨if forced then .filling else if g.pre = 0 then .ready else .prefill, 0, some { freshInfo g s with
      trigTag := if forced then some s.acq.timeTag else none, trigKind := if forced then some .forced else none }⟩ ∧
    (∀ j, j ≠ k → FreedOrKept freed s t j) ∧
    t.acq.risePrime = false ∧ t.acq.fallPrime = false ∧ t.acq.points = [] ∧ t.acq.ivCount = 0 ∧ t.acq.preCount = 0 ∧
    t.acq.postCount = 0 ∧ t.acq.lastTrig = (if forced then some s.acq.timeTag else s.acq.lastTrig) ∧
    t.acq.forcePending = (s.acq.forcePending && !forced) ∧ (g.pre = 0 → t.acq.readyTick = s.acq.timeTag) ∧
    t.acq.prevLayout = some ⟨g.len, g.interval, g.enabled, pointBytes g.mode⟩ ∧ t.acq.mem = s.acq.mem ∧
    t.acq.single = s.acq.single ∧ t.acq.serialCounter = s.acq.serialCounter

/-- R38, R47, R64: an arm waits in HELD, from s to t: R37 has been applied, the ACQ note is entered, and no more of the run record
changes (the current index, 0, log 37). -/
def HeldForPin (freed : Nat → Prop) (s t : State) : Prop :=
  t.acq.state = .held ∧ t.acq.cur = 0 ∧ (∀ j, FreedOrKept freed s t j) ∧ (∃ e ∈ t.link.notes, e.src = .acq) ∧
  t.acq.points = s.acq.points ∧ t.acq.lastTrig = s.acq.lastTrig ∧ t.acq.forcePending = s.acq.forcePending ∧
  t.acq.prevLayout = s.acq.prevLayout ∧ t.acq.mem = s.acq.mem ∧ t.acq.single = s.acq.single ∧
  t.acq.serialCounter = s.acq.serialCounter

/-- R39: a roll geometry of a record; its depth index is a free value (log 8). -/
def IsRollGeometry (u : Setup) (g : Geometry) : Prop :=
  g.interval = 10 * timePerDiv u.tbase / 500 ∧ g.len = 500 ∧ g.pre = 0 ∧ g.mode = .peak ∧
  g.size = 500 * chanCount u.enabled * 2 ∧ g.enabled = u.enabled ∧ g.range = .ofFn u.range ∧ g.origin = 0

/-- R39, R60, R111: ROLLING has been entered under g, from s to t: segment 0 FILLING, 128 in every byte of its region, RASTER
cleared, force pending off, 500 columns left with single on, the ACQ note entered. -/
def RollEntered (g : Geometry) (s t : State) : Prop :=
  t.acq.state = .rolling ∧ t.acq.cur = 0 ∧ segAt t 0 = ⟨.filling, 0, some (freshInfo g s)⟩ ∧
  (∀ j, j ≠ 0 → FreedOrKept (FreedByArm 0 g s) s t j) ∧
  (∀ x, memByte t.acq.memEpoch t.acq.mem x =
    (if x < 500 * (2 * s.setup.enabled.members.length) then 128 else memByte s.acq.memEpoch s.acq.mem x)) ∧
  t.acq.runKind = .roll ∧ t.acq.columnsLeft = (if s.acq.single then 500 else s.acq.columnsLeft) ∧ t.acq.forcePending = false ∧
  t.acq.points = [] ∧ t.acq.ivCount = 0 ∧ t.acq.rollCount = 0 ∧ t.acq.lastTrig = s.acq.lastTrig ∧ t.acq.single = s.acq.single ∧
  t.acq.serialCounter = s.acq.serialCounter ∧
  t.acq.prevLayout = some ⟨500, 10 * timePerDiv s.setup.tbase / 500, s.setup.enabled, 2⟩ ∧
  t.raster = ⟨.const [], [], none, none, 0, false⟩ ∧ (∃ e ∈ t.link.notes, e.src = .acq)

/-- R38, R47: an arm of index k under the present record, from s to t: it takes place, or waits in HELD. -/
def ArmedOrHeld (k : Nat) (s t : State) : Prop :=
  (¬ MeetsPin k s.setup.geometry.size s → Armed (FreedByArm k s.setup.geometry s) k s.setup.geometry s t) ∧
  (MeetsPin k s.setup.geometry.size s → HeldForPin (FreedByArm k s.setup.geometry s) s t)

/-- R57, R58, R60: the next start, re-arm or release of a REPEAT run, from s to t: a roll under the roll conditions, else an arm by
the buffer choice; while either waits in HELD the run kind is REPEAT (log 13). -/
def RepeatArmed (s t : State) : Prop :=
  t.acq.countDone = s.acq.countDone ∧ t.acq.lastDone = s.acq.lastDone ∧ t.acq.runIndex = s.acq.runIndex ∧
  (s.setup.roll = true ∧ s.setup.runmode = .repeats ∧ 21 ≤ s.setup.tbase → ∃ g, IsRollGeometry s.setup g ∧
    (¬ MeetsPin 0 g.size s → RollEntered g s t) ∧
    (MeetsPin 0 g.size s → HeldForPin (FreedByArm 0 g s) s t ∧ t.acq.runKind = .repeats)) ∧
  (¬ (s.setup.roll = true ∧ s.setup.runmode = .repeats ∧ 21 ≤ s.setup.tbase) →
    t.acq.runKind = .repeats ∧ ArmedOrHeld (bufferChoice s) s t)

/-- R57, R63: a run has been started under the present record, from s to t: a REPEAT run as above, or a SEGMENTED run at segment 0
with the DONE segments that are not pinned FREE, count done 0 and last DONE absent. -/
def RunStarted (s t : State) : Prop :=
  (s.setup.runmode = .repeats → RepeatArmed s t) ∧
  (s.setup.runmode = .segmented → t.acq.runKind = .segmented ∧ t.acq.runIndex = 0 ∧ t.acq.countDone = 0 ∧
    t.acq.lastDone = none ∧
    (¬ MeetsPin 0 s.setup.geometry.size s → Armed (FreedByRun s) 0 s.setup.geometry s t) ∧
    (MeetsPin 0 s.setup.geometry.size s → HeldForPin (FreedByRun s) s t))

/-! ## Properties that every step keeps -/

/-- R8: a number lies in a field's range or a code in its set. -/
def fits (kind : FieldKind) (v : Int) : Bool :=
  match kind with
  | .numeric lo hi => decide (lo ≤ v) && decide (v ≤ hi)
  | .coded count => decide (0 ≤ v) && decide (v < count)
  | .limit | .text => true

/-- R5: a present threshold is a signed 32-bit value. -/
def thresholdOk : Option Int → Bool
  | none => true
  | some v => decide (-2147483648 ≤ v) && decide (v ≤ 2147483647)

/-- R8: each field of a record is within its stated range or set, NAME of 16 printable characters (R6). -/
def SetupInRange (u : Setup) : Prop :=
  (∀ n f, fits (ChanField.kind f) ((u.ch.get n).getNum f) = true) ∧
  (∀ f, fits (DevField.kind f) (u.getNum f) = true) ∧
  (∀ n q t, thresholdOk (((u.ch.get n).limits.get q).get t) = true) ∧
  u.name.length = 16 ∧ u.name.all printable = true

/-- R167: the pages that a classification of the running job has read are pages of 256 bytes. -/
def PagesOk (s : State) : Prop :=
  ∀ r why pages, s.store.running = some r → r.phase = .classify why pages → ∀ p ∈ pages, p.length = 256

/-- R205: the note list holds no two entries for the same source. -/
abbrev NotesOk (s : State) : Prop := (s.link.notes.map NoteEntry.src).Nodup

/-- R201, R203: the inbound queue holds at most 4 orders; answers held and places kept number at most 8. -/
abbrev QueuesOk (s : State) : Prop := s.link.inbound.length ≤ 4 ∧ s.link.answers.length + owed s ≤ 8

/-- R46: the run kind is NONE exactly while ACQ is STOPPED. -/
abbrev RunOk (s : State) : Prop := s.acq.runKind = .idle ↔ s.acq.state = .stopped

/-- The list of segment records is in its one form: each index at most once, in rising order. -/
abbrev SegTableOk (s : State) : Prop := tabRising s.acq.segs = true

/-- The acquisition memory is in its canonical form (R34). -/
abbrev MemoryOk (s : State) : Prop := Memory.wf s.acq.mem = true

/-- A plane lists each pixel at most once, in rising order, and none outside its 500 × 400 pixels (R93). -/
def PlaneOk (p : List (Nat × Byte)) : Prop := tabRising p = true ∧ ∀ e ∈ p, e.1 < 200000

/-- The four planes are in their one form, and the column numbers RASTER keeps lie in 0..499 (R101, R112). -/
def RasterOk (s : State) : Prop :=
  (∀ n, PlaneOk (s.raster.planes.get n)) ∧ s.raster.writeCol < 500 ∧ (∀ j, s.raster.job = some j → j.nextCol < 500)

/-- The cursor and the mark are cell positions (R131), the palette holds 16 entries (R124), the annotation's two rows have 100
cells each (R135), and the text plane lists each cell at most once, in rising order. -/
abbrev ScreenOk (s : State) : Prop :=
  s.compose.cursor.col < 100 ∧ s.compose.cursor.row < 30 ∧ s.compose.mark.col < 100 ∧ s.compose.mark.row < 30 ∧
  s.compose.palette.length = 16 ∧ s.compose.annot0.length = 100 ∧ s.compose.annot29.length = 100 ∧
  tabRising s.compose.text = true

/-- The key event FIFO holds at most 16 events (R144) and the key binding table at most 16 entries (R146); keys, knobs, lamps
and bindings are listed at most once each, in rising order. -/
abbrev PanelOk (s : State) : Prop :=
  s.panel.fifo.length ≤ 16 ∧ s.panel.bindings.length ≤ 16 ∧ tabRising s.panel.keys = true ∧
  tabRising s.panel.knobs = true ∧ tabRising s.panel.lamps = true ∧ tabRising s.panel.bindings = true

/-- R65: in STANDBY ACQ stays STOPPED. -/
abbrev StandbyStopped (s : State) : Prop := s.power.state = .standby → s.acq.state = .stopped

end Sys2Proof.Machine
end

