-- ==== Sys2Proof/Certificates/Slice0/Obligations.lean ====
section
/-! DEFINITION. The statements about the model, for the provers. -/

open Sys2Proof Sys2Proof.Machine

/-! ## The step and reset -/

/-- A step of a state with a command at the front of its queue is exec of that command on the state with the queue's rest.
(The queue is the model's own, log 2.) -/
def Obligations.StepRunsFrontCommand : Prop :=
  ∀ (c : Instr) (rest : List Instr) (s : State), s.pending = c :: rest → step s = exec c { s with pending := rest }

/-- R42: with no command waiting and nothing due, a step lets the rest of the present tick pass: the time tag advances by one
(that a step on an empty queue lets a tick pass is the model's choice, log 2). R42, R140, R149: codes pass one by one: each
counts a nanosecond, the eighth begins a tick, and the wraps of the time tag are counted; a tick whose number since cold
reset 15,625 divides begins with a sample of the knobs' lines, knobs 0 to 7, and one whose number 125,000 divides goes on
with a scan of the keys in increasing id, the transitions before the repeats (knobs before keys, knobs in this order, and the
count from cold reset on, is the model's choice, log 17). With nothing waiting and nothing due a step is the passing of the
codes on the lines up to the next tick (log 2, log 4). -/
def Obligations.IdleStepAdvancesTimeTag : Prop :=
  (∀ s : State, s.pending = [] → nextDue s = none → s.pins.resetLow = false → captureExists s = true →
    s.acq.nsPhase < 8 → ∃ t, step s = .next t ∧ t.acq.timeTag = s.acq.timeTag + 1 ∧ t.acq.nsPhase = 0) ∧
  ((∀ (x : Sample) (s : State), s.acq.nsPhase < 8 →
    (takeCode s x).acq.nsPhase = (s.acq.nsPhase + 1) % 8 ∧
    (takeCode s x).acq.timeTag = (if s.acq.nsPhase = 7 then s.acq.timeTag + 1 else s.acq.timeTag) ∧
    (takeCode s x).acq.wraps =
      (if s.acq.nsPhase = 7 ∧ s.acq.timeTag = 0xFFFFFFFFFFFF#48 then s.acq.wraps + 1 else s.acq.wraps)) ∧
  (∀ (x : Sample) (s t : State) (ticks : Nat), t = takeCode s x → ticks = t.acq.wraps * 2 ^ 48 + t.acq.timeTag.toNat →
    (t.acq.nsPhase ≠ 0 ∨ ticks % 15625 ≠ 0 → passCode s x = t) ∧
    (t.acq.nsPhase = 0 → ticks % 15625 = 0 → ticks % 125000 ≠ 0 → passCode s x = (List.range 8).foldl scanKnob t) ∧
    (t.acq.nsPhase = 0 → ticks % 125000 = 0 →
      passCode s x = (List.range 64).foldl scanRepeat ((List.range 64).foldl scanKey ((List.range 8).foldl scanKnob t)))) ∧
  (∀ (xs : List Sample) (s : State), s.pins.resetLow = false → captureExists s = true →
    exec (.edgeTrigger xs) s = .next (xs.foldl passCode s)) ∧
  (∀ s : State, s.pending = [] → nextDue s = none → s.pins.resetLow = false → captureExists s = true →
    step s = exec (.edgeTrigger (List.replicate (8 - s.acq.nsPhase) s.pins.lanes)) s))

/-- R197: at the rise of RESET_N every block takes its cold reset values: those of R26, R42, R46, R69 and R70 for ACQ, R90
for MON, R116 for RASTER, R118, R124, R128, R134, R135 and R139 for COMPOSE, R149 and R162 for PANEL, R170 and R187 for
STORE, R188 for POWER and R212 for LINK; the LANE flag of CH1 latches when LANE1_LOCK is low (R90). That COLD_RESET acts
whatever the level of RESET_N was before, with the other pins as they stand, is the model's choice (log 34), and so are the
nanosecond within the tick, 0, the start tick of the idle timer and of the first flash step, 0 (log 37), and the last sample
of each knob line, its level (log 43). The waiting commands are the model's own and stay. -/
def Obligations.ColdResetGivesColdValues : Prop :=
  ∀ s : State, ∃ t, exec .coldReset s = .next t ∧
    t.setup = .default ∧ t.gen = 0 ∧
    t.acq.state = .stopped ∧ t.acq.runKind = .idle ∧ t.acq.segs = [] ∧ t.acq.serialCounter = 0 ∧ t.acq.timeTag = 0 ∧
    t.acq.wraps = 0 ∧ t.acq.nsPhase = 0 ∧ t.acq.held = .const 128 ∧ t.acq.lastTrig = none ∧ t.acq.lastDone = none ∧
    t.acq.countDone = 0 ∧ t.acq.single = false ∧ t.acq.runIndex = 0 ∧ t.acq.columnsLeft = 0 ∧ t.acq.forcePending = false ∧
    t.acq.risePrime = false ∧ t.acq.fallPrime = false ∧ t.acq.points = [] ∧ t.acq.prevLayout = none ∧
    t.acq.waves = [] ∧ t.acq.mem = [] ∧
    t.mon.mask = 0 ∧ t.mon.latched = t.mon.current ∧
    t.mon.current = (if s.pins.lock.c1 then 0 else flagBit (laneFlag .ch1)) ∧
    t.raster.planes = .const [] ∧ t.raster.list = [] ∧ t.raster.job = none ∧ t.raster.view = none ∧
    t.raster.writeCol = 0 ∧ t.raster.wrapped = false ∧
    t.compose.duty = 646 ∧ t.compose.owned = true ∧ t.compose.cursor = ⟨0, 0⟩ ∧ t.compose.mark = ⟨0, 0⟩ ∧
    t.compose.mode = .normal ∧ t.compose.startCol = 0 ∧ t.compose.annot0 = annotRow0 .default .stopped ∧
    t.compose.annot29 = annotRow29 .default ∧ t.compose.frameTimer = some (0, 0) ∧
    t.compose.palette = [⟨0, 0, 0⟩, ⟨255, 255, 0⟩, ⟨0, 255, 255⟩, ⟨255, 0, 255⟩, ⟨0, 255, 0⟩, ⟨255, 255, 255⟩,
      ⟨128, 128, 128⟩, ⟨255, 0, 0⟩, ⟨64, 128, 255⟩, ⟨255, 160, 0⟩, ⟨128, 0, 0⟩, ⟨0, 128, 0⟩, ⟨0, 0, 128⟩, ⟨128, 128, 0⟩,
      ⟨0, 128, 128⟩, ⟨128, 0, 128⟩] ∧
    t.compose.frame = {
      color := ⟨1, 2, 3, 4⟩, tbright := 32, gbright := 20, grat := .full, orient := .normal
      curV1 := 100, curV2 := 400, curH1 := 100, curH2 := 300, curShow := .hidden, annot := true
      blratio := 4, bllevel := 32, palette := t.compose.palette, mode := .normal } ∧
    (∀ k, k < 3000 → cellAt t.compose.text k = ⟨if k < 100 then t.compose.annot0.getD k 0x20
      else if 2900 ≤ k then t.compose.annot29.getD (k - 2900) 0x20 else 0x20, 5⟩) ∧
    t.panel.keys = [] ∧ t.panel.fifo = [] ∧ t.panel.bindings = [] ∧ t.panel.lamps = [] ∧ t.panel.standbyMode = .off ∧
    t.panel.lock = false ∧ t.panel.idleMinutes = 0 ∧ t.panel.idleStart = 0 ∧
    (∀ (n : Fin 8) (a b : Bool), a = s.pins.encA.getLsbD n.val → b = s.pins.encB.getLsbD n.val →
      knobAt t n.val = ⟨a, b, a, b, 0, none, 0, 0, false, none⟩) ∧
    t.store.dir = [] ∧ t.store.queue = [] ∧ t.store.running = none ∧ t.store.scan = some ⟨0, [], false⟩ ∧
    t.store.step = some ⟨.readPage, 0, 0⟩ ∧ t.store.bus = .owned ∧ t.store.withheld = none ∧ t.store.autosaves = [] ∧
    t.store.last = none ∧
    t.power = ⟨.on, false, .none⟩ ∧
    t.link.inbound = [] ∧ t.link.answers = [] ∧ t.link.partly = none ∧ t.link.gathered = [] ∧
    t.link.inPeriod = false ∧ t.link.clocked = ⟨0, 0⟩ ∧ t.link.sending = none ∧
    t.link.notes = (if s.pins.lock.c1 then [] else [⟨.flags, none, false⟩]) ∧
    t.pins = { s.pins with resetLow := false } ∧ t.pending = s.pending

/-- R197: RESET_N low is a level of the pin and nothing else, and while it is low every command changes nothing, orders,
codes rows and the part's own steps alike, and so does a step with no command waiting; but for COLD_RESET, the rise, and
RESET_N_LOW, and for the rows that stand for a level of another input pin, which move that pin and nothing else (that these
pins are still followed is the model's choice, log 34, log 41). -/
def Obligations.ResetLowHoldsThePart : Prop :=
  (∀ s : State, exec .resetNLow s = .next { s with pins := { s.pins with resetLow := true } }) ∧
  (∀ (c : Instr) (s : State), s.pins.resetLow = true → c ≠ .coldReset → c ≠ .resetNLow → c ≠ .selectPeriodStart →
    (∀ bytes stray, c ≠ .selectPeriodEnd bytes stray) → (∀ n lock, c ≠ .laneConditionChange n lock) →
    (∀ k, c ≠ .keyPress k ∧ c ≠ .keyRelease k) → (∀ n d, c ≠ .knobDetent n d) → exec c s = .next s) ∧
  (∀ s : State, s.pins.resetLow = true → s.pending = [] → step s = .next s) ∧
  (∀ s : State, s.pins.resetLow = true →
    exec .selectPeriodStart s = .next { s with pins := { s.pins with linkSelLow := true } } ∧
    (∀ bytes stray, exec (.selectPeriodEnd bytes stray) s = .next { s with pins := { s.pins with linkSelLow := false } }) ∧
    (∀ n lock, exec (.laneConditionChange n lock) s = .next { s with pins := { s.pins with lock := s.pins.lock.set n lock } }) ∧
    (∀ k, exec (.keyPress k) s = .next { s with pins := { s.pins with keys := s.pins.keys ||| BitVec.twoPow 64 k.val } }) ∧
    (∀ k, exec (.keyRelease k) s =
      .next { s with pins := { s.pins with keys := s.pins.keys &&& ~~~(BitVec.twoPow 64 k.val) } }) ∧
    (∀ n d, exec (.knobDetent n d) s = .next { s with pins := { s.pins with
      encA := s.pins.encA ||| BitVec.twoPow 8 n.val, encB := s.pins.encB ||| BitVec.twoPow 8 n.val } }))

/-! ## LINK: frames -/

/-- R200: one bit into the CRC register: it shifts left with a 0 entering at the bottom, and 0x1021 is added without carry
when the register's top bit differed from the incoming bit; the register starts at 0xFFFF and takes KIND, TAG, LEN and BODY,
each byte most significant bit first; CHECK carries it most significant byte first; an inbound CHECK is compared with it, and
an outbound frame carries it. -/
def Obligations.CrcFollowsThePolynomial : Prop :=
  (∀ (r : BitVec 16) (b : Bool), crcBit r b = if r.msb = b then r <<< 1 else (r <<< 1) ^^^ 0x1021#16) ∧
  crcOf [] = 0xFFFF#16 ∧
  (∀ (bs : List Byte) (b : Byte), crcOf (bs ++ [b]) =
    crcBit (crcBit (crcBit (crcBit (crcBit (crcBit (crcBit (crcBit (crcOf bs) (b.getLsbD 7)) (b.getLsbD 6)) (b.getLsbD 5))
      (b.getLsbD 4)) (b.getLsbD 3)) (b.getLsbD 2)) (b.getLsbD 1)) (b.getLsbD 0)) ∧
  (∀ f : Frame, f.body.length ≤ 1024 → ∃ (l c : BitVec 16), l.toNat = f.body.length ∧
    c = crcOf ([f.kind, f.tag, l.extractLsb' 8 8, l.extractLsb' 0 8] ++ f.body) ∧
    frameBytes f = [f.kind, f.tag, l.extractLsb' 8 8, l.extractLsb' 0 8] ++ f.body ++ [c.extractLsb' 8 8, c.extractLsb' 0 8] ∧
    (∀ x : BitVec 16, checkMatches ([f.kind, f.tag, l.extractLsb' 8 8, l.extractLsb' 0 8] ++ f.body ++
      [x.extractLsb' 8 8, x.extractLsb' 0 8]) = decide (x = c)) ∧
    ∀ s, s.link.sending = some ⟨none, f, false⟩ → linkOutByte s = (frameBytes f).getD s.link.clocked.bytes 0)

/-- R199, R201, R202: a whole frame whose CHECK matches, arriving from byte 0 of a period, is taken: into the inbound queue
while it holds fewer than 4 orders; else with a BUSY answer while the answer queue has room (for a kind below 0x80, whose
answer kind R203 gives); else it is discarded and LINK_DISCARD occurs. The first two make the current LINK_DISCARD flag
false. As many bytes are clocked (R198; c, spelled in O9); that an outbound frame that ends with the same byte leaves first,
so that its answer makes room, is the model's choice (log 46). -/
def Obligations.CheckedFrameIsTaken : Prop :=
  ∀ (f : Frame) (s c : State), s.pins.resetLow = false → s.link.inPeriod = true → s.link.ignoring = false →
    s.link.gathered = [] → f.kind ≠ 0 → f.body.length ≤ 1024 → c = clockNext (6 + f.body.length) s →
    (s.link.inbound.length < 4 → exec (.frameComplete (frameBytes f)) s = .next { c with
      link := { c.link with inbound := s.link.inbound ++ [f], ignoring := true }
      mon := { s.mon with current := s.mon.current &&& ~~~(flagBit flagLinkDiscard) } }) ∧
    (4 ≤ s.link.inbound.length → answerRoom c = true → f.kind.toNat < 0x80 →
      exec (.frameComplete (frameBytes f)) s = .next { c with
        link := { c.link with answers := c.link.answers ++ [⟨f.kind + 0x80, f.tag, [0x10]⟩], ignoring := true }
        mon := { s.mon with current := s.mon.current &&& ~~~(flagBit flagLinkDiscard) } }) ∧
    (4 ≤ s.link.inbound.length → answerRoom c = false →
      ∃ t, exec (.frameComplete (frameBytes f)) s = .next t ∧ t.link.inbound = s.link.inbound ∧
        t.link.answers = c.link.answers ∧ t.mon.mask = s.mon.mask ∧
        t.mon.current = s.mon.current ||| flagBit flagLinkDiscard ∧
        t.mon.latched = s.mon.latched ||| flagBit flagLinkDiscard)

/-- R199: the three discards. LEN above 1024 at byte 3, a complete frame whose CHECK differs, and a frame incomplete when
LINK_SEL rises, the bytes that the rise's row carries among its bytes: the gathered bytes are discarded without answer,
LINK_DISCARD occurs, and nothing else is changed but the FLAGS note (R83) and, with the inbound bytes, the clocks that carry
them (R198, clockNext, spelled in O9). -/
def Obligations.DiscardedFrameLeavesOnlyTheFlag : Prop :=
  (∀ (a b : Byte) (len : Nat) (s : State), s.pins.resetLow = false → s.link.inPeriod = true → s.link.ignoring = false →
    s.link.gathered = [] → a ≠ 0 → 1024 < len → len < 65536 →
    exec (.lenAbove1024 ([a, b] ++ be 2 len)) s =
      .next (monOccur (flagBit flagLinkDiscard) { clockNext 4 s with link := { (clockNext 4 s).link with
        gathered := [], ignoring := true } })) ∧
  (∀ (f : Frame) (c : BitVec 16) (s : State), s.pins.resetLow = false → s.link.inPeriod = true → s.link.ignoring = false →
    s.link.gathered = [] → f.kind ≠ 0 → f.body.length ≤ 1024 → c ≠ crcOf (frameHead f) →
    exec (.frameComplete (frameHead f ++ be 2 c.toNat)) s =
      .next (monOccur (flagBit flagLinkDiscard) { clockNext (6 + f.body.length) s with link := {
        (clockNext (6 + f.body.length) s).link with gathered := [], ignoring := true } })) ∧
  (∀ (stray : List Bool) (s : State), s.pins.resetLow = false → s.pins.linkSelLow = true → s.link.inPeriod = true →
    s.link.gathered ≠ [] →
    ∃ t, exec (.selectPeriodEnd [] stray) s = .next t ∧ t.mon.latched = s.mon.latched ||| flagBit flagLinkDiscard ∧
      t.mon.current = s.mon.current ||| flagBit flagLinkDiscard ∧ t.mon.mask = s.mon.mask ∧
      t.link.inbound = s.link.inbound ∧ t.link.answers = s.link.answers ∧ t.link.gathered = [] ∧ t.link.inPeriod = false ∧
      t.setup = s.setup ∧ t.gen = s.gen ∧ t.acq = s.acq ∧ t.raster = s.raster ∧ t.compose = s.compose ∧
      t.panel = s.panel ∧ t.store = s.store ∧ t.power = s.power) ∧
  (∀ (bytes all : List Byte) (stray : List Bool) (s c : State), s.pins.resetLow = false → s.pins.linkSelLow = true →
    s.link.inPeriod = true → s.link.ignoring = false → bytes ≠ [] → all = s.link.gathered ++ bytes → all.head? ≠ some 0 →
    (all.length < 4 ∨ natOf ((all.drop 2).take 2) ≤ 1024 ∧ all.length < 6 + natOf ((all.drop 2).take 2)) →
    c = clockNext bytes.length s →
    ∃ t, exec (.selectPeriodEnd bytes stray) s = .next t ∧ t.mon.latched = s.mon.latched ||| flagBit flagLinkDiscard ∧
      t.mon.current = s.mon.current ||| flagBit flagLinkDiscard ∧ t.mon.mask = s.mon.mask ∧
      t.link.inbound = s.link.inbound ∧ t.link.answers = c.link.answers ∧ t.link.gathered = [] ∧ t.link.inPeriod = false ∧
      t.link.partly = (match c.link.sending with | some o => if o.gone then none else some o | none => none) ∧
      t.pins = { s.pins with linkSelLow := false } ∧
      t.setup = s.setup ∧ t.gen = s.gen ∧ t.acq = s.acq ∧ t.raster = s.raster ∧ t.compose = s.compose ∧
      t.panel = s.panel ∧ t.store = s.store ∧ t.power = s.power)

/-- R207: the choice at the fall of LINK_SEL: a partly sent frame, else the oldest answer, else the head note with its body
built now (or as it was built), else nothing. R206, R214, R217: the kind of each source's note, and its body, built from the
state as it stands: PANEL the number of key events; KNOBn its accumulator; ACQ the state word, last DONE and count done;
FLAGS the summary and the latched set; STORE the last finished record, the job count, the bus state, readiness and the wanted
indication; POWER the power state, the cause of the last move and the run-at-wake memory. -/
def Obligations.PeriodStartChoosesTheFrame : Prop :=
  (∀ s : State, s.pins.resetLow = false → s.pins.linkSelLow = false → ∃ t, exec .selectPeriodStart s = .next t ∧
    t.link.inPeriod = true ∧ t.link.gathered = [] ∧ t.link.ignoring = false ∧ t.link.clocked = ⟨0, 0⟩ ∧ t.pins = { s.pins with linkSelLow := true } ∧
    t.link.inbound = s.link.inbound ∧ t.link.answers = s.link.answers ∧
    t.setup = s.setup ∧ t.acq = s.acq ∧ t.mon = s.mon ∧ t.store = s.store ∧ t.power = s.power ∧
    (∀ o, s.link.partly = some o → t.link.sending = some o ∧ t.link.notes = s.link.notes) ∧
    (∀ f r, s.link.partly = none → s.link.answers = f :: r →
      t.link.sending = some ⟨none, f, false⟩ ∧ t.link.notes = s.link.notes) ∧
    (∀ e r, s.link.partly = none → s.link.answers = [] → s.link.notes = e :: r →
      t.link.sending = some ⟨some e.src, ⟨noteKind e.src, 0, e.built.getD (noteBody s e.src)⟩, false⟩ ∧
      t.link.notes = { e with built := some (e.built.getD (noteBody s e.src)) } :: r) ∧
    (∀ (n : Fin 8) e r, s.link.partly = none → s.link.answers = [] → s.link.notes = e :: r → e.src = .knob n →
      e.built = none → (knobAt t n.val).acc = 0 ∧ ∀ k, k ≠ n.val → knobAt t k = knobAt s k) ∧
    (s.link.partly = none → s.link.answers = [] → s.link.notes = [] → t.link.sending = none ∧ t.link.notes = [])) ∧
  (∀ s : State,
    [NoteSource.panel, .acq, .flags, .store, .power].map noteKind = [0x40, 0x49, 0x4A, 0x4B, 0x4C] ∧
    (∀ n : Fin 8, (noteKind (.knob n)).toNat = 0x41 + n.val) ∧
    noteBody s .panel = be 1 s.panel.fifo.length ∧
    (∀ n : Fin 8, noteBody s (.knob n) = beInt 2 (knobAt s n.val).acc) ∧
    noteBody s .acq =
      [match s.acq.state with
       | .stopped => (0 : Byte) | .arming => 1 | .waiting => if s.setup.tmode = .auto then 3 else 2 | .capturing => 4
       | .held => 5 | .rolling => 6] ++
      (match s.acq.lastDone with | some (k, x) => [1] ++ be 1 k ++ be 4 x.toNat | none => List.replicate 6 0) ++
      be 4 s.acq.countDone.toNat ∧
    noteBody s .flags = [if s.mon.latched &&& ~~~s.mon.mask = 0 then (0 : Byte) else 1] ++ flagSetBytes s.mon.latched ∧
    noteBody s .store =
      (match s.store.last with
       | some r => [1, (match r.slot with | some k => BitVec.ofNat 8 k | none => 0xFF),
           (match r.kind with
            | .save => (0 : Byte) | .recall => 1 | .erase => 2 | .protectOn => 3 | .protectOff => 4 | .scan => 5),
           (match r.result with
            | .done => (0 : Byte) | .empty => 1 | .corrupt => 2 | .prot => 3 | .failed => 4 | .abandoned => 5 | .skipped => 6)]
       | none => [0, 0, 0, 0]) ++ be 1 s.store.queue.length ++
      [match s.store.bus with | .owned => (0 : Byte) | .lending => 1 | .lent => 2,
       if s.store.scan = none then 1 else 0,
       if s.store.bus = .lent ∧ (s.store.queue ≠ [] ∨ s.store.scan ≠ none) then 1 else 0] ∧
    noteBody s .power =
      [match s.power.state with | .on => (0 : Byte) | .dark => 1 | .standby => 2,
       match s.power.cause with | .none => (0 : Byte) | .order => 1 | .idle => 2 | .panelWake => 3 | .keyWake => 4,
       if s.power.runAtWake then 1 else 0])

/-- R198, R205, R207: a period clocked up to n bytes counts them, and a frame with its last byte among them leaves: an answer
its queue; a note the list, entering anew at the tail when it carries the again mark; one whose entry a RESTART has removed
nothing (R211). Each clock carries a bit both ways: inbound bytes are clocked on from those taken before, and FRAME_SENT
clocks the period up to its frame's last byte (that it leaves the inbound bytes beside them to the next row that carries them
is the model's choice, log 33). With the inbound side ignored, and at a byte 0 of 0x00, from which on it is ignored, inbound
bytes do nothing else; LINK_SEL's rise after the last byte leaves no frame partly sent. R207: a period that ends before the
last byte of its frame has been clocked out keeps the frame partly sent, in its queue or list, and the next period sends it
whole, from byte 0; bits after the last whole byte count for nothing (R198). R198, R208, R212: LINK_OUT is driven from the
fall of LINK_SEL to its rise and at high impedance otherwise: it presents the byte that follows those clocked so far, most
significant bit first, of the frame that LINK sends from byte 0 on, and 0x00 after that frame and without one. A rise of
RESET_N with LINK_SEL low begins no select period; LINK_OUT is driven all the same (that it presents 0x00 then is read from
R198, log 48). (That the outputs and the end of a period go on as stated while RESET_N is low is the model's choice, log 34.)
ATTN is low exactly while the answer queue or the note list holds something: a frame partly sent keeps it low, and the frame
that empties both lets it go high. -/
def Obligations.FrameLeavesOrIsSentAgain : Prop :=
  ((∀ (n m : Nat) (s : State), m = Nat.max s.link.clocked.bytes n →
    (s.link.sending = none ∨ (∃ o, s.link.sending = some o ∧ m < 6 + o.frame.body.length) →
      clockTo n s = { s with link := { s.link with clocked := ⟨m, s.link.clocked.taken⟩ } }) ∧
    (∀ o, s.link.sending = some o → 6 + o.frame.body.length ≤ m →
      (o.gone = true → clockTo n s = { s with link := { s.link with
        clocked := ⟨m, s.link.clocked.taken⟩, sending := none } }) ∧
      (o.gone = false → o.note = none → clockTo n s = { s with link := { s.link with
        clocked := ⟨m, s.link.clocked.taken⟩, sending := none, answers := s.link.answers.drop 1 } }) ∧
      (∀ src e r, o.gone = false → o.note = some src → s.link.notes = e :: r → e.src = src → (∀ x ∈ r, x.src ≠ src) →
        clockTo n s = { s with link := { s.link with
          clocked := ⟨m, s.link.clocked.taken⟩, sending := none
          notes := if e.again then r ++ [⟨src, none, false⟩] else r } }))) ∧
  (∀ (n : Nat) (s : State), clockNext n s = clockTo (s.link.clocked.taken + n)
    { s with link := { s.link with clocked := ⟨s.link.clocked.bytes, s.link.clocked.taken + n⟩ } }) ∧
  (∀ s : State, s.pins.resetLow = false → s.link.inPeriod = true →
    (∀ o, s.link.sending = some o → exec .frameSent s = .next (clockTo (6 + o.frame.body.length) s)) ∧
    (s.link.sending = none → exec .frameSent s = .next s)) ∧
  (∀ (bytes : List Byte) (c : Instr) (s : State), s.pins.resetLow = false → s.link.inPeriod = true → bytes ≠ [] →
    c ∈ [Instr.frameComplete bytes, .lenAbove1024 bytes] →
    (∃ t, exec c s = .next t ∧ t.link.clocked = (clockNext bytes.length s).link.clocked ∧ t.link.inPeriod = true ∧
      t.link.sending = (clockNext bytes.length s).link.sending) ∧
    (s.link.ignoring = true → exec c s = .next (clockNext bytes.length s)) ∧
    (s.link.ignoring = false → s.link.gathered = [] → bytes.head? = some 0 → exec c s = .next
      { clockNext bytes.length s with link := { (clockNext bytes.length s).link with ignoring := true } })) ∧
  (∀ (bytes : List Byte) (stray : List Bool) (o : Outgoing) (s : State), s.pins.resetLow = false → s.pins.linkSelLow = true →
    s.link.inPeriod = true → bytes ≠ [] → s.link.sending = some o →
    6 + o.frame.body.length ≤ s.link.clocked.taken + bytes.length →
    ∃ t, exec (.selectPeriodEnd bytes stray) s = .next t ∧ t.link.partly = none ∧ t.link.sending = none ∧
      t.link.inPeriod = false ∧ (s.link.ignoring = true ∨ s.link.gathered = [] ∧ bytes.head? = some 0 →
        t.link.answers = (clockNext bytes.length s).link.answers))) ∧
  (∀ (o : Outgoing) (bytes : List Byte) (stray : List Bool) (s : State), s.pins.resetLow = false → s.pins.linkSelLow = true →
    s.link.inPeriod = true → s.link.sending = some o → o.gone = false →
    (bytes = [] ∨ Nat.max s.link.clocked.bytes (s.link.clocked.taken + bytes.length) < 6 + o.frame.body.length) →
    ∃ t u, exec (.selectPeriodEnd bytes stray) s = .next t ∧ t.link.partly = some o ∧ t.link.sending = none ∧
      (bytes = [] ∧ s.link.gathered = [] ∨ bytes ≠ [] ∧ (s.link.ignoring = true ∧ s.link.gathered = [] ∨
          s.link.ignoring = false ∧ s.link.gathered = [] ∧ bytes.head? = some 0) →
        t.link.answers = s.link.answers ∧ t.link.notes = s.link.notes) ∧
      exec .selectPeriodStart t = .next u ∧ u.link.sending = some o ∧ u.link.clocked = ⟨0, 0⟩) ∧
  ((∀ s : State,
    (s.pins.linkSelLow = true → linkOut s =
      some (match s.link.sending with | some o => (frameBytes o.frame).getD s.link.clocked.bytes 0 | none => 0)) ∧
    (s.pins.linkSelLow = false → linkOut s = none) ∧
    (∀ k, k < 8 → linkOutBit s k = (linkOut s).map (fun b => b.getMsbD k))) ∧
  (∀ (o : Outgoing) (k : Nat) (s : State), s.link.inPeriod = true → s.pins.linkSelLow = true → s.link.clocked.bytes = 0 →
    s.link.sending = some o → linkOut (clockTo k s) =
      some (if k < 6 + o.frame.body.length then (frameBytes o.frame).getD k 0 else 0)) ∧
  (∀ s : State, s.pins.linkSelLow = false → ∃ t, exec .selectPeriodStart s = .next t ∧ linkOut t ≠ none) ∧
  (∀ s : State, s.pins.linkSelLow = true →
    ∃ t, exec .coldReset s = .next t ∧ t.link.inPeriod = false ∧ t.pins.linkSelLow = true ∧ linkOut t = some 0) ∧
  (∀ (bytes : List Byte) (stray : List Bool) (s : State), s.pins.linkSelLow = true →
    ∃ t, exec (.selectPeriodEnd bytes stray) s = .next t ∧ t.pins = { s.pins with linkSelLow := false } ∧ linkOut t = none) ∧
  (∀ s : State, attnLow s = true ↔ s.link.answers ≠ [] ∨ s.link.notes ≠ []) ∧
  (∀ (o : Outgoing) (s : State), s.pins.resetLow = false → s.link.inPeriod = true → s.link.sending = some o → o.gone = false →
    (o.note = none ∧ s.link.answers = [o.frame] ∧ s.link.notes = [] ∨
      ∃ e, o.note = some e.src ∧ s.link.answers = [] ∧ s.link.notes = [e] ∧ e.again = false) →
    attnLow s = true ∧ ∃ t, exec .frameSent s = .next t ∧ attnLow t = false))

/-! ## LINK: orders -/

/-- R214: an order of an assigned kind whose LEN is not one the order permits is answered BAD_LENGTH with the status alone
and changes nothing else. R202, R203: an order of a kind outside the table is answered BAD_KIND with the kind received: under
that kind plus 0x80 for 0x01..0x3F, else under 0x80. R202: an order at the head of the inbound queue waits while the answer
queue has no room (that its row then changes nothing is the model's choice, log 1). -/
def Obligations.OrderIsCheckedAtDispatch : Prop :=
  (∀ (kind tag : Byte) (body : List Byte) (s : State), orderKinds.contains kind.toNat = true →
    permittedLen kind.toNat body.length = false → Ready kind tag body s →
    exec (orderRow ⟨kind, tag, body⟩) s = .next (answered kind tag .badLength [] s)) ∧
  (∀ (kind tag : Byte) (body : List Byte) (s : State), orderKinds.contains kind.toNat = false → kind ≠ 0 →
    Ready kind tag body s → exec (.orderBadKind kind tag body) s = .next { s with link := { s.link with
      inbound := s.link.inbound.drop 1
      answers := s.link.answers ++ [⟨if kind.toNat ≤ 0x3F then kind + 0x80 else 0x80, tag, [0x20, kind]⟩] } }) ∧
  (∀ (f : Frame) (s : State), s.link.inbound.head? = some f → answerRoom s = false → exec (orderRow f) s = .next s)

/-- R209: IDENT is answered OK with the fixed facts of the part and changes nothing else. R210, R216: STATE is answered OK
with the summary of the part, 39 bytes with the status, and changes nothing else. The order's own kept place counts among
answers owed and it is left out of the inbound queue. -/
def Obligations.IdentAndStateAnswers : Prop :=
  (∀ (tag : Byte) (s : State), Ready 0x01 tag [] s → exec (.ident tag []) s = .next (answered 0x01 tag .ok
    ([0x53, 0x41, 0x47, 0x55, 0x5A, 0x45, 0x4E, 0x20] ++ [0x4D, 0x47, 0x2D, 0x34, 0x34, 0x30, 0x20, 0x20] ++
      [1] ++ [4, 0] ++ [4] ++ [8] ++ [13] ++ [0, 0, 0x61, 0xA8]) s)) ∧
  (∀ (tag : Byte) (s : State), Ready 0x02 tag [] s → exec (.state tag []) s = .next (answered 0x02 tag .ok
    ([s.power.state.code, stateWord s] ++ be 4 s.acq.countDone.toNat ++
      (match s.acq.lastDone with | some (k, x) => [1] ++ be 1 k ++ be 4 x.toNat | none => List.replicate 6 0) ++
      be 4 s.gen.toNat ++ [boolByte ((s.mon.latched &&& ~~~s.mon.mask) != 0)] ++
      (match s.raster.view with | some (k, x) => [1] ++ be 1 k ++ be 4 x.toNat | none => List.replicate 6 0) ++
      be 1 s.raster.list.length ++ [boolByte s.store.scan.isNone, s.store.bus.code] ++ be 1 s.store.queue.length ++
      be 1 s.panel.fifo.length ++ be 6 s.acq.timeTag.toNat ++ be 1 (s.link.inbound.length - 1) ++
      be 1 s.link.answers.length ++ be 1 (s.acq.waves.length + s.store.withheld.isSome.toNat + 1) ++
      be 1 s.link.notes.length) s))

/-- R211: RESTART keeps the record, G, the masks, the power state and the time tag, empties the queues, and answers OK with
the orders discarded, the answers cleared (those of WAVE.READs it ends included) and G. Every note of before it is gone from
the note list. What joins the emptied list is FLAGS, when a true LANE condition is unmasked (R91), and STORE, when the head
job ends ABANDONED at once (R186), which is one that has not started (log 21) or has no step in flight and nothing altered;
that both follow the answer, FLAGS first, is the model's choice (log 20). R139: COMPOSE blanks the text plane, sends cursor
and mark home and rebuilds the annotation with word STOP, in the owned rows too; palette, mode, ownership, frame values and
scanout stay. R163: PANEL empties its FIFO, clears indications, counts, accumulators and steps, and takes each knob's state
from its lines (the last samples too, log 43); bindings, lamps, lock and idle time stay, and the idle timer restarts. A flash
step in flight goes on (R186); the autosaves that wait for the end of a running job's step go with the jobs behind it (log
44). -/
def Obligations.RestartAnswersAndClears : Prop :=
  ∀ (tag : Byte) (s : State), Ready 0x03 tag [] s → ∃ t, exec (.restart tag []) s = .next t ∧
    t.link.inbound = [] ∧
    t.link.answers = [⟨0x83, tag, [0x00] ++ be 1 (s.link.inbound.length - 1) ++
      be 1 (s.link.answers.length + s.acq.waves.length) ++ be 4 s.gen.toNat⟩] ∧
    t.setup = s.setup ∧ t.gen = s.gen ∧ t.mon.mask = s.mon.mask ∧ t.power = { s.power with runAtWake := false } ∧
    t.acq.state = .stopped ∧ t.acq.segs = [] ∧ t.acq.waves = [] ∧ t.acq.serialCounter = s.acq.serialCounter ∧
    t.acq.timeTag = s.acq.timeTag ∧ t.acq.mem = s.acq.mem ∧ t.acq.runKind = .idle ∧ t.acq.countDone = 0 ∧
    t.acq.lastDone = none ∧ t.acq.lastTrig = none ∧ t.raster = ⟨.const [], [], none, none, 0, false⟩ ∧
    t.link.partly = none ∧
    t.link.inPeriod = s.link.inPeriod ∧ t.link.gathered = s.link.gathered ∧ t.link.clocked = s.link.clocked ∧
    t.store.withheld = s.store.withheld ∧
    t.compose.palette = s.compose.palette ∧ t.compose.mode = s.compose.mode ∧ t.compose.owned = s.compose.owned ∧
    t.compose.frame = s.compose.frame ∧ t.compose.frameTimer = s.compose.frameTimer ∧ t.compose.duty = s.compose.duty ∧
    t.compose.cursor = ⟨0, 0⟩ ∧ t.compose.mark = ⟨0, 0⟩ ∧ t.compose.startCol = 0 ∧
    t.compose.annot0 = annotRow0 s.setup .stopped ∧ t.compose.annot29 = annotRow29 s.setup ∧
    (∀ k, k < 3000 → cellAt t.compose.text k = ⟨if s.compose.owned = false then 0x20
      else if k < 100 then t.compose.annot0.getD k 0x20
      else if 2900 ≤ k then t.compose.annot29.getD (k - 2900) 0x20 else 0x20, 5⟩) ∧
    t.panel.fifo = [] ∧ t.panel.bindings = s.panel.bindings ∧ t.panel.lamps = s.panel.lamps ∧
    t.panel.standbyMode = s.panel.standbyMode ∧ t.panel.lock = s.panel.lock ∧
    t.panel.idleMinutes = s.panel.idleMinutes ∧ t.panel.idleStart = s.acq.timeTag ∧
    (∀ k : Fin 64, tabRising s.panel.keys = true → keyAt t k.val = ⟨(keyAt s k.val).down, 0, false, none⟩) ∧
    (∀ (n : Fin 8) (a b : Bool), a = s.pins.encA.getLsbD n.val → b = s.pins.encB.getLsbD n.val →
      knobAt t n.val = ⟨a, b, a, b, 0, none, 0, 0, false, (knobAt s n.val).binding⟩) ∧
    t.store.dir = s.store.dir ∧ t.store.scan = s.store.scan ∧ t.store.bus = s.store.bus ∧
    (s.store.step ≠ none → t.store.step = s.store.step) ∧
    t.store.autosaves = (if s.store.running = none then s.store.autosaves else []) ∧
    t.pins = s.pins ∧ t.pending = s.pending ∧
    ∃ (lanes : BitVec 76) (ends : Bool),
      (∀ f, lanes.getLsbD f = true ↔
        ∃ n : Chan, f = 18 * (n.num - 1) + 1 ∧ (s.setup.ch.get n).on = true ∧ s.pins.lock.get n = false) ∧
      ends = (match s.store.queue, s.store.running with
        | [], _ => false
        | _ :: _, none => true
        | _ :: _, some r => s.store.step.isNone && !r.altered &&
          (match r.phase with | .classify (.refresh _) _ => false | _ => true)) ∧
      t.mon.current = lanes ∧ t.mon.latched = lanes ∧
      t.store.queue = (if ends then [] else s.store.queue.take 1) ∧
      (∀ j rest, s.store.queue = j :: rest →
        t.store.last = (if ends then some ⟨some j.slot, j.kind.record, .abandoned⟩ else s.store.last)) ∧
      t.link.notes = (if lanes &&& ~~~s.mon.mask = 0 then [] else [⟨.flags, none, false⟩]) ++
        (if ends then [⟨.store, none, false⟩] else [])

/-! ## POWER -/

/-- R189, R190: the POWER order: answered OK with the power state after it, but for one to DARK in STANDBY or of an unnamed
code; in its target state nothing else changes; each move sets state and cause ORDER and enters the POWER note. R192: a move
to STANDBY sets the run-at-wake memory when ACQ was running. R185: its autosave is skipped, with the last finished record and
the STORE note, while the scan runs, slot 0 is VALID and protected or the queue holds 4 jobs; else a SAVE(0) of the live
setup joins the queue, with the STORE note on a LENT bus (R181). R167: during a flash step the autosave waits, with its
snapshot of the move (R192), for the step's end, in time or timed out; then each, oldest first, is skipped if the scan ran at
the move (R170), else skipped or queued by what the end leaves. R65, R104, R116, R129, R160: at a move to STANDBY each
WAVE.READ still reading is answered WRONG_STATE; the segment in flight becomes FREE with serial 0, its points discarded, a
roll's planes brought into window order; other records, the memory and the rest of the run record stay; single and force
pending clear; ACQ enters STOPPED and its note; draw job and list go, the view stays; the frame is cut off (PIX_EN inactive,
duty 0); each key's reported indication and repeat and each knob's steps clear. R41, R65, R129, R161, R193: at a move from
STANDBY to ON self-refresh ends; with the run-at-wake memory set, which clears, ACQ starts as for RUN in STOPPED (RunStarted)
and enters its note (log 11 to 13, 37), else changes no more; a frame event is raised at once (frame values, duty, the
annotation rows' ownership, decay under FINITE, R103); the idle timer restarts. The model's choices: an ACQ already STOPPED
enters its note at STANDBY too (log 19); the answer follows those of the WAVE.READs ended (log 35); a lending waiting for
that step acts first (log 44); the tick of the limit (log 47); a full roll column not written yet is dropped (log 50);
self-refresh ends at once (log 51). -/
def Obligations.PowerOrderMoves : Prop :=
  (∀ (tag b : Byte) (s : State), Ready 0x3F tag [b] s →
    (3 ≤ b.toNat → exec (.power tag [b]) s = .next (answered 0x3F tag .badValue [] s)) ∧
    (b = 1 → s.power.state = .standby → exec (.power tag [b]) s = .next (answered 0x3F tag .wrongState [] s)) ∧
    (b = s.power.state.code → exec (.power tag [b]) s = .next (answered 0x3F tag .ok [b] s)) ∧
    (b.toNat < 3 → b ≠ s.power.state.code → ¬ (b = 1 ∧ s.power.state = .standby) →
      ∃ t, exec (.power tag [b]) s = .next t ∧ t.power.state.code = b ∧ t.power.cause = .order ∧
        t.link.answers.getLast? = some ⟨0xBF, tag, [0x00, b]⟩ ∧ (∃ e ∈ t.link.notes, e.src = .power) ∧
        t.setup = s.setup ∧ t.gen = s.gen ∧ t.mon = s.mon ∧
        (b ≠ 2 → t.power.runAtWake = (s.power.runAtWake && decide (s.power.state ≠ .standby)) ∧ t.store = s.store) ∧
        (b = 2 → t.power.runAtWake = (decide (s.acq.state ≠ .stopped) && !s.acq.single) ∧ t.acq.state = .stopped ∧
          t.raster.job = none ∧ t.raster.list = [] ∧ t.compose.duty = 0 ∧ t.acq.selfRefresh = true ∧
          (s.store.step ≠ none → t.store = { s.store with
            autosaves := s.store.autosaves ++ [⟨.save (imageOf s.setup) s.setup.name, 0⟩] }) ∧
          (∀ skips : Bool, s.store.step = none →
            (skips = true ↔ s.store.scan ≠ none ∨ (∃ q n, dirAt s 0 = .valid true q n) ∨ 4 ≤ s.store.queue.length) →
            t.store = (if skips then { s.store with last := some ⟨some 0, .save, .skipped⟩ }
              else { s.store with queue := s.store.queue ++ [⟨.save (imageOf s.setup) s.setup.name, 0⟩] }) ∧
            (skips = true ∨ s.store.bus = .lent → ∃ e ∈ t.link.notes, e.src = .store))))) ∧
  (∀ (c : Instr) (s : State) (st : FlashStep) (age : Nat) (act : State → StoreJob → State), s.pins.resetLow = false →
    s.store.step = some st → age = (s.acq.timeTag - st.start).toNat →
    ((∃ page, c = .flashReadPageEnd page) ∧ st.kind = .readPage ∧ age ≤ 125000 ∨
      c = .flashProgramPageEnd ∧ (∃ data, st.kind = .programPage data) ∧ age ≤ 625000 ∨
      c = .flashEraseSectorEnd ∧ st.kind = .eraseSector ∧ age ≤ 50000000 ∨
      c = .flashStepTimeout ∧
        (match st.kind with | .readPage => 125000 | .programPage _ => 625000 | .eraseSector => 50000000) ≤ age) →
    act = (fun w j =>
      if s.store.scan.isSome || (match dirAt w 0 with | .valid p _ _ => p | _ => false) || decide (4 ≤ w.store.queue.length) then
        { w with
          store := { w.store with last := some ⟨some 0, .save, .skipped⟩ }
          link := { w.link with notes := noteEnter .store w.link.notes } }
      else { w with
        store := { w.store with queue := w.store.queue ++ [j] }
        link := { w.link with notes := if w.store.bus = .lent then noteEnter .store w.link.notes else w.link.notes } }) →
    ∃ u, exec c { s with store := { s.store with autosaves := [] } } = .next u ∧ u.store.autosaves = [] ∧
      exec c s = .next (s.store.autosaves.foldl act u)) ∧
  (∀ (tag : Byte) (s : State), Ready 0x3F tag [2] s → s.power.state ≠ .standby →
    ∃ t, exec (.power tag [2]) s = .next t ∧
      t.power = ⟨.standby, decide (s.acq.state ≠ .stopped) && !s.acq.single, .order⟩ ∧
      t.link.answers = s.link.answers ++ s.acq.waves.map (fun w => ⟨0x95, w.tag, [Status.wrongState.code]⟩) ++
        [⟨0xBF, tag, [0x00, 0x02]⟩] ∧ t.acq.waves = [] ∧ t.link.inbound = s.link.inbound.drop 1 ∧
      (s.acq.state ∈ [AcqState.arming, .waiting, .capturing, .rolling] → segAt t s.acq.cur = ⟨.free, 0, none⟩ ∧
        t.acq.points = [] ∧ ∀ k, k ≠ s.acq.cur → segAt t k = segAt s k) ∧
      (s.acq.state = .stopped ∨ s.acq.state = .held → t.acq.segs = s.acq.segs) ∧
      t.acq.state = .stopped ∧ t.acq.runKind = .idle ∧ t.acq.single = false ∧ t.acq.forcePending = false ∧
      t.acq.selfRefresh = true ∧ t.acq.lastTrig = s.acq.lastTrig ∧ t.acq.countDone = s.acq.countDone ∧
      t.acq.lastDone = s.acq.lastDone ∧ t.acq.serialCounter = s.acq.serialCounter ∧ t.acq.prevLayout = s.acq.prevLayout ∧
      t.acq.runIndex = s.acq.runIndex ∧ t.acq.columnsLeft = s.acq.columnsLeft ∧ t.acq.mem = s.acq.mem ∧
      (∃ e ∈ t.link.notes, e.src = .acq) ∧ (∃ e ∈ t.link.notes, e.src = .power) ∧
      t.raster.job = none ∧ t.raster.list = [] ∧ t.raster.view = s.raster.view ∧
      (s.acq.state ≠ .rolling → t.raster = { s.raster with job := none, list := [] }) ∧
      (s.acq.state = .rolling → t.raster.writeCol = 0 ∧ t.raster.wrapped = false ∧ t.compose.startCol = 0 ∧
        ∀ (n : Chan) (c r : Nat), RasterOk s → c < 500 → r < 400 → intensity (t.raster.planes.get n) c r =
          intensity (s.raster.planes.get n) (if s.raster.wrapped then (s.raster.writeCol + c) % 500 else c) r) ∧
      t.compose.duty = 0 ∧ t.compose.frameTimer = none ∧ (∀ i, pixEn t i = false) ∧ t.compose.frame = s.compose.frame ∧
      (∀ k, PanelOk s → keyAt t k = { keyAt s k with reported := false, deadline := none }) ∧
      (∀ k, knobAt t k = { knobAt s k with steps := 0 }) ∧
      t.panel = { s.panel with keys := t.panel.keys, knobs := t.panel.knobs } ∧
      t.setup = s.setup ∧ t.gen = s.gen ∧ t.mon = s.mon) ∧
  (∀ (tag : Byte) (s v : State) (d : List (Nat × Byte) → List (Nat × Byte)), Ready 0x3F tag [0] s → SegTableOk s →
    s.power.state = .standby →
    v = { s with acq := { s.acq with lastTrig := none, countDone := 0, lastDone := none, single := false } } →
    d = (if s.setup.persist = .finite then decayPlane s.setup.decay else id) →
    ∃ t, exec (.power tag [0]) s = .next t ∧ t.power = ⟨.on, false, .order⟩ ∧ t.acq.selfRefresh = false ∧
      (s.power.runAtWake = false → t.acq = { s.acq with selfRefresh := false } ∧ t.raster = { s.raster with
        planes := ⟨d s.raster.planes.c1, d s.raster.planes.c2, d s.raster.planes.c3, d s.raster.planes.c4⟩ }) ∧
      (s.power.runAtWake = true → RunStarted v t ∧ (∃ e ∈ t.link.notes, e.src = .acq) ∧
        (t.acq.state ≠ .rolling → t.raster = { s.raster with
          planes := ⟨d s.raster.planes.c1, d s.raster.planes.c2, d s.raster.planes.c3, d s.raster.planes.c4⟩ })) ∧
      t.compose.frame = {
        color := .ofFn (fun n => (s.setup.ch.get n).color), tbright := s.setup.tbright, gbright := s.setup.gbright
        grat := s.setup.grat, orient := s.setup.orient, curV1 := s.setup.curV1, curV2 := s.setup.curV2
        curH1 := s.setup.curH1, curH2 := s.setup.curH2, curShow := s.setup.curShow, annot := s.setup.annot
        blratio := s.setup.blratio, bllevel := s.setup.bllevel, palette := s.compose.palette, mode := s.compose.mode } ∧
      t.compose.duty =
        (match s.setup.blratio with | 0 => 30 | 1 => 35 | 2 => 40 | 3 => 45 | 4 => 50 | 5 => 55 | 6 => 60 | _ => 64) *
          (99 + s.setup.bllevel) * 1023 / 10368 ∧
      t.compose.owned = s.setup.annot ∧ t.compose.frameTimer = some (s.acq.timeTag, 0) ∧
      t.compose.palette = s.compose.palette ∧ t.compose.mode = s.compose.mode ∧ t.compose.cursor = s.compose.cursor ∧
      t.panel = { s.panel with idleStart := s.acq.timeTag } ∧ t.store = s.store ∧ t.setup = s.setup ∧ t.gen = s.gen ∧
      t.mon = s.mon ∧ (∃ e ∈ t.link.notes, e.src = .power) ∧ t.link.inbound = s.link.inbound.drop 1 ∧
      t.link.answers = s.link.answers ++ [⟨0xBF, tag, [0x00, 0x00]⟩])

/-! ## SETUP -/

/-- R11, R12: a change whose values all equal the present ones leaves the whole state as it was; one that alters a value
stores the record whole and advances G by one. A change of either kind leaves the panel, the store, the power state, the
queues, the palette, the frame values, the time tag and the pins as they were. R13: a change of a MON-, VIEW- or META-class
field alone alters the record and G and, as it is applied, nothing else. -/
def Obligations.ChangeStoresAndCounts : Prop :=
  (∀ (u : Setup) (s : State),
    (u = s.setup → adopt u s = s) ∧
    (u ≠ s.setup → (adopt u s).setup = u ∧ (adopt u s).gen = s.gen + 1) ∧
    (adopt u s).panel = s.panel ∧ (adopt u s).store = s.store ∧ (adopt u s).power = s.power ∧
    (adopt u s).link.inbound = s.link.inbound ∧ (adopt u s).link.answers = s.link.answers ∧
    (adopt u s).compose.palette = s.compose.palette ∧ (adopt u s).compose.frame = s.compose.frame ∧
    (adopt u s).compose.cursor = s.compose.cursor ∧ (adopt u s).acq.timeTag = s.acq.timeTag ∧
    (adopt u s).acq.held = s.acq.held ∧ (adopt u s).mon.mask = s.mon.mask ∧ (adopt u s).pins = s.pins ∧
    (adopt u s).pending = s.pending) ∧
  (∀ (f : Field) (v : FieldValue) (s : State),
    (match f with
     | .chan _ .color | .chan _ .reject | .limit _ _ _ => True
     | .dev g => g ∈ [DevField.recapture, .stoprej, .decay, .hitw, .grat, .tbright, .gbright, .blratio, .bllevel, .orient,
         .annot, .curV1, .curV2, .curH1, .curH2, .curShow, .name]
     | .chan _ _ => False) →
    s.setup.put f v ≠ s.setup →
    adopt (s.setup.put f v) s = { s with setup := s.setup.put f v, gen := s.gen + 1 })

/-- R13, R63: a change of ACQ class while ACQ is STOPPED leaves it STOPPED, with its segments, its memory and its run record
as they were; in every other state ACQ re-arms or waits in HELD, and keeps single. R37, R38, R47, R58, R60, R63, R113: in a
capture or in ROLLING the segment in flight becomes FREE with serial 0, its points are discarded and force pending clears; in
HELD nothing is abandoned. Then a run starts under the new record (RunStarted): in REPEAT an arm by the buffer choice, or a
roll under the roll conditions, the DONE buffers kept but for those R37 frees; in SEGMENTED segment 0 with run index and
count done 0, last DONE absent and every DONE segment that is not pinned FREE; under generation G and the present geometry,
attempts 0; or HELD while the pin is met. Single and the last trigger tag stay (but for a force pending in HELD that an arm
with P = 0 takes). A roll left for good is brought into window order, in each plane that the change does not clear. (The
model's choices: ACQ is told before MAP, log 10; an arm that waits frees and keeps the earlier layout, log 11; the pin on the
record armed, log 12; the run kind while a roll waits, log 13; the current index, log 37; a re-arm in HELD enters the ACQ
note anew, log 39; a full roll column not written yet is dropped, log 50.) R53, R55: a change of TRIG class: both primes
become clear when it alters TSRC or TSLOPE, and stay otherwise; a change of TMODE or TAUTO that puts the AUTO deadline of a
READY segment in the past fires the AUTO trigger at once, its tag the present tick (log 15), an interval that has all its
codes but is not written counting as the one in progress (log 42); nothing else of ACQ changes. R49, R50: with P = L that
trigger is the capture end at once under the new record, as O30 states; an interval that was not written is dropped. -/
def Obligations.AcqChangeKeepsStoppedOrRearms : Prop :=
  (∀ (u : Setup) (s : State),
    (s.acq.state = .stopped → (adopt u s).acq.state = .stopped ∧ (adopt u s).acq.segs = s.acq.segs ∧
      (adopt u s).acq.mem = s.acq.mem ∧ (adopt u s).acq.runKind = s.acq.runKind ∧
      (adopt u s).acq.countDone = s.acq.countDone ∧ (adopt u s).acq.lastDone = s.acq.lastDone ∧
      (adopt u s).acq.serialCounter = s.acq.serialCounter) ∧
    (s.acq.state ≠ .stopped → carriesAcq s.setup u = true → carriesTrig s.setup u = false →
      (adopt u s).acq.state ≠ .stopped ∧ (adopt u s).acq.single = s.acq.single ∧
      (s.acq.forcePending = false ∨ s.acq.state ≠ .held → (adopt u s).acq.lastTrig = s.acq.lastTrig ∧
        (adopt u s).acq.state ∈ [AcqState.arming, .waiting, .held, .rolling]))) ∧
  (∀ (u : Setup) (s v t : State), SegTableOk s → s.acq.state ≠ .stopped → carriesAcq s.setup u = true → 0 < u.tauto →
    v = { s with
      setup := u
      gen := s.gen + 1
      acq := if s.acq.state = .held then s.acq else { s.acq with
        forcePending := false, points := [], segs := tabSet (.free 0) s.acq.segs s.acq.cur ⟨.free, 0, none⟩ } } →
    t = adopt u s →
    RunStarted v t ∧ t.setup = u ∧ t.gen = s.gen + 1 ∧ t.acq.timeTag = s.acq.timeTag ∧ t.acq.waves = s.acq.waves ∧
    (s.acq.state = .rolling → t.acq.state ≠ .rolling → t.raster.writeCol = 0 ∧ t.raster.wrapped = false ∧
      t.compose.startCol = 0 ∧ t.raster.view = s.raster.view ∧
      ∀ (n : Chan) (c r : Nat), RasterOk s → c < 500 → r < 400 → u.persist = s.setup.persist → u.style = s.setup.style →
        (u.ch.get n).scale = (s.setup.ch.get n).scale → (u.ch.get n).pos = (s.setup.ch.get n).pos →
        intensity (t.raster.planes.get n) c r =
          intensity (s.raster.planes.get n) (if s.raster.wrapped then (s.raster.writeCol + c) % 500 else c) r)) ∧
  (∀ (u : Setup) (s : State) (fires : Bool), carriesAcq s.setup u = false → carriesTrig s.setup u = true →
    fires = decide ((s.setup.tmode ≠ u.tmode ∨ s.setup.tauto ≠ u.tauto) ∧ s.acq.state = .waiting ∧ u.tmode = .auto ∧
      u.tauto * 125000 ≤ (s.acq.timeTag - s.acq.readyTick).toNat) →
    (fires = false → (s.setup.tsrc = u.tsrc → s.setup.tslope = u.tslope → (adopt u s).acq = s.acq) ∧
      (s.setup.tsrc ≠ u.tsrc ∨ s.setup.tslope ≠ u.tslope →
        (adopt u s).acq = { s.acq with risePrime := false, fallPrime := false })) ∧
    (∀ r i, fires = true → segAt s s.acq.cur = r → r.info = some i → i.geo.pre < i.geo.len →
      (adopt u s).acq.state = .capturing ∧ segAt (adopt u s) s.acq.cur = { r with state := .filling, info := some { i with
        trigTag := some s.acq.timeTag, trigKind := some .auto
        geo := { i.geo with origin := if i.geo.pre = 0 then 0 else s.acq.preCount % i.geo.pre } } } ∧
      (∀ k, k ≠ s.acq.cur → segAt (adopt u s) k = segAt s k) ∧ (adopt u s).acq.lastTrig = some s.acq.timeTag ∧
      (adopt u s).acq.mem = s.acq.mem)) ∧
  (∀ (u : Setup) (s : State) (i : SegInfo) (clear : Bool), carriesAcq s.setup u = false →
    s.setup.tmode ≠ u.tmode ∨ s.setup.tauto ≠ u.tauto → s.acq.state = .waiting → u.tmode = .auto →
    u.tauto * 125000 ≤ (s.acq.timeTag - s.acq.readyTick).toNat → (segAt s s.acq.cur).info = some i →
    i.geo.len ≤ i.geo.pre → s.pins.resetLow = false →
    clear = decide (s.setup.tsrc ≠ u.tsrc ∨ s.setup.tslope ≠ u.tslope) →
    ∃ t, exec .captureEnd (triggered .auto s.acq.timeTag i { s with
        setup := u, gen := s.gen + 1
        acq := { s.acq with
          risePrime := s.acq.risePrime && !clear, fallPrime := s.acq.fallPrime && !clear } }) = .next t ∧
      (adopt u s).acq = t.acq ∧ (adopt u s).mon = t.mon ∧ (adopt u s).link = t.link ∧ (adopt u s).store = t.store ∧
      (adopt u s).panel = t.panel ∧ (adopt u s).power = t.power ∧ (adopt u s).setup = u)

/-- R17: a FIELD.SET of a value that its field takes is applied as one change and answered OK or CLAMPED with the stored
value and G after the change (the presence byte of a field that is no limit field is the model's choice, log 24). R1, R2, R3,
R7: the kind of every field: numeric with its range, enumerated or a set with the number of its codes, a limit, or text.
R213, R214: what a FIELD.SET body offers. R6, R8: a number inside the range is stored as offered, one outside it is brought
to the nearer end and counts as clamped; a code inside its set is stored, one outside it is refused; a threshold is stored as
offered; NAME has its characters outside 0x20..0x7E replaced by spaces, and counts as clamped when it had one. -/
def Obligations.FieldSetStoresOneField : Prop :=
  (∀ (tag : Byte) (body : List Byte) (s : State) (f : Field) (x v : FieldValue) (c : Bool), Ready 0x08 tag body s →
    (body.length = 7 ∨ body.length = 19) → fieldOfId (natAt body 0 2) = some f → offeredValue f body = some x →
    acceptValue f x = some (v, c) →
    exec (.fieldSet tag body) s =
      .next (answer 0x08 tag (if c then .clamped else .ok)
        (be 2 (natAt body 0 2) ++
          (match v with
           | .number a => [1] ++ beInt 4 a
           | .limit (some a) => [1] ++ beInt 4 a
           | .limit none => [0, 0, 0, 0, 0]
           | .text cs => [1] ++ cs) ++
          be 4 (if s.setup.put f v = s.setup then s.gen else s.gen + 1).toNat)
        (adopt (s.setup.put f v) (popInbound s)))) ∧
  (((∀ p ∈ ([(.tbase, 0, 29), (.depth, 0, 4), (.pretrig, 0, 100), (.segcount, 1, 256), (.tlevel, -50000000, 50000000),
        (.thyst, 1, 16), (.tauto, 10, 10000), (.holdoff, 0, 1000000), (.recapture, 0, 2), (.decay, 1, 255), (.hitw, 1, 255),
        (.tbright, 0, 63), (.gbright, 0, 63), (.blratio, 0, 7), (.bllevel, 0, 63), (.curV1, 0, 499), (.curV2, 0, 499),
        (.curH1, 0, 399), (.curH2, 0, 399)] : List (DevField × Int × Int)), (Field.dev p.1).kind = .numeric p.2.1 p.2.2) ∧
    (∀ p ∈ ([(.acqmode, 2), (.runmode, 2), (.roll, 2), (.tsrc, 5), (.tslope, 3), (.tmode, 2), (.stoprej, 2), (.persist, 3),
        (.style, 2), (.grat, 3), (.orient, 2), (.annot, 2), (.curShow, 4)] : List (DevField × Nat)),
      (Field.dev p.1).kind = .coded p.2) ∧
    (∀ n : Chan, (∀ p ∈ ([(.scale, 1000, 10000000), (.pos, -400, 400), (.color, 0, 15)] : List (ChanField × Int × Int)),
        (Field.chan n p.1).kind = .numeric p.2.1 p.2.2) ∧
      (∀ p ∈ ([(.on, 2), (.coupling, 3), (.bwlimit, 2), (.reject, 16)] : List (ChanField × Nat)),
        (Field.chan n p.1).kind = .coded p.2) ∧
      ∀ q t, (Field.limit n q t).kind = .limit) ∧ (Field.dev .name).kind = .text) ∧
  (∀ (f : Field) (body : List Byte),
    (body.length = 7 → ((∃ lo hi, f.kind = .numeric lo hi) ∨ ∃ c, f.kind = .coded c) →
      offeredValue f body = some (.number (intAt body 3 4))) ∧
    (body.length = 7 → f.kind = .limit → (byteAt body 2 = 0 → offeredValue f body = some (.limit none)) ∧
      (byteAt body 2 = 1 → offeredValue f body = some (.limit (some (intAt body 3 4))))) ∧
    (body.length = 19 → f.kind = .text → offeredValue f body = some (.text (body.drop 3)))) ∧
  (∀ f : Field,
    (∀ lo hi x, f.kind = .numeric lo hi → acceptValue f (.number x) =
      some (.number (if x < lo then lo else if hi < x then hi else x), decide (x < lo ∨ hi < x))) ∧
    (∀ (c : Nat) (x : Int), f.kind = .coded c → acceptValue f (.number x) =
      if 0 ≤ x ∧ x < c then some (.number x, false) else none) ∧
    (∀ v, f.kind = .limit → acceptValue f (.limit v) = some (.limit v, false)) ∧
    (∀ cs, f.kind = .text → acceptValue f (.text cs) =
      some (.text (cs.map (fun c => if 0x20 ≤ c.toNat ∧ c.toNat ≤ 0x7E then c else 0x20)),
        cs.any (fun c => decide (c.toNat < 0x20 ∨ 0x7E < c.toNat))))))

/-- R17, R214: a FIELD.SET is refused, in this order, with BAD_FIELD for an id that names no field or a derived value, with
BAD_VALUE for a length that does not fit the field, for a presence other than 0 or 1 of a limit field, and for a code outside
the field's set; the answer carries the id, presence and value 0 (16 bytes for the id of NAME) and G, and nothing changes. -/
def Obligations.FieldSetRefusalChangesNothing : Prop :=
  ∀ (tag : Byte) (body : List Byte) (s : State), Ready 0x08 tag body s → (body.length = 7 ∨ body.length = 19) →
    ((fieldOfId (natAt body 0 2) = none → exec (.fieldSet tag body) s = .next (answered 0x08 tag .badField
      (be 2 (natAt body 0 2) ++ [0, 0, 0, 0, 0] ++ be 4 s.gen.toNat) s)) ∧
    (∀ f, fieldOfId (natAt body 0 2) = some f → (body.length = 19 ↔ f ≠ .dev .name) →
      exec (.fieldSet tag body) s = .next (answered 0x08 tag .badValue
        (be 2 (natAt body 0 2) ++ List.replicate (if f = .dev .name then 17 else 5) 0 ++ be 4 s.gen.toNat) s)) ∧
    (∀ n q t, fieldOfId (natAt body 0 2) = some (.limit n q t) → body.length = 7 → 2 ≤ (byteAt body 2).toNat →
      exec (.fieldSet tag body) s = .next (answered 0x08 tag .badValue
        (be 2 (natAt body 0 2) ++ [0, 0, 0, 0, 0] ++ be 4 s.gen.toNat) s)) ∧
    (∀ f c, fieldOfId (natAt body 0 2) = some f → body.length = 7 → f.kind = .coded c →
      (intAt body 3 4 < 0 ∨ (c : Int) ≤ intAt body 3 4) →
      exec (.fieldSet tag body) s = .next (answered 0x08 tag .badValue
        (be 2 (natAt body 0 2) ++ [0, 0, 0, 0, 0] ++ be 4 s.gen.toNat) s)))

/-- R18: FIELD.GET answers the present value of a field, or a derived value computed from the record as it stands, with G
(R94, R95: K of a channel is floor(hw × 1024 / SCALE) held to 256..10240, hw that of the range which the view segment
recorded for it while the view segment is current and holds the channel, else that of the present range); an id that names
neither is answered BAD_FIELD; it changes nothing. (The presence byte of a field that is no limit field, 1, is the model's
choice, log 24.) R19: SETUP.READ is answered OK with G and the setup image of the record, and changes nothing. -/
def Obligations.RecordIsReadBack : Prop :=
  (∀ (tag : Byte) (body : List Byte) (s : State), Ready 0x09 tag body s → body.length = 2 →
    (∀ f, fieldOfId (natOf body) = some f → exec (.fieldGet tag body) s = .next (answered 0x09 tag .ok
      (body ++ valueItems (s.setup.get f) ++ be 4 s.gen.toNat) s)) ∧
    (∀ v : Nat, (natOf body = 0x80 ∧ v = s.setup.geometry.interval ∨ natOf body = 0x81 ∧ v = s.setup.geometry.len ∨
        natOf body = 0x82 ∧ v = s.setup.geometry.nEff ∨
        (∃ n : Chan, natOf body = 256 * n.num + 0x80 ∧ v = rangeOf (s.setup.ch.get n).scale) ∨
        (∃ (n : Chan) (range : Nat), natOf body = 256 * n.num + 0x81 ∧
          ((∃ k ser i, s.raster.view = some (k, ser) ∧ segAt s k = ⟨.done, ser, some i⟩ ∧ i.geo.enabled.get n = true ∧
              range = i.geo.range.get n) ∨
            (¬ ∃ k ser i, s.raster.view = some (k, ser) ∧ segAt s k = ⟨.done, ser, some i⟩ ∧ i.geo.enabled.get n = true) ∧
              range = rangeOf (s.setup.ch.get n).scale) ∧
          v = Nat.max 256 (Nat.min 10240 (hwOf range * 1024 / (s.setup.ch.get n).scale)))) →
      exec (.fieldGet tag body) s = .next (answered 0x09 tag .ok (body ++ [1] ++ be 4 v ++ be 4 s.gen.toNat) s)) ∧
    (fieldOfId (natOf body) = none → natOf body ∉ [0x80, 0x81, 0x82] →
      (∀ n : Chan, natOf body ≠ 256 * n.num + 0x80 ∧ natOf body ≠ 256 * n.num + 0x81) →
      exec (.fieldGet tag body) s = .next (answered 0x09 tag .badField (body ++ [0, 0, 0, 0, 0] ++ be 4 s.gen.toNat) s))) ∧
  (∀ (tag : Byte) (s : State), Ready 0x0A tag [] s →
    exec (.setupRead tag []) s = .next (answered 0x0A tag .ok (be 4 s.gen.toNat ++ imageOf s.setup) s))

/-- R20: SETUP.WRITE of an image whose codes all lie inside their sets is applied as one change and answered OK or CLAMPED
with the number of fields clamped and G after the change; with a code outside its set it is refused with BAD_VALUE, the id of
the first offending field and G unchanged, and nothing is stored. R20, R218: the reading of a 512-byte image. Its codes and
presence bytes are checked in increasing offset, and the first one outside its set ends the check with its field id (a
presence byte's is its group's HA threshold). With none outside, every number is read with the width and sign of its place
and accepted (O16), every code taken, a threshold read when its presence bit is set, NAME cleaned; the count is of the
numbers brought into range, and of NAME when it was cleaned. R21: SETUP.DEFAULT applies the default setup as one change, and
is answered OK with G after it. -/
def Obligations.SetupWriteAndDefault : Prop :=
  (∀ (tag : Byte) (body : List Byte) (s : State), Ready 0x0B tag body s → body.length = 512 →
    (∀ u c, readImage body = .ok (u, c) →
      exec (.setupWrite tag body) s = .next (answer 0x0B tag (if c = 0 then .ok else .clamped)
        (be 1 c ++ be 4 (if u = s.setup then s.gen else s.gen + 1).toNat ++ [0, 0]) (adopt u (popInbound s)))) ∧
    (∀ id, readImage body = .error id →
      exec (.setupWrite tag body) s = .next (answered 0x0B tag .badValue ([0] ++ be 4 s.gen.toNat ++ be 2 id) s))) ∧
  (∀ (img : List Byte) (coded : List (Nat × Nat × Nat)) (numbers : List (Nat × Nat × Bool × Field)) (value : Nat × Nat × Bool × Field → Int),
    img.length = 512 →
    coded = Chan.all.flatMap (fun n => ([(0, 2, 0x01), (1, 3, 0x04), (2, 2, 0x05), (4, 16, 0x07), (16, 16, 0x10), (36, 16, 0x14),
        (56, 16, 0x18), (76, 16, 0x1C)] : List (Nat × Nat × Nat)).map (fun e => (96 * (n.num - 1) + e.1, e.2.1, 256 * n.num + e.2.2))) ++
      [(387, 2, 0x0004), (388, 2, 0x0005), (389, 2, 0x0006), (392, 5, 0x0008), (393, 3, 0x0009), (395, 2, 0x000B), (409, 2, 0x0010),
        (410, 3, 0x0011), (413, 2, 0x0014), (414, 3, 0x0015), (419, 2, 0x001A), (420, 2, 0x001B), (421, 4, 0x001C)] →
    numbers = Chan.all.flatMap (fun n => [(96 * (n.num - 1) + 3, 1, false, .chan n .color), (96 * (n.num - 1) + 6, 2, true, .chan n .pos),
        (96 * (n.num - 1) + 8, 4, false, .chan n .scale)]) ++
      [(384, 1, false, .dev .tbase), (385, 1, false, .dev .depth), (386, 1, false, .dev .pretrig), (390, 2, false, .dev .segcount),
        (394, 1, false, .dev .thyst), (396, 4, true, .dev .tlevel), (400, 2, false, .dev .tauto), (404, 4, false, .dev .holdoff),
        (408, 1, false, .dev .recapture), (411, 1, false, .dev .decay), (412, 1, false, .dev .hitw), (415, 1, false, .dev .tbright),
        (416, 1, false, .dev .gbright), (417, 1, false, .dev .blratio), (418, 1, false, .dev .bllevel), (422, 2, false, .dev .curV1),
        (424, 2, false, .dev .curV2), (426, 2, false, .dev .curH1), (428, 2, false, .dev .curH2)] →
    value = (fun e => if e.2.2.1 then intAt img e.1 e.2.1 else (natAt img e.1 e.2.1 : Int)) →
    (∀ id, readImage img = .error id ↔ ∃ before e after, coded = before ++ e :: after ∧ e.2.2 = id ∧
      e.2.1 ≤ (byteAt img e.1).toNat ∧ ∀ x ∈ before, (byteAt img x.1).toNat < x.2.1) ∧
    ((∀ e ∈ coded, (byteAt img e.1).toNat < e.2.1) → ∃ u c, readImage img = .ok (u, c) ∧
      (∀ e ∈ numbers, ∃ b, acceptValue e.2.2.2 (.number (value e)) = some (u.get e.2.2.2, b)) ∧
      (∀ e ∈ coded, ∀ f, fieldOfId e.2.2 = some f → (∀ n q t, f ≠ .limit n q t) →
        u.get f = .number ((byteAt img e.1).toNat : Int)) ∧
      (∀ (n : Chan) (q : Quantity) (t : LimitType) (a : Nat), a = 96 * (n.num - 1) + 16 + 20 * q.num →
        u.get (.limit n q t) = .limit (if (byteAt img a).getLsbD t.num then some (intAt img (a + 4 + 4 * t.num) 4) else none)) ∧
      u.name = ((img.drop 430).take 16).map (fun c => if 0x20 ≤ c.toNat ∧ c.toNat ≤ 0x7E then c else 0x20) ∧
      c = (numbers.filter (fun e => match e.2.2.2.kind with
          | .numeric lo hi => decide (value e < lo ∨ hi < value e)
          | _ => false)).length +
        (if ((img.drop 430).take 16).any (fun c => decide (c.toNat < 0x20 ∨ 0x7E < c.toNat)) then 1 else 0))) ∧
  (∀ (tag : Byte) (s : State), Ready 0x0C tag [] s →
    exec (.setupDefault tag []) s = .next (answer 0x0C tag .ok
      (be 4 (if Setup.default = s.setup then s.gen else s.gen + 1).toNat) (adopt .default (popInbound s))))

/-- R19, R20, R218: the image of a record within its ranges is 512 bytes, and reading it back gives that record with no field
clamped: no field is dropped. -/
def Obligations.SetupImageRoundTrip : Prop :=
  ∀ u : Setup, SetupInRange u → (imageOf u).length = 512 ∧ readImage (imageOf u) = .ok (u, 0)

/-! ## Derived values -/

/-- R28: the hardware range of a request is the smallest whose µV per division is at least the request. R30: S is the
smallest interval of the 1-2-5 sequence that keeps L within the depth, L = 10T / S is whole, and L lies in 100..10,000,000.
R33, R34, R35: the geometry of an arm. Its record length and interval are those of its depth index (R30, above), its size B
is L × C × b, C the number of enabled channels (1 with none) and b 1 in SAMPLE and 2 in PEAK; the depth index is the largest,
from DEPTH down, at which the floor count (2 for REPEAT, 1 for SEGMENTED) of segments fits the memory; N_eff is the smaller
of the requested count (2, or SEGCOUNT) and floor(67,108,864 / B), so that N_eff segments fit. R31: P = floor(L × PRETRIG /
100). The mode, the enabled channels and the hardware ranges are those of the record. R29: the front-end lines of a channel:
the index of the range that serves CHn.SCALE, the coupling (0 DC, 1 AC, 2 GND) and the bandwidth limit (1 on), from the live
setup alone, whether the channel is on or off; they show the default setup right after reset (6, 0, 0). (That they go on
showing it while RESET_N is low is the model's choice, log 34.) -/
def Obligations.DerivedValuesFollowTheRecord : Prop :=
  (∀ scale : Nat, 1000 ≤ scale → scale ≤ 10000000 →
    rangeOf scale ≤ 12 ∧ scale ≤ hwOf (rangeOf scale) ∧ ∀ r, r < rangeOf scale → hwOf r < scale) ∧
  (∀ tb d : Nat, tb ≤ 29 → d ≤ 4 →
    sampleInterval tb d * recordLength tb d = 10 * timePerDiv tb ∧ recordLength tb d ≤ depthPoints d ∧
    (∃ j, sampleInterval tb d = seq125 j) ∧ (∀ j, seq125 j < sampleInterval tb d → depthPoints d * seq125 j < 10 * timePerDiv tb) ∧
    100 ≤ recordLength tb d ∧ recordLength tb d ≤ 10000000) ∧
  (∀ (u : Setup) (C b least asked : Nat), SetupInRange u → C = Nat.max 1 (Chan.all.filter (fun n => (u.ch.get n).on)).length →
    b = (match u.acqmode with | .sample => 1 | .peak => 2) →
    least = (match u.runmode with | .repeats => 2 | .segmented => 1) →
    asked = (match u.runmode with | .repeats => 2 | .segmented => u.segcount) →
    u.geometry.depthIdx ≤ u.depth ∧
    u.geometry.len = recordLength u.tbase u.geometry.depthIdx ∧
    u.geometry.interval = sampleInterval u.tbase u.geometry.depthIdx ∧
    u.geometry.size = u.geometry.len * C * b ∧ 0 < u.geometry.size ∧
    least * u.geometry.size ≤ 67108864 ∧
    (∀ d, u.geometry.depthIdx < d → d ≤ u.depth → 67108864 < least * (recordLength u.tbase d * C * b)) ∧
    u.geometry.nEff = Nat.min asked (67108864 / u.geometry.size) ∧ u.geometry.nEff * u.geometry.size ≤ 67108864 ∧
    (u.runmode = .repeats → u.geometry.nEff = 2) ∧
    (u.runmode = .segmented → 1 ≤ u.geometry.nEff ∧ u.geometry.nEff ≤ u.segcount) ∧
    u.geometry.pre = u.geometry.len * u.pretrig / 100 ∧ u.geometry.pre ≤ u.geometry.len ∧
    u.geometry.mode = u.acqmode ∧
    (∀ n : Chan, u.geometry.enabled.get n = (u.ch.get n).on ∧ u.geometry.range.get n = rangeOf (u.ch.get n).scale)) ∧
  ((∀ (u : Setup) (n : Chan), frontEnd u n = (rangeOf (u.ch.get n).scale,
    (match (u.ch.get n).coupling with | .dc => 0 | .ac => 1 | .gnd => 2), (if (u.ch.get n).bwlimit then 1 else 0))) ∧
  (∀ n : Chan, frontEnd State.reset.setup n = (6, 0, 0)) ∧
  (∀ (u : Setup) (s : State) (n : Chan), frontEnd (adopt u s).setup n = frontEnd u n))

/-! ## MON -/

/-- R205: a block that enters its source: no entry, the tail; an entry waiting, nothing; an entry in transit, the again mark.
R78, R83: an occurrence sets the current and the latched state of its flags, and enters the FLAGS note when one of them is
unmasked; nothing else changes. R27, R80: a change of a lock line: the LANE flag of the channel follows its condition, a
change from false to true is an occurrence, and a change to false leaves the latched state. -/
def Obligations.OccurrencesAndLaneFlags : Prop :=
  (∀ (src : NoteSource) (s : State),
    ((∀ e ∈ s.link.notes, e.src ≠ src) → (enterNote src s).link.notes = s.link.notes ++ [⟨src, none, false⟩]) ∧
    (∀ (l r : List NoteEntry) (e : NoteEntry), s.link.notes = l ++ e :: r → e.src = src → (∀ x ∈ l ++ r, x.src ≠ src) →
      (enterNote src s).link.notes = l ++ (if e.built.isSome then { e with again := true } else e) :: r)) ∧
  (∀ (fs : BitVec 76) (s : State), monOccur fs s = { s with
    mon := { s.mon with current := s.mon.current ||| fs, latched := s.mon.latched ||| fs }
    link := { s.link with notes := if (fs &&& ~~~s.mon.mask) = 0 then s.link.notes else noteEnter .flags s.link.notes } }) ∧
  (∀ (n : Chan) (lock : Bool) (s : State), s.pins.resetLow = false → ∃ t,
    exec (.laneConditionChange n lock) s = .next t ∧ t.pins = { s.pins with lock := s.pins.lock.set n lock } ∧
    t.mon.mask = s.mon.mask ∧
    (((s.setup.ch.get n).on && !lock) = true → t.mon.current = s.mon.current ||| flagBit (laneFlag n) ∧
      t.mon.latched = (if s.mon.current.getLsbD (laneFlag n) then s.mon.latched else s.mon.latched ||| flagBit (laneFlag n))) ∧
    (((s.setup.ch.get n).on && !lock) = false → t.mon.current = s.mon.current &&& ~~~(flagBit (laneFlag n)) ∧
      t.mon.latched = s.mon.latched ∧ t.link.notes = s.link.notes) ∧
    t.setup = s.setup ∧ t.gen = s.gen ∧ t.acq = s.acq ∧ t.raster = s.raster ∧ t.compose = s.compose ∧ t.panel = s.panel ∧
    t.store = s.store ∧ t.power = s.power ∧ t.link.inbound = s.link.inbound ∧ t.link.answers = s.link.answers)

/-- R87, R88: FLAGS.PEEK and FLAGS.TAKE are answered OK with the current set, the latched set, the mask set and the summary
as they stand; FLAGS.PEEK changes nothing, and FLAGS.TAKE makes every latched state false and changes nothing else. R89:
FLAGS.MASK writes all 76 masks and is answered OK with the mask set and the summary after the write; the FLAGS note is
entered when the summary turns true; a set with a flag number above 75 is refused with BAD_VALUE and changes nothing. -/
def Obligations.FlagOrders : Prop :=
  (∀ (tag : Byte) (s : State),
    (Ready 0x18 tag [] s → exec (.flagsPeek tag []) s = .next (answered 0x18 tag .ok
      (flagSetBytes s.mon.current ++ flagSetBytes s.mon.latched ++ flagSetBytes s.mon.mask ++
        [if s.mon.latched &&& ~~~s.mon.mask = 0 then 0 else 1]) s)) ∧
    (Ready 0x19 tag [] s → exec (.flagsTake tag []) s = .next (answered 0x19 tag .ok
      (flagSetBytes s.mon.current ++ flagSetBytes s.mon.latched ++ flagSetBytes s.mon.mask ++
        [if s.mon.latched &&& ~~~s.mon.mask = 0 then 0 else 1]) { s with mon := { s.mon with latched := 0 } }))) ∧
  (∀ (tag : Byte) (body : List Byte) (s : State), Ready 0x1A tag body s → body.length = 10 →
    ((byteAt body 9).toNat % 16 ≠ 0 → exec (.flagsMask tag body) s = .next (answered 0x1A tag .badValue [] s)) ∧
    (∀ m : BitVec 76, flagSetBytes m = body → exec (.flagsMask tag body) s = .next (answered 0x1A tag .ok
      (body ++ [if s.mon.latched &&& ~~~m = 0 then 0 else 1])
      { s with
        mon := { s.mon with mask := m }
        link := { s.link with notes :=
          if s.mon.latched &&& ~~~s.mon.mask = 0 ∧ s.mon.latched &&& ~~~m ≠ 0 then noteEnter .flags s.link.notes
          else s.link.notes } })))

/-! ## ACQ: runs -/

/-- R47, R57: RUN. In STANDBY it is refused; while ACQ is not STOPPED it clears single and changes nothing else; from
STOPPED, in REPEAT without the roll conditions and with no pin in the way, it starts a run and arms the buffer that R58
chooses: the record under the present G and geometry, the run record at its start values, both primes and the adders cleared,
no byte of the memory written. R59: SINGLE. In STANDBY it is refused; in a capture, in HELD or in a roll it sets single (a
roll that was not single counts 500 columns from now; that a full column not written yet is among them is the model's choice,
log 50), and changes nothing else; from STOPPED it starts the run with single on. R44, R47, R57: RUN or SINGLE from STOPPED
under SEGMENTED with no pin: every DONE segment becomes FREE with its serial kept, the run index is 0, and segment 0 is armed
under the present G and geometry; no byte of the memory changes. R39, R60, R111: RUN or SINGLE from STOPPED with the roll
conditions and no pin enters ROLLING: segment 0 FILLING under the roll geometry, every byte of its region 128 and every other
byte of the memory as it was, the planes clear, the draw list empty, no view segment, the ACQ note entered, and 500 columns
left with single on. (The depth index of a roll record is a free value, log 8.) -/
def Obligations.RunAndSingleStartOrSet : Prop :=
  (∀ (tag : Byte) (s : State), Ready 0x10 tag [] s →
    (s.power.state = .standby → exec (.run tag []) s = .next (answered 0x10 tag .wrongState [] s)) ∧
    (s.power.state ≠ .standby → s.acq.state ≠ .stopped →
      exec (.run tag []) s = .next (answered 0x10 tag .ok [] { s with acq := { s.acq with single := false } })) ∧
    (∀ k, s.power.state ≠ .standby → s.acq.state = .stopped → s.setup.runmode = .repeats → SegTableOk s →
      s.setup.rollConditions = false → s.acq.forcePending = false →
      k = bufferChoice { s with acq := { s.acq with lastDone := none } } → armWaits k s.setup.geometry s = false →
      ∃ t, exec (.run tag []) s = .next t ∧
        t.acq.state = (if s.setup.geometry.pre = 0 then .waiting else .arming) ∧ t.acq.cur = k ∧
        segAt t k = ⟨if s.setup.geometry.pre = 0 then .ready else .prefill, 0, some {
          generation := s.gen, geo := s.setup.geometry, armTag := s.acq.timeTag, trigTag := none, trigKind := none,
          attempts := 0, flags := .const .empty, meas := none, outcome := none }⟩ ∧
        t.acq.runKind = .repeats ∧ t.acq.single = false ∧ t.acq.lastTrig = none ∧ t.acq.countDone = 0 ∧
        t.acq.lastDone = none ∧ t.acq.risePrime = false ∧ t.acq.fallPrime = false ∧ t.acq.points = [] ∧
        t.acq.mem = s.acq.mem ∧ t.acq.serialCounter = s.acq.serialCounter ∧ t.acq.timeTag = s.acq.timeTag ∧
        t.setup = s.setup ∧ t.gen = s.gen ∧ t.mon = s.mon ∧ t.raster = s.raster ∧ t.panel = s.panel ∧ t.store = s.store ∧
        t.power = s.power ∧ t.link.notes = s.link.notes ∧ t.link.inbound = s.link.inbound.drop 1 ∧
        t.link.answers = s.link.answers ++ [⟨0x90, tag, [0]⟩])) ∧
  (∀ (tag : Byte) (s : State), Ready 0x12 tag [] s →
    (s.power.state = .standby → exec (.single tag []) s = .next (answered 0x12 tag .wrongState [] s)) ∧
    (s.power.state ≠ .standby → s.acq.state ∈ [AcqState.arming, .waiting, .capturing, .held] →
      exec (.single tag []) s = .next (answered 0x12 tag .ok [] { s with acq := { s.acq with single := true } })) ∧
    (s.power.state ≠ .standby → s.acq.state = .rolling → exec (.single tag []) s = .next (answered 0x12 tag .ok []
      (if s.acq.single then s else { s with acq := { s.acq with single := true, columnsLeft := 500 } }))) ∧
    (s.power.state ≠ .standby → s.acq.state = .stopped → ∃ t, exec (.single tag []) s = .next t ∧
      t.acq.single = true ∧ t.acq.state ≠ .stopped ∧ t.acq.countDone = 0 ∧ t.acq.lastDone = none ∧
      t.setup = s.setup ∧ t.gen = s.gen ∧ t.mon = s.mon ∧ t.panel = s.panel ∧ t.store = s.store ∧ t.power = s.power ∧
      t.link.inbound = s.link.inbound.drop 1 ∧ t.link.answers = s.link.answers ++ [⟨0x92, tag, [0]⟩])) ∧
  (∀ (c : Instr) (kind tag : Byte) (one : Bool) (s : State),
    (c = .run tag [] ∧ kind = 0x10 ∧ one = false ∨ c = .single tag [] ∧ kind = 0x12 ∧ one = true) →
    Ready kind tag [] s → s.power.state ≠ .standby →
    s.acq.state = .stopped → s.setup.runmode = .segmented → SegTableOk s → s.raster.job = none →
    s.acq.forcePending = false →
    ∃ t, exec c s = .next t ∧
      t.acq.state = (if s.setup.geometry.pre = 0 then .waiting else .arming) ∧ t.acq.cur = 0 ∧
      segAt t 0 = ⟨if s.setup.geometry.pre = 0 then .ready else .prefill, 0, some {
        generation := s.gen, geo := s.setup.geometry, armTag := s.acq.timeTag, trigTag := none, trigKind := none,
        attempts := 0, flags := .const .empty, meas := none, outcome := none }⟩ ∧
      (∀ k, k ≠ 0 → segAt t k =
        (if (segAt s k).state = .done then ⟨.free, (segAt s k).serial, none⟩ else segAt s k)) ∧
      t.acq.runKind = .segmented ∧ t.acq.runIndex = 0 ∧ t.acq.single = one ∧ t.acq.lastTrig = none ∧
      t.acq.countDone = 0 ∧ t.acq.lastDone = none ∧ t.acq.points = [] ∧ t.acq.mem = s.acq.mem ∧
      t.acq.serialCounter = s.acq.serialCounter ∧ t.setup = s.setup ∧ t.gen = s.gen ∧ t.mon = s.mon ∧
      t.raster = s.raster ∧ t.panel = s.panel ∧ t.store = s.store ∧ t.power = s.power ∧ t.link.notes = s.link.notes ∧
      t.link.inbound = s.link.inbound.drop 1 ∧ t.link.answers = s.link.answers ++ [⟨kind + 0x80, tag, [0]⟩]) ∧
  (∀ (c : Instr) (kind tag : Byte) (one : Bool) (s : State),
    (c = .run tag [] ∧ kind = 0x10 ∧ one = false ∨ c = .single tag [] ∧ kind = 0x12 ∧ one = true) →
    Ready kind tag [] s → s.power.state ≠ .standby →
    s.acq.state = .stopped → s.setup.runmode = .repeats → s.setup.roll = true → 21 ≤ s.setup.tbase → SegTableOk s →
    s.raster.job = none →
    ∃ t g, exec c s = .next t ∧
      g.interval = 10 * timePerDiv s.setup.tbase / 500 ∧ g.len = 500 ∧ g.pre = 0 ∧ g.mode = .peak ∧
      g.size = 500 * chanCount s.setup.enabled * 2 ∧ g.enabled = s.setup.enabled ∧ g.range = .ofFn s.setup.range ∧
      g.origin = 0 ∧ t.acq.state = .rolling ∧ t.acq.cur = 0 ∧
      segAt t 0 = ⟨.filling, 0, some {
        generation := s.gen, geo := g, armTag := s.acq.timeTag, trigTag := none, trigKind := none,
        attempts := 0, flags := .const .empty, meas := none, outcome := none }⟩ ∧
      (∀ k, k ≠ 0 → segAt t k = segAt s k ∨ (segAt s k).state = .done ∧ segAt t k = ⟨.free, (segAt s k).serial, none⟩) ∧
      (∀ x, memByte t.acq.memEpoch t.acq.mem x =
        (if x < 500 * (2 * s.setup.enabled.members.length) then 128 else memByte s.acq.memEpoch s.acq.mem x)) ∧
      t.acq.runKind = .roll ∧ t.acq.single = one ∧ (one = true → t.acq.columnsLeft = 500) ∧ t.acq.forcePending = false ∧
      t.acq.rollCount = 0 ∧ t.acq.lastTrig = none ∧ t.acq.countDone = 0 ∧ t.acq.lastDone = none ∧
      t.raster = ⟨.const [], [], none, none, 0, false⟩ ∧ (∃ e ∈ t.link.notes, e.src = .acq) ∧
      t.setup = s.setup ∧ t.gen = s.gen ∧ t.mon = s.mon ∧ t.panel = s.panel ∧ t.store = s.store ∧ t.power = s.power ∧
      t.link.inbound = s.link.inbound.drop 1 ∧ t.link.answers = s.link.answers ++ [⟨kind + 0x80, tag, [0]⟩])

/-- R62: STOP. In STANDBY it is refused; STOPPED it changes nothing; a capture in flight is abandoned, its segment FREE with
serial 0 and its points discarded, every other record and all of the memory as they were; HELD ends without its arm. R56:
FORCE by state: refused in STANDBY, STOPPED and ROLLING; force pending in HELD and ARMING; no effect in CAPTURING; in
WAITING, with P below L, a FORCED trigger is accepted at the tick the order is taken (R49). R49, R50, R56: a FORCE taken in
WAITING with P = L is the trigger and the capture end at once: what the trigger records stands in the record, an interval
that was not written is dropped (log 42), and the capture ends as O30 states. The state it ends in is spelled by `triggered`,
whose acquisition state CAPTURING is only what CAPTURE_END asks for. R61, R62, R113: STOP in ROLLING: segment 0 becomes DONE
PASS with the next serial, kind AUTO, no trigger tag, no measurements and the ring origin of R39; ACQ stops with single off
and enters its note; the planes come into window order, so that the screen shows what it showed, and the view segment is
segment 0. (That a column interval that has all its codes and is not written yet when STOP is taken is dropped is the model's
choice, log 50.) No byte of the memory changes, no draw entry is made, and the DONE PASS ends the current SEG_REJECT (flag
75, R81) and changes no more of MON. -/
def Obligations.StopAndForceActByState : Prop :=
  (∀ (tag : Byte) (s : State), Ready 0x11 tag [] s →
    (s.power.state = .standby → exec (.stop tag []) s = .next (answered 0x11 tag .wrongState [] s)) ∧
    (s.power.state ≠ .standby → s.acq.state = .stopped → exec (.stop tag []) s = .next (answered 0x11 tag .ok [] s)) ∧
    (s.power.state ≠ .standby → s.acq.state ∈ [AcqState.arming, .waiting, .capturing, .held] →
      ∃ t, exec (.stop tag []) s = .next t ∧ t.acq.state = .stopped ∧ t.acq.runKind = .idle ∧ t.acq.single = false ∧
        t.acq.forcePending = false ∧ (∃ e ∈ t.link.notes, e.src = .acq) ∧
        (s.acq.state ≠ .held → segAt t s.acq.cur = ⟨.free, 0, none⟩ ∧ t.acq.points = []) ∧
        (∀ k, k ≠ s.acq.cur ∨ s.acq.state = .held → segAt t k = segAt s k) ∧
        t.acq.mem = s.acq.mem ∧ t.acq.countDone = s.acq.countDone ∧ t.acq.lastDone = s.acq.lastDone ∧
        t.acq.serialCounter = s.acq.serialCounter ∧ t.setup = s.setup ∧ t.gen = s.gen ∧ t.mon = s.mon ∧
        t.raster = s.raster ∧ t.panel = s.panel ∧ t.store = s.store ∧ t.power = s.power ∧
        t.link.inbound = s.link.inbound.drop 1 ∧ t.link.answers = s.link.answers ++ [⟨0x91, tag, [0]⟩])) ∧
  (∀ (tag : Byte) (s : State), Ready 0x13 tag [] s →
    (s.power.state = .standby ∨ s.acq.state = .stopped ∨ s.acq.state = .rolling →
      exec (.force tag []) s = .next (answered 0x13 tag .wrongState [] s)) ∧
    (s.power.state ≠ .standby → s.acq.state = .held ∨ s.acq.state = .arming →
      exec (.force tag []) s = .next (answered 0x13 tag .ok [] { s with acq := { s.acq with forcePending := true } })) ∧
    (s.power.state ≠ .standby → s.acq.state = .capturing →
      exec (.force tag []) s = .next (answered 0x13 tag .ok [] s)) ∧
    (∀ r i, s.power.state ≠ .standby → s.acq.state = .waiting → segAt s s.acq.cur = r → r.info = some i →
      i.geo.pre < i.geo.len → ∃ t, exec (.force tag []) s = .next t ∧ t.acq.state = .capturing ∧
        segAt t s.acq.cur = { r with state := .filling, info := some { i with
          trigTag := some s.acq.timeTag, trigKind := some .forced
          geo := { i.geo with origin := if i.geo.pre = 0 then 0 else s.acq.preCount % i.geo.pre } } } ∧
        t.acq.lastTrig = some s.acq.timeTag ∧ t.acq.forcePending = false ∧ t.acq.mem = s.acq.mem ∧
        (∀ k, k ≠ s.acq.cur → segAt t k = segAt s k) ∧ t.setup = s.setup ∧ t.gen = s.gen ∧ t.mon = s.mon ∧
        t.raster = s.raster ∧ t.panel = s.panel ∧ t.store = s.store ∧ t.power = s.power ∧ t.link.notes = s.link.notes ∧
        t.link.inbound = s.link.inbound.drop 1 ∧ t.link.answers = s.link.answers ++ [⟨0x93, tag, [0]⟩])) ∧
  (∀ (tag : Byte) (s : State) (i : SegInfo), Ready 0x13 tag [] s → s.power.state ≠ .standby → s.acq.state = .waiting →
    (segAt s s.acq.cur).info = some i → i.geo.len ≤ i.geo.pre →
    ∃ t, exec .captureEnd (triggered .forced s.acq.timeTag i { s with link := { s.link with
        inbound := s.link.inbound.drop 1 } }) = .next t ∧
      exec (.force tag []) s =
        .next { t with link := { t.link with answers := t.link.answers ++ [⟨0x93, tag, [0x00]⟩] } }) ∧
  (∀ (tag : Byte) (s : State) (i : SegInfo), Ready 0x11 tag [] s → s.power.state ≠ .standby → s.acq.state = .rolling →
    s.acq.cur = 0 → (segAt s 0).info = some i →
    ∃ t ser, exec (.stop tag []) s = .next t ∧
      ser = (if s.acq.serialCounter = 0xFFFFFFFF#32 then 1 else s.acq.serialCounter + 1) ∧
      segAt t 0 = ⟨.done, ser, some { i with
        geo := { i.geo with origin := if 500 ≤ s.acq.rollCount then s.acq.rollCount % 500 else 0 }
        trigKind := some .auto, outcome := some .pass }⟩ ∧
      (∀ k, k ≠ 0 → segAt t k = segAt s k) ∧ t.acq.state = .stopped ∧ t.acq.runKind = .idle ∧ t.acq.single = false ∧
      t.acq.forcePending = false ∧ t.acq.serialCounter = ser ∧ t.acq.countDone = s.acq.countDone + 1 ∧
      t.acq.lastDone = some (0, ser) ∧ t.acq.mem = s.acq.mem ∧ (∃ e ∈ t.link.notes, e.src = .acq) ∧
      (∀ (n : Chan) (c r : Nat), RasterOk s → c < 500 → r < 400 → intensity (t.raster.planes.get n) c r =
        intensity (s.raster.planes.get n) (if s.raster.wrapped then (s.raster.writeCol + c) % 500 else c) r) ∧
      t.raster.view = some (0, ser) ∧ t.raster.list = s.raster.list ∧ t.raster.writeCol = 0 ∧ t.raster.wrapped = false ∧
      t.compose.startCol = 0 ∧ t.mon = { s.mon with current := s.mon.current &&& ~~~(flagBit 75) } ∧
      t.setup = s.setup ∧ t.gen = s.gen ∧ t.panel = s.panel ∧ t.store = s.store ∧
      t.power = s.power ∧ t.link.inbound = s.link.inbound.drop 1 ∧
      t.link.answers = s.link.answers ++ [⟨0x91, tag, [0]⟩])

/-- R58: the buffer an arm in REPEAT chooses: the preferred one unless it alone is pinned or pending; with both taken, a
pending record is armed over and never the pinned one. The preferred buffer is 1 when last DONE is index 0, else 0. R38, R47,
R57, R59, R64: a start from STOPPED whose arm would overlap the pinned region (the buffer that R58 chooses in REPEAT, segment
0 of the roll layout under the roll conditions, index 0 in SEGMENTED) enters HELD instead: the run record is at its start
values with the run kind of the run it waits for, the ACQ note is entered, the pinned DONE record stays, every other record
is as before or a DONE one now FREE with its serial (R37, R57), and neither the memory nor RASTER changes. While the pin
stands the arm goes on waiting. (The model's choices in HELD: R37 applied and the earlier layout kept, log 11; a pin on the
record armed, log 12; the run kind while a roll waits, log 13; the current index, log 37.) R38, R64: when the pin is released
in HELD, the arm takes place under the live setup as it stands: a SEGMENTED run arms its run index, a REPEAT run enters the
roll under the roll conditions (R60) or arms the buffer choice, made anew at the release (DEDUCED, log 49); the DONE records
that R37 frees become FREE. R50, R51: a SEGMENTED index below the last that becomes DONE, with no stop on rejection, makes no
draw entry; the run index rises by one, and the next index is armed under the present G and geometry (here of the same
layout, with P above 0 and no pin). R51, R58: a REPEAT capture that becomes DONE with single off and no stop on rejection:
one automatic entry for it stands in the draw list (in the place of an older one; dropped when eight ordered ones fill it),
the ACQ note is entered, and the other buffer is armed likewise. R37, R38, R47: that next arm under any layout, with P = 0
and with a pin: it takes place, or waits in HELD (ArmedOrHeld). (A record with no enabled channel has its measurements
present, log 40.) -/
def Obligations.HeldArmTakesItsBuffer : Prop :=
  (∀ s : State, ∃ pref, pref = (if s.acq.lastDone.map Prod.fst = some 0 then 1 else 0) ∧
    (pinnedSeg s pref = false → pendingSeg s pref = false → bufferChoice s = pref) ∧
    (pinnedSeg s pref = true ∨ pendingSeg s pref = true → pinnedSeg s (1 - pref) = false → pendingSeg s (1 - pref) = false →
      bufferChoice s = 1 - pref) ∧
    (pendingSeg s pref = true → pinnedSeg s pref = false → pinnedSeg s (1 - pref) = true → bufferChoice s = pref) ∧
    (pinnedSeg s pref = true → pinnedSeg s (1 - pref) = false → bufferChoice s = 1 - pref)) ∧
  ((∀ (c : Instr) (kind tag : Byte) (single : Bool) (s : State) (j : DrawJob) (k size : Nat) (rk : RunKind),
    (c = .run tag [] ∧ kind = 0x10 ∧ single = false ∨ c = .single tag [] ∧ kind = 0x12 ∧ single = true) →
    Ready kind tag [] s → s.power.state ≠ .standby → s.acq.state = .stopped → s.raster.job = some j →
    (s.setup.runmode = .repeats ∧ s.setup.rollConditions = false ∧
        k = bufferChoice { s with acq := { s.acq with lastDone := none } } ∧ size = s.setup.geometry.size ∧ rk = .repeats ∨
      s.setup.runmode = .repeats ∧ s.setup.rollConditions = true ∧ k = 0 ∧
        size = 500 * chanCount s.setup.enabled * 2 ∧ rk = .repeats ∨
      s.setup.runmode = .segmented ∧ k = 0 ∧ size = s.setup.geometry.size ∧ rk = .segmented) →
    j.lo < (k + 1) * size → k * size < j.hi → j.lo < j.hi →
    ∃ t, exec c s = .next t ∧ t.acq.state = .held ∧ t.acq.cur = 0 ∧ t.acq.runKind = rk ∧ t.acq.single = single ∧
      t.acq.lastTrig = none ∧ t.acq.countDone = 0 ∧ t.acq.lastDone = none ∧ (∃ e ∈ t.link.notes, e.src = .acq) ∧
      (∀ n, SegTableOk s → segAt t n = segAt s n ∨ (segAt s n).state = .done ∧ segAt t n = ⟨.free, (segAt s n).serial, none⟩) ∧
      (SegTableOk s → (segAt s j.seg).state = .done → (segAt s j.seg).serial = j.serial → segAt t j.seg = segAt s j.seg) ∧
      t.acq.mem = s.acq.mem ∧ t.acq.serialCounter = s.acq.serialCounter ∧ t.acq.prevLayout = s.acq.prevLayout ∧
      t.raster = s.raster ∧ t.setup = s.setup ∧ t.gen = s.gen ∧ t.mon = s.mon ∧ t.panel = s.panel ∧ t.store = s.store ∧
      t.power = s.power ∧ t.link.inbound = s.link.inbound.drop 1 ∧
      t.link.answers = s.link.answers ++ [⟨kind + 0x80, tag, [0x00]⟩]) ∧
  (∀ (s : State) (j : DrawJob), s.pins.resetLow = false → s.acq.state = .held → s.raster.job = some j →
    exec .armAtRelease s = .next s)) ∧
  (∀ s : State, s.pins.resetLow = false → s.acq.state = .held → s.raster.job = none → s.acq.runKind = .repeats →
    s.setup.rollConditions = false → s.acq.forcePending = false →
    ∃ t, exec .armAtRelease s = .next t ∧
      t.acq.state = (if s.setup.geometry.pre = 0 then .waiting else .arming) ∧ t.acq.cur = bufferChoice s ∧
      segAt t (bufferChoice s) = ⟨if s.setup.geometry.pre = 0 then .ready else .prefill, 0, some {
        generation := s.gen, geo := s.setup.geometry, armTag := s.acq.timeTag, trigTag := none, trigKind := none,
        attempts := 0, flags := .const .empty, meas := none, outcome := none }⟩ ∧
      t.acq.runKind = .repeats ∧ t.acq.single = s.acq.single ∧ t.acq.lastTrig = s.acq.lastTrig ∧ t.acq.mem = s.acq.mem ∧
      t.setup = s.setup ∧ t.gen = s.gen ∧ t.mon = s.mon ∧ t.raster = s.raster ∧ t.panel = s.panel ∧ t.store = s.store ∧
      t.power = s.power ∧ t.link = s.link) ∧
  (∀ s : State, s.pins.resetLow = false → s.acq.state = .held → s.raster.job = none → SegTableOk s →
    ∃ t, exec .armAtRelease s = .next t ∧ t.acq.countDone = s.acq.countDone ∧ t.acq.lastDone = s.acq.lastDone ∧
      t.acq.runIndex = s.acq.runIndex ∧ t.acq.single = s.acq.single ∧
      (s.acq.runKind = .segmented → t.acq.runKind = .segmented ∧
        Armed (FreedByArm s.acq.runIndex s.setup.geometry s) s.acq.runIndex s.setup.geometry s t) ∧
      (s.acq.runKind = .repeats → ¬ (s.setup.roll = true ∧ s.setup.runmode = .repeats ∧ 21 ≤ s.setup.tbase) →
        t.acq.runKind = .repeats ∧
        Armed (FreedByArm (bufferChoice s) s.setup.geometry s) (bufferChoice s) s.setup.geometry s t) ∧
      (s.acq.runKind = .repeats → s.setup.roll = true ∧ s.setup.runmode = .repeats ∧ 21 ≤ s.setup.tbase →
        ∃ g, IsRollGeometry s.setup g ∧ RollEntered g s t) ∧
      (t.acq.state ≠ .rolling → t.raster = s.raster ∧ t.link = s.link) ∧
      t.setup = s.setup ∧ t.gen = s.gen ∧ t.mon = s.mon ∧ t.panel = s.panel ∧ t.store = s.store ∧ t.power = s.power ∧
      t.link.inbound = s.link.inbound ∧ t.link.answers = s.link.answers) ∧
  (∀ (s : State) (i : SegInfo) (rej : Bool), s.pins.resetLow = false → s.acq.state = .capturing →
    (segAt s s.acq.cur).info = some i → i.geo.len ≤ i.geo.pre + s.acq.postCount → s.acq.runKind = .segmented →
    s.acq.runIndex = s.acq.cur → s.acq.cur + 1 < i.geo.nEff → rej = rejectedBy s i.geo (flagSetsAt s i) →
    (rej = true → s.setup.recapture ≤ i.attempts ∧ s.setup.stoprej = false) →
    SegTableOk s → s.raster.job = none → s.acq.prevLayout = some s.setup.geometry.layout →
    (∀ k r j, segAt s k = r → r.info = some j → k ≤ s.acq.cur ∧ j.geo.size = s.setup.geometry.size) →
    0 < s.setup.geometry.pre →
    ∃ t ser, exec .captureEnd s = .next t ∧
      ser = (if s.acq.serialCounter = 0xFFFFFFFF#32 then 1 else s.acq.serialCounter + 1) ∧
      segAt t s.acq.cur = ⟨.done, ser, some { i with
        flags := flagSetsAt s i, meas := some (measAt s i.geo), outcome := some (if rej then .rejected else .pass) }⟩ ∧
      segAt t (s.acq.cur + 1) = ⟨.prefill, 0, some {
        generation := s.gen, geo := s.setup.geometry, armTag := s.acq.timeTag, trigTag := none, trigKind := none,
        attempts := 0, flags := .const .empty, meas := none, outcome := none }⟩ ∧
      (∀ k, k ≠ s.acq.cur → k ≠ s.acq.cur + 1 → segAt t k = segAt s k) ∧
      t.acq.state = .arming ∧ t.acq.cur = s.acq.cur + 1 ∧ t.acq.runIndex = s.acq.cur + 1 ∧ t.acq.runKind = .segmented ∧
      t.acq.single = s.acq.single ∧ t.acq.countDone = s.acq.countDone + 1 ∧ t.acq.lastDone = some (s.acq.cur, ser) ∧
      t.acq.lastTrig = s.acq.lastTrig ∧ t.acq.mem = s.acq.mem ∧ t.raster = s.raster ∧
      (∃ e ∈ t.link.notes, e.src = .acq) ∧ t.setup = s.setup ∧ t.gen = s.gen ∧ t.panel = s.panel ∧ t.store = s.store ∧
      t.power = s.power) ∧
  (∀ (s : State) (i : SegInfo) (rej : Bool), s.pins.resetLow = false → s.acq.state = .capturing →
    (segAt s s.acq.cur).info = some i → i.geo.len ≤ i.geo.pre + s.acq.postCount → s.acq.runKind = .repeats →
    s.acq.single = false → s.acq.cur ≤ 1 → rej = rejectedBy s i.geo (flagSetsAt s i) →
    (rej = true → s.setup.recapture ≤ i.attempts ∧ s.setup.stoprej = false) →
    SegTableOk s → s.raster.job = none → s.power.state ≠ .standby → i.geo.enabled.nonempty = true →
    s.acq.prevLayout = some s.setup.geometry.layout →
    (∀ k r j, segAt s k = r → r.info = some j → k ≤ 1 ∧ j.geo.size = s.setup.geometry.size) →
    0 < s.setup.geometry.pre →
    ∃ t ser entry, exec .captureEnd s = .next t ∧
      ser = (if s.acq.serialCounter = 0xFFFFFFFF#32 then 1 else s.acq.serialCounter + 1) ∧
      segAt t s.acq.cur = ⟨.done, ser, some { i with
        flags := flagSetsAt s i, meas := some (measAt s i.geo), outcome := some (if rej then .rejected else .pass) }⟩ ∧
      segAt t (1 - s.acq.cur) = ⟨.prefill, 0, some {
        generation := s.gen, geo := s.setup.geometry, armTag := s.acq.timeTag, trigTag := none, trigKind := none,
        attempts := 0, flags := .const .empty, meas := none, outcome := none }⟩ ∧
      (∀ k, 1 < k → segAt t k = segAt s k) ∧
      t.acq.state = .arming ∧ t.acq.cur = 1 - s.acq.cur ∧ t.acq.runKind = .repeats ∧ t.acq.single = false ∧
      t.acq.countDone = s.acq.countDone + 1 ∧ t.acq.lastDone = some (s.acq.cur, ser) ∧
      t.acq.lastTrig = s.acq.lastTrig ∧ t.acq.mem = s.acq.mem ∧ t.acq.points = [] ∧
      entry = ⟨s.acq.cur, ser, i.geo.enabled, decide (s.setup.persist = .off), true⟩ ∧
      t.raster = { s.raster with list :=
        if ∃ e ∈ s.raster.list, e.automatic = true then s.raster.list.map (fun e => if e.automatic then entry else e)
        else if s.raster.list.length < 8 then s.raster.list ++ [entry] else s.raster.list } ∧
      (∃ e ∈ t.link.notes, e.src = .acq) ∧ t.setup = s.setup ∧ t.gen = s.gen ∧ t.panel = s.panel ∧ t.store = s.store ∧
      t.power = s.power) ∧
  (∀ (s v : State) (i : SegInfo) (rej : Bool) (ser : Serial) (k : Nat) (list : List DrawEntry) (entry : DrawEntry),
    s.pins.resetLow = false → s.acq.state = .capturing → (segAt s s.acq.cur).info = some i →
    i.geo.len ≤ i.geo.pre + s.acq.postCount → SegTableOk s → rej = rejectedBy s i.geo (flagSetsAt s i) →
    (rej = true → s.setup.recapture ≤ i.attempts ∧ s.setup.stoprej = false) →
    ser = (if s.acq.serialCounter = 0xFFFFFFFF#32 then 1 else s.acq.serialCounter + 1) →
    entry = ⟨s.acq.cur, ser, i.geo.enabled, decide (s.setup.persist = .off), true⟩ →
    v = { s with
      acq := { s.acq with
        serialCounter := ser, countDone := s.acq.countDone + 1, lastDone := some (s.acq.cur, ser)
        runIndex := if s.acq.runKind = .segmented then s.acq.runIndex + 1 else s.acq.runIndex
        segs := tabSet (.free 0) s.acq.segs s.acq.cur ⟨.done, ser, some { i with
          flags := flagSetsAt s i, meas := some (measAt s i.geo), outcome := some (if rej then .rejected else .pass) }⟩ }
      raster := { s.raster with list := list } } →
    (s.acq.runKind = .segmented ∧ s.acq.cur + 1 < i.geo.nEff ∧ list = s.raster.list ∧ k = s.acq.runIndex + 1 ∨
      s.acq.runKind = .repeats ∧ s.acq.single = false ∧ k = bufferChoice v ∧ list =
        (if i.geo.enabled.nonempty = false ∨ s.power.state = .standby then s.raster.list
        else if ∃ e ∈ s.raster.list, e.automatic = true then s.raster.list.map (fun e => if e.automatic then entry else e)
        else if s.raster.list.length < 8 then s.raster.list ++ [entry] else s.raster.list)) →
    ∃ t, exec .captureEnd s = .next t ∧ ArmedOrHeld k v t ∧ t.acq.runKind = v.acq.runKind ∧ t.acq.runIndex = v.acq.runIndex ∧
      t.acq.countDone = v.acq.countDone ∧ t.acq.lastDone = v.acq.lastDone ∧ t.raster = v.raster ∧
      (∃ e ∈ t.link.notes, e.src = .acq) ∧ t.setup = s.setup ∧ t.gen = s.gen ∧ t.panel = s.panel ∧ t.store = s.store ∧
      t.power = s.power)

/-! ## ACQ: points, triggers, capture end -/

/-- R25, R26, R27, R32, R33, R39, R71: a code that comes while the interval in progress has fewer codes than it takes, and
neither READY, capture end nor the end of a roll is due, joins the interval: the first code of each lane, the smallest and
the largest, whether one was 0 or 255 and whether the lock was low; a lane without lock gives its held code, and a locked
lane's code becomes the held one. Nothing else of ACQ changes but the primes and the clock, and the scans of a tick it begins
follow (O2). R27, R32, R34, R70, R71: in ARMING and in CAPTURING, whatever scans fell between its codes, the interval that
has all its codes is written as one point: in the ring position preCount mod P before the trigger, at P + postCount after it.
The channels of the capture whose lock was low for a code of it are marked LANE; the adders take the point at that position
(the first code in SAMPLE, with a code of 0 or 255 anywhere in the interval as overrange; the smallest and the largest in
PEAK, overrange by these two); and the next interval begins. The row's codes come first, one by one: with a whole interval
after them the row goes on as this write does, with none it ends there. R26, R32, R33, R34: the codes of one interval, taken
while the capture is in PREFILL or FILLING, nothing else is due and no scan falls (log 17), are written as one point at its
position (the ring before the trigger, P onward after it): the first code of each enabled channel in SAMPLE, the smallest
then the largest in PEAK, a lane without lock giving its held code. Every other byte of the memory, and every block but ACQ
and the lane pins, stays as it was. R32, R34: while the segment is READY, each further interval that has all its codes is
written over the oldest pre-trigger position, preCount mod P; with P = 0 there is no ring, and nothing is written. -/
def Obligations.PointIsWrittenAtItsPosition : Prop :=
  (∀ (x : Sample) (s : State) (i : SegInfo), s.pins.resetLow = false → (segAt s s.acq.cur).info = some i →
    (s.acq.cur + 1) * i.geo.size ≤ 67108864 → s.acq.ivCount < i.geo.interval →
    (s.acq.state = .capturing ∧ i.geo.pre + s.acq.postCount < i.geo.len ∨ s.acq.state = .arming ∧ s.acq.preCount < i.geo.pre ∨
      s.acq.state = .rolling ∧ (s.acq.single = true → 0 < s.acq.columnsLeft)) →
    ∃ t, exec (.edgeTrigger [x]) s = .next (scanAtTick t) ∧ t.acq.ivCount = s.acq.ivCount + 1 ∧
      (∀ (n : Chan) (c : Byte) (y : IntervalChan), c = (if s.pins.lock.get n then x.code.get n else s.acq.held.get n) →
        y = s.acq.iv.get n →
        t.acq.iv.get n = {
          first := if s.acq.ivCount = 0 then c else y.first
          lo := if c.toNat < y.lo.toNat then c else y.lo
          hi := if y.hi.toNat < c.toNat then c else y.hi
          ovr := y.ovr || decide (c = 0) || decide (c = 255)
          lockLow := y.lockLow || !s.pins.lock.get n } ∧
        t.acq.held.get n = c) ∧
      t.acq.state = s.acq.state ∧ t.acq.segs = s.acq.segs ∧ t.acq.mem = s.acq.mem ∧ t.acq.points = s.acq.points ∧
      t.acq.cur = s.acq.cur ∧ t.acq.preCount = s.acq.preCount ∧ t.acq.postCount = s.acq.postCount ∧
      t.acq.rollCount = s.acq.rollCount ∧ t.acq.columnsLeft = s.acq.columnsLeft ∧ t.acq.lastTrig = s.acq.lastTrig ∧
      t.setup = s.setup ∧ t.gen = s.gen ∧ t.mon = s.mon ∧ t.raster = s.raster ∧ t.compose = s.compose ∧
      t.panel = s.panel ∧ t.store = s.store ∧ t.power = s.power ∧ t.link = s.link ∧
      t.pins = { s.pins with lanes := x } ∧ t.pending = s.pending) ∧
  ((∀ (s : State) (i : SegInfo) (q : Nat), s.pins.resetLow = false → (segAt s s.acq.cur).info = some i →
    (s.acq.cur + 1) * i.geo.size ≤ 67108864 → 0 < s.acq.ivCount → i.geo.interval ≤ s.acq.ivCount →
    (s.acq.state = .capturing ∧ q = i.geo.pre + s.acq.postCount ∨
      s.acq.state = .arming ∧ 0 < i.geo.pre ∧ q = s.acq.preCount % i.geo.pre) →
    s.acq.cur * i.geo.size + (q + 1) * (chanCount i.geo.enabled * pointBytes i.geo.mode) ≤ 67108864 →
    ∃ t fl pm, exec (.pointWritten []) s = .next t ∧
      (∀ a point, a = s.acq.cur * i.geo.size + q * (chanCount i.geo.enabled * pointBytes i.geo.mode) →
        point = i.geo.enabled.members.flatMap (fun n => match i.geo.mode with
          | .sample => [(s.acq.iv.get n).first]
          | .peak => [(s.acq.iv.get n).lo, (s.acq.iv.get n).hi]) →
        t.acq.mem = memStore s.acq.mem a point ∧
        ∀ x, x < a ∨ a + point.length ≤ x → memByte t.acq.memEpoch t.acq.mem x = memByte s.acq.memEpoch s.acq.mem x) ∧
      segAt t s.acq.cur = { segAt s s.acq.cur with info := some { i with flags := fl } } ∧
      (∀ n, fl.get n = if i.geo.enabled.get n = true ∧ (s.acq.iv.get n).lockLow = true
        then { i.flags.get n with lane := true } else i.flags.get n) ∧
      tabGet? t.acq.points q = some pm ∧ (∀ j, j ≠ q → tabGet? t.acq.points j = tabGet? s.acq.points j) ∧
      (∀ (n : Chan) (y : IntervalChan), y = s.acq.iv.get n → pm.get n = match i.geo.mode with
        | .sample => ⟨y.first, y.first, y.ovr⟩
        | .peak => ⟨y.lo, y.hi, decide (y.lo = 0) || decide (y.hi = 255)⟩) ∧
      t.acq.preCount = (if s.acq.state = .capturing then s.acq.preCount else s.acq.preCount + 1) ∧
      t.acq.postCount = (if s.acq.state = .capturing then s.acq.postCount + 1 else s.acq.postCount) ∧
      t.acq.ivCount = 0 ∧ t.acq.iv = .const ⟨0, 255, 0, false, false⟩ ∧ t.acq.state = s.acq.state ∧
      (∀ k, k ≠ s.acq.cur → segAt t k = segAt s k) ∧ t.acq.cur = s.acq.cur ∧ t.acq.runKind = s.acq.runKind ∧
      t.acq.lastTrig = s.acq.lastTrig ∧ t.acq.timeTag = s.acq.timeTag ∧
      t.setup = s.setup ∧ t.gen = s.gen ∧ t.mon = s.mon ∧ t.raster = s.raster ∧ t.compose = s.compose ∧
      t.panel = s.panel ∧ t.store = s.store ∧ t.power = s.power ∧ t.link = s.link ∧ t.pins = s.pins ∧
      t.pending = s.pending) ∧
  (∀ (codes : List Sample) (s s1 : State), s.pins.resetLow = false → captureExists s = true → s1 = codes.foldl passCode s →
    (s1.acq.state = .rolling ∨ s1.acq.ivCount = 0 ∨ (∃ i, (segAt s1 s1.acq.cur).info = some i ∧ s1.acq.ivCount < i.geo.interval) →
      exec (.pointWritten codes) s = .next s1) ∧
    (captureExists s1 = true → exec (.pointWritten codes) s = exec (.pointWritten []) s1))) ∧
  (∀ (codes : List Sample) (s : State) (i : SegInfo) (q : Nat), s.pins.resetLow = false →
    (segAt s s.acq.cur).info = some i → (s.acq.cur + 1) * i.geo.size ≤ 67108864 → s.acq.ivCount = 0 →
    s.acq.iv = .const IntervalChan.empty →
    codes ≠ [] → codes.length = i.geo.interval → NoScanFalls codes.length s →
    (s.acq.state = .capturing ∧ i.geo.pre + s.acq.postCount < i.geo.len ∧ q = i.geo.pre + s.acq.postCount ∨
      s.acq.state = .arming ∧ s.acq.preCount < i.geo.pre ∧ q = s.acq.preCount) →
    s.acq.cur * i.geo.size + (q + 1) * (chanCount i.geo.enabled * pointBytes i.geo.mode) ≤ 67108864 →
    ∃ t, exec (.pointWritten codes) s = .next t ∧
      (let a := s.acq.cur * i.geo.size + q * (chanCount i.geo.enabled * pointBytes i.geo.mode)
       let code := fun (x : Sample) (n : Chan) => if s.pins.lock.get n then x.code.get n else s.acq.held.get n
       let point := i.geo.enabled.members.flatMap (fun n => match i.geo.mode with
         | .sample => [(codes.map (fun x => code x n)).headD 0]
         | .peak => [BitVec.ofNat 8 (codes.foldl (fun m x => Nat.min m (code x n).toNat) 255),
             BitVec.ofNat 8 (codes.foldl (fun m x => Nat.max m (code x n).toNat) 0)])
       t.acq.mem = memStore s.acq.mem a point ∧
       ∀ x, x < a ∨ a + point.length ≤ x → memByte t.acq.memEpoch t.acq.mem x = memByte s.acq.memEpoch s.acq.mem x) ∧
      t.acq.state = s.acq.state ∧ t.acq.ivCount = 0 ∧ t.acq.cur = s.acq.cur ∧
      t.acq.preCount = (if s.acq.state = .capturing then s.acq.preCount else s.acq.preCount + 1) ∧
      t.acq.postCount = (if s.acq.state = .capturing then s.acq.postCount + 1 else s.acq.postCount) ∧
      (∀ k, k ≠ s.acq.cur → segAt t k = segAt s k) ∧
      t.setup = s.setup ∧ t.gen = s.gen ∧ t.mon = s.mon ∧ t.raster = s.raster ∧ t.compose = s.compose ∧ t.panel = s.panel ∧
      t.store = s.store ∧ t.power = s.power ∧ t.link = s.link ∧ t.pending = s.pending) ∧
  (∀ (s : State) (i : SegInfo), s.pins.resetLow = false → s.acq.state = .waiting → (segAt s s.acq.cur).info = some i →
    (s.acq.cur + 1) * i.geo.size ≤ 67108864 → 0 < s.acq.ivCount → i.geo.interval ≤ s.acq.ivCount →
    ∃ t, exec (.pointWritten []) s = .next t ∧ t.acq.state = .waiting ∧ t.acq.ivCount = 0 ∧
      (i.geo.pre = 0 → t.acq.mem = s.acq.mem ∧ t.acq.points = s.acq.points ∧ t.acq.preCount = s.acq.preCount) ∧
      (∀ a point, 0 < i.geo.pre →
        a = s.acq.cur * i.geo.size + s.acq.preCount % i.geo.pre * (chanCount i.geo.enabled * pointBytes i.geo.mode) →
        point = i.geo.enabled.members.flatMap (fun n => match i.geo.mode with
          | .sample => [(s.acq.iv.get n).first]
          | .peak => [(s.acq.iv.get n).lo, (s.acq.iv.get n).hi]) →
        a + chanCount i.geo.enabled * pointBytes i.geo.mode ≤ 67108864 →
        t.acq.mem = memStore s.acq.mem a point ∧ t.acq.preCount = s.acq.preCount + 1 ∧
        ∀ x, x < a ∨ a + point.length ≤ x → memByte t.acq.memEpoch t.acq.mem x = memByte s.acq.memEpoch s.acq.mem x) ∧
      (∀ k, k ≠ s.acq.cur → segAt t k = segAt s k) ∧ t.acq.readyTick = s.acq.readyTick ∧ t.setup = s.setup ∧
      t.gen = s.gen ∧ t.mon = s.mon ∧ t.raster = s.raster ∧ t.compose = s.compose ∧ t.panel = s.panel ∧
      t.store = s.store ∧ t.power = s.power ∧ t.link = s.link ∧ t.pins = s.pins)

/-- R48: once the P-th point has been written the segment becomes READY and ACQ enters WAITING; the READY tick is the tick of
the last code taken (log 14). R55: once TAUTO × 125,000 ticks have passed since the READY tick, a READY segment under TMODE
AUTO is triggered with kind AUTO and that tick, the deadline, as its tag (P below L). That the row taken later still gives
the deadline's tag is read from R55 (log 15), and an interval that has all its codes but is not written counts as the one in
progress (log 42). R48, R49, R50, R55, R56: with P = L the AUTO trigger is the capture end at once, its tag the deadline (log
15). A force pending when the segment becomes READY is taken at once, with the present tick as its tag: with P below L the
segment is FILLING and ACQ CAPTURING, with P = L it is the capture end. An interval not written counts as the one in progress
(log 42). -/
def Obligations.ReadyThenAutoTrigger : Prop :=
  (∀ (s : State) (r : SegRecord) (i : SegInfo), s.pins.resetLow = false → s.acq.state = .arming →
    segAt s s.acq.cur = r → r.info = some i → i.geo.pre ≤ s.acq.preCount → s.acq.forcePending = false →
    ∃ t, exec .segmentReady s = .next t ∧ t.acq.state = .waiting ∧ segAt t s.acq.cur = { r with state := .ready } ∧
      t.acq.readyTick = (if s.acq.nsPhase = 0 then s.acq.timeTag - 1 else s.acq.timeTag) ∧
      (∀ k, k ≠ s.acq.cur → segAt t k = segAt s k) ∧ t.acq.mem = s.acq.mem ∧ t.acq.runKind = s.acq.runKind ∧
      t.setup = s.setup ∧ t.gen = s.gen ∧ t.mon = s.mon ∧ t.raster = s.raster ∧ t.panel = s.panel ∧ t.store = s.store ∧
      t.power = s.power ∧ t.link = s.link ∧ t.pins = s.pins) ∧
  (∀ (s : State) (r : SegRecord) (i : SegInfo) (deadline : Tick), s.pins.resetLow = false → s.acq.state = .waiting → s.setup.tmode = .auto →
    segAt s s.acq.cur = r → r.info = some i → i.geo.pre < i.geo.len →
    s.setup.tauto * 125000 ≤ (s.acq.timeTag - s.acq.readyTick).toNat →
    deadline = s.acq.readyTick + BitVec.ofNat 48 (s.setup.tauto * 125000) →
    ∃ t, exec .autoTrigger s = .next t ∧ t.acq.state = .capturing ∧
      segAt t s.acq.cur = { r with state := .filling, info := some { i with
        trigTag := some deadline, trigKind := some .auto
        geo := { i.geo with origin := if i.geo.pre = 0 then 0 else s.acq.preCount % i.geo.pre } } } ∧
      t.acq.lastTrig = some deadline ∧ t.acq.mem = s.acq.mem ∧ (∀ k, k ≠ s.acq.cur → segAt t k = segAt s k) ∧
      t.setup = s.setup ∧ t.gen = s.gen ∧ t.mon = s.mon ∧ t.raster = s.raster ∧ t.panel = s.panel ∧ t.store = s.store ∧
      t.power = s.power ∧ t.link = s.link ∧ t.pins = s.pins) ∧
  ((∀ (s : State) (i : SegInfo) (deadline : Tick), s.pins.resetLow = false → s.acq.state = .waiting → s.setup.tmode = .auto →
    (segAt s s.acq.cur).info = some i → i.geo.len ≤ i.geo.pre →
    s.setup.tauto * 125000 ≤ (s.acq.timeTag - s.acq.readyTick).toNat →
    deadline = s.acq.readyTick + BitVec.ofNat 48 (s.setup.tauto * 125000) →
    exec .autoTrigger s = exec .captureEnd (triggered .auto deadline i s)) ∧
  (∀ (s : State) (r : SegRecord) (i : SegInfo), s.pins.resetLow = false → s.acq.state = .arming →
    segAt s s.acq.cur = r → r.info = some i → i.geo.pre ≤ s.acq.preCount → s.acq.forcePending = true →
    (i.geo.pre < i.geo.len → ∃ t, exec .segmentReady s = .next t ∧ t.acq.state = .capturing ∧
      segAt t s.acq.cur = { r with state := .filling, info := some { i with
        trigTag := some s.acq.timeTag, trigKind := some .forced
        geo := { i.geo with origin := if i.geo.pre = 0 then 0 else s.acq.preCount % i.geo.pre } } } ∧
      t.acq.lastTrig = some s.acq.timeTag ∧ t.acq.forcePending = false ∧ t.acq.postCount = 0 ∧ t.acq.mem = s.acq.mem ∧
      (∀ k, k ≠ s.acq.cur → segAt t k = segAt s k) ∧ t.setup = s.setup ∧ t.gen = s.gen ∧ t.mon = s.mon ∧
      t.raster = s.raster ∧ t.panel = s.panel ∧ t.store = s.store ∧ t.power = s.power ∧ t.link = s.link) ∧
    (i.geo.len ≤ i.geo.pre → ∃ c, exec .segmentReady s = exec .captureEnd (triggered .forced s.acq.timeTag i { s with
      compose := c
      acq := { s.acq with
        readyTick := if s.acq.nsPhase = 0 then s.acq.timeTag - 1 else s.acq.timeTag
        segs := tabSet (.free 0) s.acq.segs s.acq.cur { r with state := .ready } } }))))

/-- R49, R52, R53, R54: a code that crosses the level code in the slope asked for, with its prime set, in READY, with the
holdoff passed (or no trigger yet) and P below L, is accepted as an EDGE trigger at its tick: the segment FILLING with tag,
kind and ring origin, ACQ CAPTURING. With the holdoff not passed it is discarded, and its prime is cleared all the same. That
the scans of the tick which the code may begin come after it (scanAtTick) is the model's choice (log 17); O2 says when they
fall. R53, R54: what a code leaves of the two primes, in PREFILL and in READY, whether its crossing is accepted (P below L),
discarded or no candidate. With a channel source and level code V (R52) a code at or below V − THYST sets the rising prime
and one at or above V + THYST the falling one; with EXT a low level sets the rising prime and a high level the falling one. A
crossing clears its prime: a code at or above V, or a high level, the rising one, and a code at or below V, or a low level,
the falling one. In PREFILL every candidate is discarded. The scans of the tick that the code begins come after it (log 17).
R49, R50, R54: an EDGE trigger accepted with P = L is the capture end at its tick, as O30 states; its code's interval, not
written, is dropped (log 42). The scans of the tick that the code begins come after it (log 17, O2). R52: the level code is
128 plus TLEVEL × 25 / hw rounded half away from zero, held in 1..254, hw being the µV per division of the source channel's
present hardware range. -/
def Obligations.EdgeCrossingTriggers : Prop :=
  (∀ (x : Sample) (s : State) (r : SegRecord) (i : SegInfo) (high low : Bool), s.pins.resetLow = false →
    s.acq.state = .waiting → segAt s s.acq.cur = r → r.info = some i → i.geo.pre < i.geo.len →
    (s.acq.cur + 1) * i.geo.size ≤ 67108864 → s.acq.ivCount < i.geo.interval → autoOverdue s = false →
    (match s.setup.tsrc with
     | .chan n =>
       let c : Int := (if s.pins.lock.get n then x.code.get n else s.acq.held.get n).toNat
       high = decide (levelCode s.setup n ≤ c) ∧ low = decide (c ≤ levelCode s.setup n)
     | .ext => high = x.ext ∧ low = !x.ext) →
    (s.setup.tslope ≠ .fall ∧ s.acq.risePrime = true ∧ high = true ∨
      s.setup.tslope ≠ .rise ∧ s.acq.fallPrime = true ∧ low = true) →
    ((s.acq.lastTrig = none ∨ ∃ l, s.acq.lastTrig = some l ∧ s.setup.holdoff * 125 ≤ (s.acq.timeTag - l).toNat) →
      ∃ t, exec (.edgeTrigger [x]) s = .next (scanAtTick t) ∧ t.acq.state = .capturing ∧
        segAt t s.acq.cur = { r with state := .filling, info := some { i with
          trigTag := some s.acq.timeTag, trigKind := some .edge
          geo := { i.geo with origin := if i.geo.pre = 0 then 0 else s.acq.preCount % i.geo.pre } } } ∧
        t.acq.lastTrig = some s.acq.timeTag ∧ t.acq.postCount = 0 ∧ t.acq.mem = s.acq.mem ∧
        (∀ k, k ≠ s.acq.cur → segAt t k = segAt s k) ∧ t.setup = s.setup ∧ t.gen = s.gen ∧ t.mon = s.mon ∧
        t.raster = s.raster ∧ t.panel = s.panel ∧ t.store = s.store ∧ t.power = s.power ∧ t.link = s.link) ∧
    (∀ l, s.acq.lastTrig = some l → (s.acq.timeTag - l).toNat < s.setup.holdoff * 125 →
      ∃ t, exec (.edgeTrigger [x]) s = .next (scanAtTick t) ∧ t.acq.state = .waiting ∧ t.acq.segs = s.acq.segs ∧
        t.acq.lastTrig = s.acq.lastTrig ∧ t.acq.mem = s.acq.mem ∧
        (high = true → t.acq.risePrime = (seen s.setup (.ofFn (passedCode s x)) x.ext).setsRise) ∧
        (low = true → t.acq.fallPrime = (seen s.setup (.ofFn (passedCode s x)) x.ext).setsFall))) ∧
  (∀ (x : Sample) (s : State) (i : SegInfo) (high low setsRise setsFall : Bool), s.pins.resetLow = false →
    (segAt s s.acq.cur).info = some i → (s.acq.cur + 1) * i.geo.size ≤ 67108864 → s.acq.ivCount < i.geo.interval →
    (s.acq.state = .waiting ∧ autoOverdue s = false ∧ i.geo.pre < i.geo.len ∨ s.acq.state = .arming ∧ s.acq.preCount < i.geo.pre) →
    (match s.setup.tsrc with
     | .chan n =>
       let c : Int := (if s.pins.lock.get n then x.code.get n else s.acq.held.get n).toNat
       let v := levelCode s.setup n
       high = decide (v ≤ c) ∧ low = decide (c ≤ v) ∧ setsRise = decide (c ≤ v - s.setup.thyst) ∧
         setsFall = decide (v + s.setup.thyst ≤ c)
     | .ext => high = x.ext ∧ low = !x.ext ∧ setsRise = !x.ext ∧ setsFall = x.ext) →
    ∃ t, exec (.edgeTrigger [x]) s = .next (scanAtTick t) ∧
      t.acq.risePrime = (setsRise || s.acq.risePrime && !high) ∧ t.acq.fallPrime = (setsFall || s.acq.fallPrime && !low) ∧
      (s.acq.state = .arming → t.acq.state = .arming ∧ t.acq.segs = s.acq.segs ∧ t.acq.lastTrig = s.acq.lastTrig)) ∧
  (∀ (x : Sample) (s : State) (i : SegInfo) (high low : Bool), s.pins.resetLow = false →
    s.acq.state = .waiting → (segAt s s.acq.cur).info = some i → i.geo.len ≤ i.geo.pre →
    (s.acq.cur + 1) * i.geo.size ≤ 67108864 → s.acq.ivCount < i.geo.interval → autoOverdue s = false →
    (match s.setup.tsrc with
     | .chan n =>
       let c : Int := (if s.pins.lock.get n then x.code.get n else s.acq.held.get n).toNat
       high = decide (levelCode s.setup n ≤ c) ∧ low = decide (c ≤ levelCode s.setup n)
     | .ext => high = x.ext ∧ low = !x.ext) →
    (s.setup.tslope ≠ .fall ∧ s.acq.risePrime = true ∧ high = true ∨
      s.setup.tslope ≠ .rise ∧ s.acq.fallPrime = true ∧ low = true) →
    (s.acq.lastTrig = none ∨ ∃ l, s.acq.lastTrig = some l ∧ s.setup.holdoff * 125 ≤ (s.acq.timeTag - l).toNat) →
    ∃ (held : PerChan Byte) (ns wraps : Nat) (iv : PerChan IntervalChan) (rise fall : Bool) (t : State),
      exec .captureEnd (triggered .edge s.acq.timeTag i { s with
        pins := { s.pins with lanes := x }
        acq := { s.acq with
          held := held, nsPhase := ns, timeTag := if s.acq.nsPhase < 7 then s.acq.timeTag else s.acq.timeTag + 1
          wraps := wraps, ivCount := s.acq.ivCount + 1, iv := iv, risePrime := rise, fallPrime := fall } }) = .next t ∧
      exec (.edgeTrigger [x]) s = .next (scanAtTick t)) ∧
  (∀ (u : Setup) (n : Chan) (hw : Int), hw = hwOf (rangeOf (u.ch.get n).scale) →
    levelCode u n = max 1 (min 254 (128 +
      (if 0 ≤ u.tlevel then (50 * u.tlevel + hw) / (2 * hw) else -((-(50 * u.tlevel) + hw) / (2 * hw))))))

/-- R50, R51, R85: capture end of a single REPEAT capture. One that passes becomes DONE PASS with the next serial (after
4,294,967,295 comes 1), enters one automatic draw entry and the ACQ note, and ACQ stops; one that is rejected below RECAPTURE
attempts is taken again into the same index with the present G, one more attempt and no serial. R48, R50, R56, R72, R79, R85:
a capture that is rejected below RECAPTURE attempts is taken again, in a single or continuous REPEAT run and in a SEGMENTED
run alike: the same index is PREFILL, or READY with P = 0 (where a pending force is taken at once), under the geometry it
had, the present G, the arm tag of this tick and one more attempt, with its trigger, flag sets and measurements gone; no
serial is given, no draw entry or note is made, the run record, single and the last trigger tag stay, and MON takes the
results of the capture end. R70, R71, R73: what the adders of a channel hold over the points that stand in the record; a
channel outside the enabled set keeps them cleared. R44: the stored measurements. R74: the four quantities in µV, hw being
the µV per division of the range in the snapshot. R75: the strict comparisons with the present thresholds. R76, R84: the flag
set of a measured channel, and whether a REJECT set meets one. R77, R79: what a capture end gives MON: of the flags of a
channel that it measured, OVR and the sixteen limit flags; the current states of all four channels' OVR and limit flags are
replaced, every true result latches, and no other flag changes. R50, R81, R84, R85: the capture end of a segment: one that
passes, or is rejected with no recapture left, becomes DONE with the next serial, its measurements and its flag sets;
SEG_REJECT occurs with REJECTED, and its current state ends with PASS. (That a record with no enabled channel has its
measurements present as well is the model's choice, log 40.) -/
def Obligations.CaptureEndFinishesOrRecaptures : Prop :=
  (∀ (s : State) (i : SegInfo), s.pins.resetLow = false → s.acq.state = .capturing →
    (segAt s s.acq.cur).info = some i → i.geo.len ≤ i.geo.pre + s.acq.postCount → s.acq.runKind = .repeats →
    s.acq.single = true → i.geo.enabled.nonempty = true → s.power.state ≠ .standby →
    (s.raster.list.length < 8 ∨ ∃ e ∈ s.raster.list, e.automatic = true) →
    (rejectedBy s i.geo (flagSetsAt s i) = false → ∃ t ser, exec .captureEnd s = .next t ∧
      ser = (if s.acq.serialCounter = 0xFFFFFFFF#32 then 1 else s.acq.serialCounter + 1) ∧
      segAt t s.acq.cur = ⟨.done, ser, some { i with
        flags := flagSetsAt s i, meas := some (measAt s i.geo), outcome := some .pass }⟩ ∧
      t.acq.state = .stopped ∧ t.acq.runKind = .idle ∧ t.acq.single = false ∧ t.acq.serialCounter = ser ∧
      t.acq.countDone = s.acq.countDone + 1 ∧ t.acq.lastDone = some (s.acq.cur, ser) ∧ t.acq.mem = s.acq.mem ∧
      (∃ e ∈ t.raster.list, e.automatic = true ∧ e.seg = s.acq.cur ∧ e.serial = ser ∧ e.chans = i.geo.enabled) ∧
      (∃ e ∈ t.link.notes, e.src = .acq) ∧ (∀ k, k ≠ s.acq.cur → segAt t k = segAt s k) ∧
      t.setup = s.setup ∧ t.gen = s.gen ∧ t.panel = s.panel ∧ t.store = s.store ∧ t.power = s.power ∧
      t.link.inbound = s.link.inbound ∧ t.link.answers = s.link.answers) ∧
    (rejectedBy s i.geo (flagSetsAt s i) = true → i.attempts < s.setup.recapture → s.acq.forcePending = false →
      ∃ t, exec .captureEnd s = .next t ∧
      segAt t s.acq.cur = ⟨if i.geo.pre = 0 then .ready else .prefill, 0, some { i with
        generation := s.gen, geo := { i.geo with origin := 0 }, armTag := s.acq.timeTag, trigTag := none, trigKind := none,
        attempts := i.attempts + 1, flags := .const .empty, meas := none, outcome := none }⟩ ∧
      t.acq.state = (if i.geo.pre = 0 then .waiting else .arming) ∧ t.acq.single = true ∧
      t.acq.serialCounter = s.acq.serialCounter ∧ t.acq.countDone = s.acq.countDone ∧ t.acq.lastTrig = s.acq.lastTrig ∧
      t.acq.mem = s.acq.mem ∧ t.raster = s.raster ∧ t.setup = s.setup ∧ t.gen = s.gen)) ∧
  (∀ (s : State) (i : SegInfo), s.pins.resetLow = false → s.acq.state = .capturing → (segAt s s.acq.cur).info = some i →
    i.geo.len ≤ i.geo.pre + s.acq.postCount → rejectedBy s i.geo (flagSetsAt s i) = true → i.attempts < s.setup.recapture →
    ∃ (t : State) (forced : Bool), exec .captureEnd s = .next t ∧
      (forced = true ↔ i.geo.pre = 0 ∧ s.acq.forcePending = true) ∧
      segAt t s.acq.cur = ⟨if forced then .filling else if i.geo.pre = 0 then .ready else .prefill, 0, some { i with
        generation := s.gen, geo := { i.geo with origin := 0 }, armTag := s.acq.timeTag
        trigTag := if forced then some s.acq.timeTag else none, trigKind := if forced then some .forced else none
        attempts := i.attempts + 1, flags := .const .empty, meas := none, outcome := none }⟩ ∧
      (∀ k, k ≠ s.acq.cur → segAt t k = segAt s k) ∧
      t.acq.state = (if forced then .capturing else if i.geo.pre = 0 then .waiting else .arming) ∧ t.acq.cur = s.acq.cur ∧
      t.acq.runKind = s.acq.runKind ∧ t.acq.single = s.acq.single ∧ t.acq.runIndex = s.acq.runIndex ∧
      t.acq.forcePending = (s.acq.forcePending && !forced) ∧
      t.acq.lastTrig = (if forced then some s.acq.timeTag else s.acq.lastTrig) ∧
      (i.geo.pre = 0 → t.acq.readyTick = s.acq.timeTag) ∧
      t.acq.risePrime = false ∧ t.acq.fallPrime = false ∧ t.acq.points = [] ∧ t.acq.ivCount = 0 ∧ t.acq.preCount = 0 ∧
      t.acq.postCount = 0 ∧ t.acq.serialCounter = s.acq.serialCounter ∧ t.acq.countDone = s.acq.countDone ∧
      t.acq.lastDone = s.acq.lastDone ∧ t.acq.prevLayout = s.acq.prevLayout ∧ t.acq.mem = s.acq.mem ∧
      t.mon.current = (s.mon.current &&& ~~~measuredFlags) ||| resultsAt s i.geo ∧
      t.mon.latched = s.mon.latched ||| resultsAt s i.geo ∧ t.mon.mask = s.mon.mask ∧
      t.raster = s.raster ∧ t.setup = s.setup ∧ t.gen = s.gen ∧ t.panel = s.panel ∧ t.store = s.store ∧ t.power = s.power ∧
      t.link.inbound = s.link.inbound ∧ t.link.answers = s.link.answers) ∧
  ((∀ (s : State) (g : Geometry) (n : Chan) (ps : List PointMeas) (a : Adders),
    ps = s.acq.points.map (fun p => p.2.get n) → a = addersAt s g n →
    (g.enabled.get n = false → a = ⟨255, 0, 0, 0, false⟩) ∧
    (g.enabled.get n = true →
      a.min = ps.foldl (fun m p => Nat.min m p.lo.toNat) 255 ∧ a.max = ps.foldl (fun m p => Nat.max m p.hi.toNat) 0 ∧
      (g.mode = .sample → a.sum = (ps.map (fun p => p.lo.toNat)).sum ∧ a.n = ps.length) ∧
      (g.mode = .peak → a.sum = (ps.map (fun p => p.lo.toNat + p.hi.toNat)).sum ∧ a.n = 2 * ps.length) ∧
      a.ovr = ps.any (fun p => p.ovr)) ∧
    (measAt s g).get n = (if g.enabled.get n then
      ⟨BitVec.ofNat 8 a.min, BitVec.ofNat 8 a.max, (32 * a.sum + a.n) / (2 * a.n)⟩ else ⟨0, 0, 0⟩)) ∧
  (∀ (a : Adders) (hw : Nat),
    quantityUv a hw .max = roundHalfAway (((a.max : Int) - 128) * hw) 25 ∧
    quantityUv a hw .min = roundHalfAway (((a.min : Int) - 128) * hw) 25 ∧
    quantityUv a hw .mean = roundHalfAway (((((32 * a.sum + a.n) / (2 * a.n) : Nat) : Int) - 2048) * hw) 400 ∧
    quantityUv a hw .pkpk = roundHalfAway (((a.max : Int) - a.min) * hw) 25) ∧
  (∀ (u : ChanSetup) (a : Adders) (hw : Nat) (q : Quantity), ∃ g, g = u.limits.get q ∧
    (limitFlag u a hw q .ha = true ↔ ∃ x, g.ha = some x ∧ x < quantityUv a hw q) ∧
    (limitFlag u a hw q .la = true ↔ ∃ x, g.la = some x ∧ quantityUv a hw q < x) ∧
    (limitFlag u a hw q .hw = true ↔ ∃ x, g.hw = some x ∧ x < quantityUv a hw q) ∧
    (limitFlag u a hw q .lw = true ↔ ∃ x, g.lw = some x ∧ quantityUv a hw q < x)) ∧
  (∀ (s : State) (i : SegInfo) (n : Chan) (l : LimitType → Bool),
    (∀ t, l t = true ↔
      ∃ q, limitFlag (s.setup.ch.get n) (addersAt s i.geo n) (hwOf (i.geo.range.get n)) q t = true) →
    (i.geo.enabled.get n = true → (flagSetsAt s i).get n =
      ⟨(addersAt s i.geo n).ovr, (i.flags.get n).lane, l .ha, l .la, l .hw, l .lw⟩) ∧
    (i.geo.enabled.get n = false → (flagSetsAt s i).get n = ⟨false, false, false, false, false, false⟩)) ∧
  (∀ (s : State) (g : Geometry) (f : PerChan FlagSet), rejectedBy s g f = true ↔ ∃ n r, g.enabled.get n = true ∧
    r = (s.setup.ch.get n).reject ∧
    (r.ovr = true ∧ (f.get n).ovr = true ∨ r.lane = true ∧ (f.get n).lane = true ∨
      r.alarm = true ∧ ((f.get n).ha = true ∨ (f.get n).la = true) ∨
      r.warn = true ∧ ((f.get n).hw = true ∨ (f.get n).lw = true)))) ∧
  ((∀ (s : State) (g : Geometry) (f : Nat), (resultsAt s g).getLsbD f = true ↔ ∃ n : Chan, g.enabled.get n = true ∧
    (f = 18 * (n.num - 1) ∧ (addersAt s g n).ovr = true ∨
      ∃ q t, f = 18 * (n.num - 1) + 2 + 4 * q.num + t.num ∧
        limitFlag (s.setup.ch.get n) (addersAt s g n) (hwOf (g.range.get n)) q t = true)) ∧
  (∀ f : Nat, measuredFlags.getLsbD f = true ↔ f < 72 ∧ f % 18 ≠ 1) ∧
  (∀ (s : State) (i : SegInfo) (rej : Bool), s.pins.resetLow = false → s.acq.state = .capturing →
    (segAt s s.acq.cur).info = some i → i.geo.len ≤ i.geo.pre + s.acq.postCount →
    rej = rejectedBy s i.geo (flagSetsAt s i) → (rej = true → s.setup.recapture ≤ i.attempts) →
    (s.acq.runKind = .repeats ∧ s.acq.single = true ∨ s.acq.runKind = .segmented ∧ i.geo.nEff ≤ s.acq.cur + 1 ∨
      s.acq.runKind ≠ .idle ∧ rej = true ∧ s.setup.stoprej = true) →
    ∃ t ser, exec .captureEnd s = .next t ∧
      ser = (if s.acq.serialCounter = 0xFFFFFFFF#32 then 1 else s.acq.serialCounter + 1) ∧
      segAt t s.acq.cur = ⟨.done, ser, some { i with
        flags := flagSetsAt s i, meas := some (measAt s i.geo), outcome := some (if rej then .rejected else .pass) }⟩ ∧
      (∀ k, k ≠ s.acq.cur → segAt t k = segAt s k) ∧
      t.mon.current = (if rej then ((s.mon.current &&& ~~~measuredFlags) ||| resultsAt s i.geo) ||| flagBit 75
        else ((s.mon.current &&& ~~~measuredFlags) ||| resultsAt s i.geo) &&& ~~~(flagBit 75)) ∧
      t.mon.latched = (if rej then (s.mon.latched ||| resultsAt s i.geo) ||| flagBit 75
        else s.mon.latched ||| resultsAt s i.geo) ∧ t.mon.mask = s.mon.mask ∧
      t.acq.state = .stopped ∧ t.acq.runKind = .idle ∧ t.acq.single = false ∧ t.acq.countDone = s.acq.countDone + 1 ∧
      t.acq.lastDone = some (s.acq.cur, ser) ∧ t.acq.mem = s.acq.mem ∧ t.setup = s.setup ∧ t.gen = s.gen ∧
      t.panel = s.panel ∧ t.store = s.store ∧ t.power = s.power))

/-- R39, R60, R27: in ROLLING, the column interval that has all its codes is written as one PEAK point of segment 0 at
position j mod 500, the smallest and the largest code of each enabled channel; no other byte of the memory changes. A channel
whose lock was low for a code of it is marked LANE. j and the write column advance, columns left falls by one with single on,
and the next interval begins. The row's codes come first, one by one (O2, O27): with a whole interval after them in ROLLING
the row goes on as this write does, with none or in another state it ends there. R39, R61: when columns left reaches 0,
segment 0 becomes DONE PASS with the next serial, kind AUTO, no trigger tag and the ring origin of R39, no draw entry is
made, ACQ stops, and the DONE PASS ends the current SEG_REJECT (flag 75, R81) and changes no more of MON. R112: a column
record in ROLLING, of the interval that has all its codes: in column w of each plane, the pixels from the row of the largest
to the row of the smallest code of a channel of the roll snapshot become HITW and the others 0; a channel outside it shows
nothing there, and no other column changes. Then w advances, the return to 0 sets the wrapped indication, and COMPOSE starts
from w once it is set, else from 0. -/
def Obligations.RollColumnsAndTheirEnd : Prop :=
  ((∀ (s : State) (i : SegInfo), s.pins.resetLow = false → s.acq.state = .rolling → s.acq.cur = 0 →
    (segAt s 0).info = some i → i.geo.mode = .peak → i.geo.size = 500 * (chanCount i.geo.enabled * 2) →
    0 < s.acq.ivCount → i.geo.interval ≤ s.acq.ivCount →
    ∃ t fl, exec (.rollColumn []) s = .next t ∧
      (∀ a point, a = s.acq.rollCount % 500 * (chanCount i.geo.enabled * 2) →
        point = i.geo.enabled.members.flatMap (fun n => [(s.acq.iv.get n).lo, (s.acq.iv.get n).hi]) →
        t.acq.mem = memStore s.acq.mem a point ∧
        ∀ x, x < a ∨ a + point.length ≤ x → memByte t.acq.memEpoch t.acq.mem x = memByte s.acq.memEpoch s.acq.mem x) ∧
      segAt t 0 = { segAt s 0 with info := some { i with flags := fl } } ∧
      (∀ n, fl.get n = if i.geo.enabled.get n = true ∧ (s.acq.iv.get n).lockLow = true
        then { i.flags.get n with lane := true } else i.flags.get n) ∧
      (∀ k, k ≠ 0 → segAt t k = segAt s k) ∧
      t.acq.state = .rolling ∧ t.acq.cur = 0 ∧ t.acq.rollCount = s.acq.rollCount + 1 ∧ t.acq.ivCount = 0 ∧
      t.acq.columnsLeft = (if s.acq.single then s.acq.columnsLeft - 1 else s.acq.columnsLeft) ∧
      t.acq.single = s.acq.single ∧ t.acq.runKind = s.acq.runKind ∧ t.acq.timeTag = s.acq.timeTag ∧
      t.raster.writeCol = (s.raster.writeCol + 1) % 500 ∧ t.raster.list = s.raster.list ∧ t.raster.job = s.raster.job ∧
      t.setup = s.setup ∧ t.gen = s.gen ∧ t.mon = s.mon ∧ t.panel = s.panel ∧ t.store = s.store ∧ t.power = s.power ∧
      t.link = s.link ∧ t.pins = s.pins) ∧
  (∀ (codes : List Sample) (s s1 : State), s.pins.resetLow = false → captureExists s = true → s1 = codes.foldl passCode s →
    (s1.acq.state ≠ .rolling ∨ s1.acq.ivCount = 0 ∨ (∃ i, (segAt s1 s1.acq.cur).info = some i ∧ s1.acq.ivCount < i.geo.interval) →
      exec (.rollColumn codes) s = .next s1) ∧
    (captureExists s1 = true → exec (.rollColumn codes) s = exec (.rollColumn []) s1))) ∧
  (∀ (s : State) (r : SegRecord) (i : SegInfo), s.pins.resetLow = false → s.acq.state = .rolling → s.acq.single = true →
    s.acq.columnsLeft = 0 → s.acq.cur = 0 → segAt s 0 = r → r.info = some i →
    ∃ t ser, exec .columnsLeftZero s = .next t ∧
      ser = (if s.acq.serialCounter = 0xFFFFFFFF#32 then 1 else s.acq.serialCounter + 1) ∧
      segAt t 0 = ⟨.done, ser, some { i with
        geo := { i.geo with origin := if 500 ≤ s.acq.rollCount then s.acq.rollCount % 500 else 0 }
        trigKind := some .auto, outcome := some .pass }⟩ ∧
      t.acq.state = .stopped ∧ t.acq.runKind = .idle ∧ t.acq.single = false ∧ t.acq.serialCounter = ser ∧
      t.acq.countDone = s.acq.countDone + 1 ∧ t.acq.lastDone = some (0, ser) ∧ t.acq.mem = s.acq.mem ∧
      t.raster.view = some (0, ser) ∧ t.raster.list = s.raster.list ∧ (∃ e ∈ t.link.notes, e.src = .acq) ∧
      t.mon = { s.mon with current := s.mon.current &&& ~~~(flagBit 75) } ∧
      t.setup = s.setup ∧ t.gen = s.gen ∧ t.panel = s.panel ∧ t.store = s.store ∧ t.power = s.power) ∧
  (∀ (s : State) (i : SegInfo), s.pins.resetLow = false → s.acq.state = .rolling → (segAt s s.acq.cur).info = some i →
    (s.acq.cur + 1) * i.geo.size ≤ 67108864 → 0 < s.acq.ivCount → i.geo.interval ≤ s.acq.ivCount →
    ∃ t, exec (.rollColumn []) s = .next t ∧
      (∀ (n : Chan) (c r : Nat) (sc : ChanScaling), r < 400 →
        sc = ⟨(s.setup.ch.get n).pos, expansion (hwOf (i.geo.range.get n)) (s.setup.ch.get n).scale⟩ →
        intensity (t.raster.planes.get n) c r =
          (if c ≠ s.raster.writeCol then intensity (s.raster.planes.get n) c r
          else if i.geo.enabled.get n = true ∧ rowOf sc (s.acq.iv.get n).hi ≤ r ∧ r ≤ rowOf sc (s.acq.iv.get n).lo then
            BitVec.ofNat 8 s.setup.hitw
          else 0)) ∧
      t.raster.writeCol = (s.raster.writeCol + 1) % 500 ∧
      t.raster.wrapped = (s.raster.wrapped || decide ((s.raster.writeCol + 1) % 500 = 0)) ∧
      t.compose.startCol = (if t.raster.wrapped then t.raster.writeCol else 0) ∧ t.raster.view = s.raster.view ∧
      t.raster.list = s.raster.list ∧ t.raster.job = s.raster.job)

/-! ## ACQ: reading segments back -/

/-- R66, R216: SEG.READ is answered OK with the record of the segment named, 74 bytes with the status, absent fields 0; it
changes nothing. The presence byte tells of the record, its trigger kind, trigger tag, outcome and measurements, bit by bit.
(That a record with no enabled channel has its measurements present is the model's choice, log 40.) R67: WAVE.READ is checked
in order (STANDBY, DONE, serial, channel, first point), and begins its reads with the count cut to 1,000 points (500 in PEAK)
and to the end of the record, marked CLAMPED when the count was altered; its answer is owed until they are done. (That a
count of 0, which becomes 1, counts as altered is the model's deduction, log 38.) -/
def Obligations.SegReadAndWaveReadOrders : Prop :=
  (∀ (tag k : Byte) (s : State), Ready 0x14 tag [k] s →
    ((segAt s k.toNat).info = none → exec (.segRead tag [k]) s = .next (answered 0x14 tag .ok
      ([k, (segAt s k.toNat).state.code] ++ be 4 (segAt s k.toNat).serial.toNat ++ List.replicate 67 0) s)) ∧
    (∀ i, (segAt s k.toNat).info = some i → exec (.segRead tag [k]) s = .next (answered 0x14 tag .ok
      ([k, (segAt s k.toNat).state.code] ++ be 4 (segAt s k.toNat).serial.toNat ++
        [BitVec.ofNat 8 (1 + (if i.trigKind.isSome then 2 else 0) + (if i.trigTag.isSome then 4 else 0) +
          (if i.outcome.isSome then 8 else 0) + (if i.meas.isSome then 16 else 0)),
          (match i.outcome with | some .rejected => (1 : Byte) | _ => 0)] ++ be 4 i.generation.toNat ++
        be 1 i.geo.depthIdx ++ be 4 i.geo.interval ++ be 4 i.geo.len ++ be 4 i.geo.pre ++ be 4 i.geo.size ++
        be 4 (if i.trigKind.isSome then i.geo.origin else 0) ++ [(match i.geo.mode with | .sample => (0 : Byte) | .peak => 1)] ++
        [i.geo.enabled.setByte] ++ be 1 i.geo.range.c1 ++ be 1 i.geo.range.c2 ++ be 1 i.geo.range.c3 ++ be 1 i.geo.range.c4 ++
        be 6 i.armTag.toNat ++ (match i.trigTag with | some t => be 6 t.toNat | none => [0, 0, 0, 0, 0, 0]) ++
        [(match i.trigKind with | some .auto => (1 : Byte) | some .forced => 2 | _ => 0)] ++ be 1 i.attempts ++
        Chan.all.map (fun n => if i.geo.enabled.get n then (i.flags.get n).toByte else 0) ++
        Chan.all.flatMap (fun n => match i.meas with
          | some m => if i.geo.enabled.get n then [(m.get n).min, (m.get n).max] ++ be 2 (m.get n).mean16 else [0, 0, 0, 0]
          | none => [0, 0, 0, 0])) s))) ∧
  (∀ (tag : Byte) (body : List Byte) (s : State) (k first count : Nat) (ser : Serial) (r : SegRecord),
    Ready 0x15 tag body s → body.length = 12 → k = (byteAt body 0).toNat → ser = BitVec.ofNat 32 (natAt body 1 4) →
    first = natAt body 6 4 → count = natAt body 10 2 → r = segAt s k →
    (s.power.state = .standby ∨ r.state ≠ .done ∨ r.info = none →
      exec (.waveRead tag body) s = .next (answered 0x15 tag .wrongState [] s)) ∧
    (∀ i, s.power.state ≠ .standby → r.state = .done → r.info = some i →
      (r.serial ≠ ser → exec (.waveRead tag body) s = .next (answered 0x15 tag .stale [] s)) ∧
      (r.serial = ser → Chan.ofNum? (byteAt body 5).toNat = none →
        exec (.waveRead tag body) s = .next (answered 0x15 tag .badValue [] s)) ∧
      (∀ n, r.serial = ser → Chan.ofNum? (byteAt body 5).toNat = some n → i.geo.enabled.get n = false ∨ i.geo.len ≤ first →
        exec (.waveRead tag body) s = .next (answered 0x15 tag .badValue [] s)) ∧
      (∀ n c, r.serial = ser → Chan.ofNum? (byteAt body 5).toNat = some n → i.geo.enabled.get n = true →
        first < i.geo.len →
        c = Nat.min (Nat.min (Nat.max 1 count) (match i.geo.mode with | .sample => 1000 | .peak => 500)) (i.geo.len - first) →
        exec (.waveRead tag body) s = .next { s with
          acq := { s.acq with waves := s.acq.waves ++ [⟨tag, k, ser, n, first, c, decide (c ≠ count)⟩] }
          link := { s.link with inbound := s.link.inbound.drop 1 } })))

/-- R32, R40, R67: when the reads of the oldest WAVE.READ are done, its answer is entered: its points, each read from the
position of its record index, or STALE when the segment is no longer DONE with the serial it named. The memory and the
records stay as they were. -/
def Obligations.WaveReadAnswersItsPoints : Prop :=
  ∀ (w : WaveRead) (rest : List WaveRead) (s : State), s.pins.resetLow = false → s.acq.waves = w :: rest →
    ((segAt s w.seg).state ≠ .done ∨ (segAt s w.seg).serial ≠ w.serial → exec .waveReadDone s = .next { s with
      acq := { s.acq with waves := rest }
      link := { s.link with answers := s.link.answers ++ [⟨0x95, w.tag, [0x31]⟩] } }) ∧
    (∀ i, (segAt s w.seg).state = .done → (segAt s w.seg).serial = w.serial → (segAt s w.seg).info = some i →
      (w.seg + 1) * i.geo.size ≤ 67108864 → exec .waveReadDone s = .next { s with
        acq := { s.acq with waves := rest }
        link := { s.link with answers := s.link.answers ++ [⟨0x95, w.tag,
          [if w.clamped then 0x01 else 0x00] ++ be 1 w.seg ++ be 4 w.serial.toNat ++ be 1 w.chan.num ++ be 4 w.first ++
          be 2 w.count ++ (List.range w.count).flatMap (fun j => memLoad s.acq.memEpoch s.acq.mem
            (i.geo.addr w.seg (if i.geo.roll then (i.geo.origin + (w.first + j)) % i.geo.len else
              if w.first + j < i.geo.pre then (i.geo.origin + (w.first + j)) % i.geo.pre else w.first + j) w.chan)
            (pointBytes i.geo.mode))⟩] } })

/-! ## RASTER -/

/-- R114: DRAW is checked in order (STANDBY, ROLLING, channel set, segment DONE, serial, room in the list); one that passes
joins the tail of the list as an ordered entry and is answered OK; nothing else changes. R109, R115: PLANES.CLEAR sets every
intensity of the planes named to 0, cancels the job in progress when it draws one of them, and leaves the list, the view
segment and the other planes; an empty set or one naming no channel is refused. (That a job draws its whole set of channels,
those already drawn included, is the model's choice, log 30.) R109, R110: a change of MAP class: the planes of the channels
it affects become clear (channel n for SCALE or POS, all four for PERSIST or STYLE), and a job that draws one of them is
cancelled; no other plane changes. While ACQ is STOPPED outside STANDBY, and no automatic entry stands in the list, one
automatic entry joins the list while it holds fewer than 8: for the job cancelled, else for the view segment, with the
segment's enabled set (all four channels for a segment no longer held, log 28); otherwise the list stays as it was. -/
def Obligations.DrawAndPlanesClearOrders : Prop :=
  (∀ (tag : Byte) (body : List Byte) (s : State) (r : SegRecord) (ser : Serial), Ready 0x20 tag body s → body.length = 7 →
    r = segAt s (byteAt body 0).toNat → ser = BitVec.ofNat 32 (natAt body 1 4) →
    (s.power.state = .standby ∨ s.acq.state = .rolling →
      exec (.draw tag body) s = .next (answered 0x20 tag .wrongState [] s)) ∧
    (s.power.state ≠ .standby → s.acq.state ≠ .rolling →
      (byteAt body 5 = 0 ∨ 16 ≤ (byteAt body 5).toNat → exec (.draw tag body) s = .next (answered 0x20 tag .badValue [] s)) ∧
      (byteAt body 5 ≠ 0 → (byteAt body 5).toNat < 16 →
        (r.state ≠ .done → exec (.draw tag body) s = .next (answered 0x20 tag .wrongState [] s)) ∧
        (r.state = .done → r.serial ≠ ser → exec (.draw tag body) s = .next (answered 0x20 tag .stale [] s)) ∧
        (r.state = .done → r.serial = ser → 8 ≤ s.raster.list.length →
          exec (.draw tag body) s = .next (answered 0x20 tag .busy [] s)) ∧
        (r.state = .done → r.serial = ser → s.raster.list.length < 8 →
          exec (.draw tag body) s = .next (answered 0x20 tag .ok [] { s with raster := { s.raster with
            list := s.raster.list ++ [⟨(byteAt body 0).toNat, ser,
              ⟨(byteAt body 5).getLsbD 0, (byteAt body 5).getLsbD 1, (byteAt body 5).getLsbD 2, (byteAt body 5).getLsbD 3⟩,
              decide (byteAt body 6 ≠ 0), false⟩] } }))))) ∧
  (∀ (tag b : Byte) (s : State), Ready 0x21 tag [b] s →
    (b = 0 ∨ 16 ≤ b.toNat → exec (.planesClear tag [b]) s = .next (answered 0x21 tag .badValue [] s)) ∧
    (b ≠ 0 → b.toNat < 16 → ∃ p, exec (.planesClear tag [b]) s = .next (answered 0x21 tag .ok [] { s with
        raster := { s.raster with
          planes := p
          job := if s.raster.job.any (fun j => j.draws.meets (PerChan.ofSetByte b)) then none else s.raster.job } }) ∧
      ∀ n : Chan, (b.getLsbD (n.num - 1) = true → p.get n = []) ∧ (b.getLsbD (n.num - 1) = false → p.get n = s.raster.planes.get n))) ∧
  (∀ (u : Setup) (s : State) (d : PerChan Bool), carriesAcq s.setup u = false → carriesTrig s.setup u = false →
    (∀ n, d.get n = true ↔ s.setup.persist ≠ u.persist ∨ s.setup.style ≠ u.style ∨
      (s.setup.ch.get n).scale ≠ (u.ch.get n).scale ∨ (s.setup.ch.get n).pos ≠ (u.ch.get n).pos) →
    (∃ n, d.get n = true) →
    (adopt u s).acq = s.acq ∧
    (∀ n, (adopt u s).raster.planes.get n = (if d.get n then [] else s.raster.planes.get n)) ∧
    (adopt u s).raster.view = s.raster.view ∧ (adopt u s).raster.writeCol = s.raster.writeCol ∧
    ∃ cancelled : Option DrawJob,
      (∀ j, cancelled = some j ↔ s.raster.job = some j ∧ ∃ n, j.draws.get n = true ∧ d.get n = true) ∧
      (adopt u s).raster.job = (if cancelled.isSome then none else s.raster.job) ∧
      (s.acq.state ≠ .stopped ∨ s.power.state = .standby ∨ (∃ e ∈ s.raster.list, e.automatic = true) →
        (adopt u s).raster.list = s.raster.list) ∧
      (s.acq.state = .stopped → s.power.state ≠ .standby → (∀ e ∈ s.raster.list, e.automatic = false) →
        (cancelled = none → s.raster.view = none → (adopt u s).raster.list = s.raster.list) ∧
        (∀ k ser set, ((∃ j, cancelled = some j ∧ k = j.seg ∧ ser = j.serial) ∨
            cancelled = none ∧ s.raster.view = some (k, ser)) →
          set = (match (segAt s k).info with | some i => i.geo.enabled | none => .const true) →
          (adopt u s).raster.list = (if set = .const false then s.raster.list else if s.raster.list.length < 8 then
            s.raster.list ++ [⟨k, ser, set, decide (u.persist = .off), true⟩] else s.raster.list))))

/-- R106: with no job running, the head entry leaves the list. A stale one is dropped and nothing else changes. One whose
segment is DONE with its serial pins the segment's region, fixes HITW, STYLE, CHn.POS and K, and with clear-first clears the
planes of the channels it draws: those of its set that the segment captured. With none it completes at once. (That in HELD
the arm takes place before the next entry is taken, so that no job starts here in HELD, and that a job draws its whole set of
channels, is the model's choice, log 30.) -/
def Obligations.DrawJobStartPinsAndFixesItsValues : Prop :=
  ∀ (s : State) (e : DrawEntry) (rest : List DrawEntry), s.pins.resetLow = false → s.acq.state ≠ .held →
    s.raster.job = none → s.raster.list = e :: rest →
    ((segAt s e.seg).state ≠ .done ∨ (segAt s e.seg).serial ≠ e.serial →
      exec .drawJobStart s = .next { s with raster := { s.raster with list := rest } }) ∧
    (∀ (i : SegInfo) (draws : PerChan Bool), (segAt s e.seg).state = .done → (segAt s e.seg).serial = e.serial →
      (segAt s e.seg).info = some i → draws = .ofFn (fun n => e.chans.get n && i.geo.enabled.get n) →
      (draws.members = [] → exec .drawJobStart s = .next { s with raster := { s.raster with
        list := rest, job := none, view := some (e.seg, e.serial) } }) ∧
      (draws.members ≠ [] → exec .drawJobStart s = .next { s with raster := { s.raster with
        list := rest
        planes := if e.clearFirst then .ofFn (fun n => if draws.get n then [] else s.raster.planes.get n) else s.raster.planes
        job := some {
          seg := e.seg, serial := e.serial, lo := e.seg * i.geo.size, hi := (e.seg + 1) * i.geo.size, draws := draws,
          todo := draws.members, nextCol := 0, hitw := s.setup.hitw, style := s.setup.style
          scaling := .ofFn (fun n => ⟨(s.setup.ch.get n).pos,
            Nat.max 256 (Nat.min 10240 (hwOf (i.geo.range.get n) * 1024 / (s.setup.ch.get n).scale))⟩) } } }))

/-- R101, R108: a column of the job is hit whole: each pixel its spans mark gains the hit weight, held at 255; every other
pixel of the four planes, and every block but RASTER, stays. The last column of the last channel ends the job and sets the
view segment. -/
def Obligations.DrawColumnHitsItsPixels : Prop :=
  ∀ (s : State) (j : DrawJob) (n : Chan) (todo : List Chan) (i : SegInfo), s.pins.resetLow = false →
    s.raster.job = some j → j.todo = n :: todo → (segAt s j.seg).info = some i → (j.seg + 1) * i.geo.size ≤ 67108864 →
    ∃ p, exec .drawColumn s = .next { s with raster := { s.raster with
        planes := p
        view := if 499 ≤ j.nextCol ∧ todo = [] then some (j.seg, j.serial) else s.raster.view
        job := if j.nextCol < 499 then some { j with nextCol := j.nextCol + 1 }
          else if todo = [] then none else some { j with nextCol := 0, todo := todo } } } ∧
      (∀ m, m ≠ n → p.get m = s.raster.planes.get m) ∧
      ∀ c r, r < 400 → (intensity (p.get n) c r).toNat =
        (if c = j.nextCol ∧ marked (columnSpans s i.geo j.seg n j.style (j.scaling.get n) c) r = true then
          Nat.min 255 ((intensity (s.raster.planes.get n) c r).toNat + j.hitw)
        else (intensity (s.raster.planes.get n) c r).toNat)

/-- R96: the row of a code: floor((204,800 − t + 512) / 1024) with t = 2 × (code − 128) × K + 512 × POS, held in 0..399. R32,
R33, R34, R97: the two rows of record point i of segment k are the rows (R96) of its largest and of its smallest code, read
from the acquisition memory at the ring position of the point: the roll and the points before the trigger turn with the ring
origin, and the enabled channels of a point follow in increasing number, in PEAK the smallest code before the largest. R98,
R99: what a column of a record shows. With VECTORS and 500 points or more, every row between the extremes of the rows of its
points and of the last point of the column before; with DOTS, whatever the number of points, the rows between the two rows of
each of its points, and nothing in a column that holds none. R100: with VECTORS and a record of fewer than 500 points, the
row of column c between the columns of points i and i + 1 lies on the line joining their rows, rounded half away from zero; a
column before the last point's marks from the lower to the higher of its row and the next column's, the last point's column
marks its one row, and later columns mark nothing. -/
def Obligations.RowsAndSpansOfARecord : Prop :=
  (∀ (sc : ChanScaling) (c : Byte) (t : Int), t = 2 * ((c.toNat : Int) - 128) * sc.k + 512 * sc.pos →
    (rowOf sc c : Int) = max 0 (min 399 ((204800 - t + 512) / 1024))) ∧
  (∀ (s : State) (g : Geometry) (k : Nat) (n : Chan) (sc : ChanScaling) (i b q a : Nat),
    b = (match g.mode with | .sample => 1 | .peak => 2) →
    q = (if g.roll = true then (g.origin + i) % g.len else if i < g.pre then (g.origin + i) % g.pre else i) →
    a = k * g.size + q * (chanCount g.enabled * b) +
      (([Chan.ch1, .ch2, .ch3, .ch4].filter (fun m => g.enabled.get m && decide (m.num < n.num))).length) * b →
    rowsAt s g k n sc i =
      (rowOf sc (memByte s.acq.memEpoch s.acq.mem (a + b - 1)), rowOf sc (memByte s.acq.memEpoch s.acq.mem a))) ∧
  (∀ (s : State) (g : Geometry) (k : Nat) (n : Chan) (sc : ChanScaling) (c r : Nat), 0 < g.len → c < 500 →
    (500 ≤ g.len → (marked (columnSpans s g k n .vectors sc c) r = true ↔
      ∃ i j, (columnOf g.len i = c ∨ columnOf g.len i + 1 = c ∧ columnOf g.len (i + 1) = c) ∧
        (columnOf g.len j = c ∨ columnOf g.len j + 1 = c ∧ columnOf g.len (j + 1) = c) ∧
        (rowsAt s g k n sc i).1 ≤ r ∧ r ≤ (rowsAt s g k n sc j).2)) ∧
    (marked (columnSpans s g k n .dots sc c) r = true ↔
      ∃ i, i < g.len ∧ i * 500 / g.len = c ∧ (rowsAt s g k n sc i).1 ≤ r ∧ r ≤ (rowsAt s g k n sc i).2)) ∧
  (∀ (s : State) (g : Geometry) (k : Nat) (n : Chan) (sc : ChanScaling) (y yc : Nat → Nat) (last : Nat),
    0 < g.len → g.len < 500 → y = (fun i => (rowsAt s g k n sc i).1) → last = (g.len - 1) * 500 / g.len →
    (∀ i c, i + 1 < g.len → i * 500 / g.len ≤ c → c < (i + 1) * 500 / g.len → (yc c : Int) =
      y i + roundHalfAway (((y (i + 1) : Int) - y i) * ((c : Int) - (i * 500 / g.len : Nat)))
        ((i + 1) * 500 / g.len - i * 500 / g.len)) →
    yc last = y (g.len - 1) →
    ∀ c r : Nat,
      (c < last → (marked (columnSpans s g k n .vectors sc c) r = true ↔
        min (yc c) (yc (c + 1)) ≤ r ∧ r ≤ max (yc c) (yc (c + 1)))) ∧
      (c = last → (marked (columnSpans s g k n .vectors sc c) r = true ↔ r = y (g.len - 1))) ∧
      (last < c → marked (columnSpans s g k n .vectors sc c) r = false))

/-! ## COMPOSE -/

/-- R103, R118, R128, R134: a frame event at its tick takes the frame values, sets the duty, takes or ends the ownership of
rows 0 and 29 by ANNOT (a row newly owned shows its annotation) and lets RASTER decay under FINITE; nothing else changes.
R103: a frame of decay replaces every intensity I by floor(I × (256 − DECAY) / 256). R119, R126, R127, R129: a frame sends
384,000 pixels, row by row from y 0 to 479 and each row from x 0 to 799, with PIX_EN active over them; under ROTATED the
picture is turned half a turn; INVERT and TEST act last. While scanout is stopped PIX_EN is inactive and the pixel lines are
0; a POWER order to DARK or STANDBY stops it. (That pixels and PIX_EN go on as stated while RESET_N is low is the model's
choice, log 34.) -/
def Obligations.FrameEventTakesValuesAndDecays : Prop :=
  (∀ (s : State) (t0 : Tick) (k : Nat), s.pins.resetLow = false → s.compose.frameTimer = some (t0, k) →
    s.acq.timeTag = t0 + BitVec.ofNat 48 ((k + 1) * 6250000 / 3) →
    ∃ text, exec .frameEvent s = .next { s with
      compose := { s.compose with
        frame := {
          color := .ofFn (fun n => (s.setup.ch.get n).color), tbright := s.setup.tbright, gbright := s.setup.gbright
          grat := s.setup.grat, orient := s.setup.orient, curV1 := s.setup.curV1, curV2 := s.setup.curV2
          curH1 := s.setup.curH1, curH2 := s.setup.curH2, curShow := s.setup.curShow, annot := s.setup.annot
          blratio := s.setup.blratio, bllevel := s.setup.bllevel, palette := s.compose.palette, mode := s.compose.mode }
        duty := (match s.setup.blratio with | 0 => 30 | 1 => 35 | 2 => 40 | 3 => 45 | 4 => 50 | 5 => 55 | 6 => 60 | _ => 64) *
          (99 + s.setup.bllevel) * 1023 / 10368
        owned := s.setup.annot
        text := text
        frameTimer := some (t0, k + 1) }
      raster := if s.setup.persist = .finite then { s.raster with planes :=
          ⟨decayPlane s.setup.decay s.raster.planes.c1, decayPlane s.setup.decay s.raster.planes.c2,
           decayPlane s.setup.decay s.raster.planes.c3, decayPlane s.setup.decay s.raster.planes.c4⟩ } else s.raster } ∧
      (s.compose.annot0.length = 100 → s.compose.annot29.length = 100 → ∀ k, k < 3000 → cellAt text k =
        (if s.setup.annot = true ∧ s.compose.owned = false ∧ k < 100 then ⟨s.compose.annot0.getD k 0x20, 5⟩
        else if s.setup.annot = true ∧ s.compose.owned = false ∧ 2900 ≤ k then ⟨s.compose.annot29.getD (k - 2900) 0x20, 5⟩
        else cellAt s.compose.text k))) ∧
  (∀ (d : Nat) (p : List (Nat × Byte)) (c r : Nat), 1 ≤ d → d ≤ 255 → tabRising p = true → r < 400 →
    (intensity (decayPlane d p) c r).toNat = (intensity p c r).toNat * (256 - d) / 256) ∧
  ((∀ (s : State) (x y : Nat), x < 800 → y < 480 → framePixel s (800 * y + x) = pixelSent s x y) ∧
  (∀ i : Nat, i < 384000 → ∃ x y, x < 800 ∧ y < 480 ∧ i = 800 * y + x) ∧
  (∀ (s : State) (i : Nat), pixEn s i = true ↔ s.compose.frameTimer ≠ none ∧ i < 384000) ∧
  (∀ (s : State) (x y : Nat) (p : Rgb), s.compose.frameTimer ≠ none →
    p = (match s.compose.frame.orient with
      | .normal => composedPixel s x y | .rotated => composedPixel s (799 - x) (479 - y)) →
    (s.compose.frame.mode = .normal → pixelSent s x y = p) ∧
    (s.compose.frame.mode = .invert → pixelSent s x y = ⟨255 - p.r, 255 - p.g, 255 - p.b⟩) ∧
    (s.compose.frame.mode = .test → pixelSent s x y = ⟨255, 255, 255⟩)) ∧
  (∀ (s : State) (x y : Nat), s.compose.frameTimer = none → pixelSent s x y = ⟨0, 0, 0⟩) ∧
  (∀ (tag b : Byte) (s : State), Ready 0x3F tag [b] s → s.power.state = .on → b = 1 ∨ b = 2 →
    ∃ t, exec (.power tag [b]) s = .next t ∧ (∀ i, pixEn t i = false) ∧ ∀ x y, pixelSent t x y = ⟨0, 0, 0⟩))

/-- R131: TEXT.MOVE, TEXT.MARK and TEXT.RETURN set the cursor, the mark or the cursor from the mark, and are answered OK with
both positions; TEXT.MOVE to a column above 99 or a row above 29 is refused; nothing else changes. R124, R126: PALETTE.SET
writes consecutive entries from its first index on, or is refused with BAD_VALUE for a first index above 15, a count of 0 or
that passes entry 15, or a count that differs from the colours it carries; SCREEN takes the mode NORMAL, INVERT or TEST, or
is refused with BAD_VALUE; nothing else changes. R120 to R123, R125: the composed pixel: the first of cursor lines (palette
9), text, the trace of the first channel with an intensity there, graticule and background (palette 0) that claims it;
cursors, traces and graticule only in the window (R117). The shapes of the characters are free values (log 7). -/
def Obligations.CursorPaletteAndScreenOrders : Prop :=
  (∀ (tag a b : Byte) (s : State),
    (Ready 0x23 tag [a, b] s →
      (99 < a.toNat ∨ 29 < b.toNat → exec (.textMove tag [a, b]) s = .next (answered 0x23 tag .badValue [] s)) ∧
      (a.toNat ≤ 99 → b.toNat ≤ 29 → exec (.textMove tag [a, b]) s = .next (answered 0x23 tag .ok
        ([a, b] ++ be 1 s.compose.mark.col ++ be 1 s.compose.mark.row)
        { s with compose := { s.compose with cursor := ⟨a.toNat, b.toNat⟩ } }))) ∧
    (Ready 0x24 tag [] s → exec (.textMark tag []) s = .next (answered 0x24 tag .ok
      (be 1 s.compose.cursor.col ++ be 1 s.compose.cursor.row ++ be 1 s.compose.cursor.col ++ be 1 s.compose.cursor.row)
      { s with compose := { s.compose with mark := s.compose.cursor } })) ∧
    (Ready 0x25 tag [] s → exec (.textReturn tag []) s = .next (answered 0x25 tag .ok
      (be 1 s.compose.mark.col ++ be 1 s.compose.mark.row ++ be 1 s.compose.mark.col ++ be 1 s.compose.mark.row)
      { s with compose := { s.compose with cursor := s.compose.mark } }))) ∧
  ((∀ (tag f c : Byte) (cols : List Byte) (s : State), Ready 0x27 tag (f :: c :: cols) s → cols.length % 3 = 0 →
    3 ≤ cols.length → cols.length ≤ 48 →
    (15 < f.toNat ∨ c = 0 ∨ 16 < f.toNat + c.toNat ∨ 3 * c.toNat ≠ cols.length →
      exec (.paletteSet tag (f :: c :: cols)) s = .next (answered 0x27 tag .badValue [] s)) ∧
    (c ≠ 0 → f.toNat + c.toNat ≤ 16 → 3 * c.toNat = cols.length → s.compose.palette.length = 16 →
      ∃ p, exec (.paletteSet tag (f :: c :: cols)) s = .next (answered 0x27 tag .ok []
          { s with compose := { s.compose with palette := p } }) ∧ p.length = 16 ∧
        ∀ i, i < 16 → p.getD i ⟨0, 0, 0⟩ = (if f.toNat ≤ i ∧ i < f.toNat + c.toNat then
          ⟨cols.getD (3 * (i - f.toNat)) 0, cols.getD (3 * (i - f.toNat) + 1) 0, cols.getD (3 * (i - f.toNat) + 2) 0⟩
          else s.compose.palette.getD i ⟨0, 0, 0⟩))) ∧
  (∀ (tag m : Byte) (s : State), Ready 0x28 tag [m] s →
    (3 ≤ m.toNat → exec (.screen tag [m]) s = .next (answered 0x28 tag .badValue [] s)) ∧
    (∀ x, (m = 0 ∧ x = .normal ∨ m = 1 ∧ x = .invert ∨ m = 2 ∧ x = .test) →
      exec (.screen tag [m]) s = .next (answered 0x28 tag .ok [] { s with compose := { s.compose with mode := x } })))) ∧
  ((∀ (f : FrameValues) (c r : Nat), cursorLit f c r = true ↔
    (f.curShow = .vertical ∨ f.curShow = .both) ∧ (c = f.curV1 ∨ c = f.curV2) ∧ r % 2 = 0 ∨
    (f.curShow = .horizontal ∨ f.curShow = .both) ∧ (r = f.curH1 ∨ r = f.curH2) ∧ c % 2 = 0) ∧
  (∀ (g : Graticule) (c r : Nat), c < 500 → r < 400 → (gratLit g c r = true ↔
    g ≠ .blank ∧ (c = 0 ∨ c = 499 ∨ r = 0 ∨ r = 399 ∨ r % 10 = 0 ∧ 248 ≤ c ∧ c ≤ 252 ∨ c % 10 = 0 ∧ 198 ≤ r ∧ r ≤ 202) ∨
    g = .full ∧ ((∃ k, 1 ≤ k ∧ k ≤ 9 ∧ c = 50 * k ∧ r % 5 = 0) ∨ ∃ k, 1 ≤ k ∧ k ≤ 7 ∧ r = 50 * k ∧ c % 5 = 0))) ∧
  (∀ (s : State) (x y : Nat) (f : FrameValues) (window cursor text : Bool) (cell : Cell) (hit : Chan → Nat)
    (shown : Rgb → Nat → Rgb), f = s.compose.frame →
    window = decide (40 ≤ x ∧ x < 540 ∧ 40 ≤ y ∧ y < 440) → cursor = (window && cursorLit f (x - 40) (y - 40)) →
    cell = cellAt s.compose.text (100 * (y / 16) + x / 8) →
    text = (decide (cell.code ≠ 0x20) && Config.glyph cell.code (x % 8) (y % 16)) →
    hit = (fun n => (intensity (s.raster.planes.get n) ((s.compose.startCol + (x - 40)) % 500) (y - 40)).toNat) →
    shown = (fun c level => ⟨BitVec.ofNat 8 (c.r.toNat * level / 255), BitVec.ofNat 8 (c.g.toNat * level / 255),
      BitVec.ofNat 8 (c.b.toNat * level / 255)⟩) →
    (cursor = true → composedPixel s x y = paletteAt f.palette 9) ∧
    (cursor = false → text = true → composedPixel s x y = paletteAt f.palette cell.attr) ∧
    (∀ n : Chan, cursor = false → text = false → window = true → hit n ≠ 0 → (∀ m : Chan, m.num < n.num → hit m = 0) →
      composedPixel s x y = shown (paletteAt f.palette (f.color.get n)) (hit n * (99 + f.tbright) / 162)) ∧
    (cursor = false → text = false → (window = true → ∀ n, hit n = 0) →
      composedPixel s x y = (if window && gratLit f.grat (x - 40) (y - 40) then
        shown (paletteAt f.palette 6) (255 * (99 + f.gbright) / 162) else paletteAt f.palette 0))))

/-- R132: TEXT.PUT writes its characters, all with its attribute, into consecutive cells from the cursor on, wrapping after
cell (99, 29), and moves the cursor past them. An attribute above 15 or a code of no character is refused with BAD_VALUE, a
run that meets an owned row with OWNED, and then no cell changes. R133: TEXT.ERASE makes the characters of a rectangle spaces
and leaves their attributes, the cursor and the mark; a rectangle outside the plane is refused with BAD_VALUE and one that
includes a cell of an owned row with OWNED, and then no cell changes. R136: the voltage format of a magnitude of 0 to
50,000,000 µV, digits truncated. R43, R137: row 0, cell by cell. R138: row 29, one slot of ten cells for each channel at 12
cells from one to the next. R15, R135: a change of a field that the annotation shows, of RUNMODE or of ROLL rebuilds both
rows from the new record and the acquisition state, and so does every command that leaves ACQ in another acquisition state,
under the record it leaves; owned rows are then written in the text plane, every cell, with attribute 5, and a change that
finds ACQ STOPPED writes no other cell. -/
def Obligations.TextPutAndErase : Prop :=
  (∀ (tag a : Byte) (cs : List Byte) (s : State) (k : Nat), Ready 0x22 tag (a :: cs) s → 1 ≤ cs.length → cs.length ≤ 1000 →
    k = 100 * s.compose.cursor.row + s.compose.cursor.col → k < 3000 →
    (15 < a.toNat ∨ (∃ c ∈ cs, ¬ (0x20 ≤ c.toNat ∧ c.toNat ≤ 0x7E ∨ 0x80 ≤ c.toNat ∧ c.toNat ≤ 0x8F)) →
      exec (.textPut tag (a :: cs)) s = .next (answered 0x22 tag .badValue [] s)) ∧
    (a.toNat ≤ 15 → (∀ c ∈ cs, 0x20 ≤ c.toNat ∧ c.toNat ≤ 0x7E ∨ 0x80 ≤ c.toNat ∧ c.toNat ≤ 0x8F) →
      (s.compose.owned = true → (∃ i, i < cs.length ∧ ((k + i) % 3000 < 100 ∨ 2900 ≤ (k + i) % 3000)) →
        exec (.textPut tag (a :: cs)) s = .next (answered 0x22 tag .owned [] s)) ∧
      (s.compose.owned = false ∨ (∀ i, i < cs.length → 100 ≤ (k + i) % 3000 ∧ (k + i) % 3000 < 2900) →
        ∃ text, exec (.textPut tag (a :: cs)) s = .next (answered 0x22 tag .ok
            (be 1 ((k + cs.length) % 3000 % 100) ++ be 1 ((k + cs.length) % 3000 / 100))
            { s with compose := { s.compose with
              text := text, cursor := ⟨(k + cs.length) % 3000 % 100, (k + cs.length) % 3000 / 100⟩ } }) ∧
          (∀ i, i < cs.length → cellAt text ((k + i) % 3000) = ⟨cs.getD i 0, a.toNat⟩) ∧
          ∀ x, (∀ i, i < cs.length → x ≠ (k + i) % 3000) → cellAt text x = cellAt s.compose.text x))) ∧
  (∀ (tag c r w h : Byte) (s : State), Ready 0x26 tag [c, r, w, h] s → tabRising s.compose.text = true →
    (99 < c.toNat ∨ 29 < r.toNat ∨ w = 0 ∨ h = 0 ∨ 100 < c.toNat + w.toNat ∨ 30 < r.toNat + h.toNat →
      exec (.textErase tag [c, r, w, h]) s = .next (answered 0x26 tag .badValue [] s)) ∧
    (w ≠ 0 → h ≠ 0 → c.toNat + w.toNat ≤ 100 → r.toNat + h.toNat ≤ 30 →
      (s.compose.owned = true → r = 0 ∨ r.toNat + h.toNat = 30 →
        exec (.textErase tag [c, r, w, h]) s = .next (answered 0x26 tag .owned [] s)) ∧
      (s.compose.owned = false ∨ r ≠ 0 ∧ r.toNat + h.toNat < 30 →
        ∃ text, exec (.textErase tag [c, r, w, h]) s = .next (answered 0x26 tag .ok []
            { s with compose := { s.compose with text := text } }) ∧
          ∀ u v, u < 100 → v < 30 → cellAt text (100 * v + u) =
            (if c.toNat ≤ u ∧ u < c.toNat + w.toNat ∧ r.toNat ≤ v ∧ v < r.toNat + h.toNat then
              ⟨0x20, (cellAt s.compose.text (100 * v + u)).attr⟩ else cellAt s.compose.text (100 * v + u))))) ∧
  ((∀ (m : Nat) (d : Nat → Byte), m ≤ 50000000 → d = (fun p => BitVec.ofNat 8 (0x30 + m / p % 10)) →
    voltText m =
      (if m < 10000 then [d 1000, 0x2E, d 100, d 10, 0x6D, 0x56]
      else if m < 100000 then [d 10000, d 1000, 0x2E, d 100, 0x6D, 0x56]
      else if m < 1000000 then [d 100000, d 10000, d 1000, 0x6D, 0x56, 0x20]
      else if m < 10000000 then [d 1000000, 0x2E, d 100000, d 10000, 0x56, 0x20]
      else [d 10000000, d 1000000, 0x2E, d 100000, 0x56, 0x20])) ∧
  (∀ (u : Setup) (a : AcqState) (word time : String) (source level : List Byte), u.tbase ≤ 29 →
    word = (match a with
      | .stopped => "STOP" | .arming => "RUN " | .capturing => "TRIG" | .held => "HELD" | .rolling => "ROLL"
      | .waiting => if u.tmode = .auto then "AUTO" else "WAIT") →
    ["10ns  ", "20ns  ", "50ns  ", "100ns ", "200ns ", "500ns ", "1us   ", "2us   ", "5us   ", "10us  ", "20us  ", "50us  ",
      "100us ", "200us ", "500us ", "1ms   ", "2ms   ", "5ms   ", "10ms  ", "20ms  ", "50ms  ", "100ms ", "200ms ", "500ms ",
      "1s    ", "2s    ", "5s    ", "10s   ", "20s   ", "50s   "][u.tbase]? = some time →
    source = (match u.tsrc with | .ext => ascii "EXT" | .chan n => [0x43, 0x48, BitVec.ofNat 8 (0x30 + n.num)]) →
    level = (match u.tsrc with
      | .ext => List.replicate 7 0x20
      | .chan _ => (if u.tlevel < 0 then 0x2D else 0x20) :: voltText u.tlevel.natAbs) →
    annotRow0 u a = ascii word ++ [0x20] ++ ascii time ++ [0x20] ++ source ++
      [match u.tslope with | .rise => (0x80 : Byte) | .fall => 0x81 | .either => 0x82] ++ level ++ List.replicate 77 0x20) ∧
  (∀ (u : Setup) (slot : Chan → List Byte),
    slot = (fun n => if (u.ch.get n).on = true then [0x43, 0x48, BitVec.ofNat 8 (0x30 + n.num), 0x20] ++ voltText (u.ch.get n).scale
      else List.replicate 10 0x20) →
    annotRow29 u = slot .ch1 ++ [0x20, 0x20] ++ slot .ch2 ++ [0x20, 0x20] ++ slot .ch3 ++ [0x20, 0x20] ++ slot .ch4 ++
      List.replicate 54 0x20) ∧
  (∀ (u : Setup) (s : State) (c : Compose), c = (adopt u s).compose →
    (∃ n, (s.setup.ch.get n).on ≠ (u.ch.get n).on ∨ (s.setup.ch.get n).scale ≠ (u.ch.get n).scale) ∨
      s.setup.tbase ≠ u.tbase ∨ s.setup.tsrc ≠ u.tsrc ∨ s.setup.tslope ≠ u.tslope ∨ s.setup.tlevel ≠ u.tlevel ∨
      s.setup.tmode ≠ u.tmode ∨ s.setup.runmode ≠ u.runmode ∨ s.setup.roll ≠ u.roll →
    c.annot0 = annotRow0 u (adopt u s).acq.state ∧ c.annot29 = annotRow29 u ∧ c.owned = s.compose.owned ∧
    (s.compose.owned = true → ∀ k,
      (k < 100 → cellAt c.text k = ⟨c.annot0.getD k 0x20, 5⟩) ∧
      (2900 ≤ k → k < 3000 → cellAt c.text k = ⟨c.annot29.getD (k - 2900) 0x20, 5⟩)) ∧
    (s.acq.state = .stopped → (∀ k, 100 ≤ k → k < 2900 → cellAt c.text k = cellAt s.compose.text k) ∧
      (s.compose.owned = false → c.text = s.compose.text))) ∧
  (∀ (i : Instr) (s t : State), exec i s = .next t → t.acq.state ≠ s.acq.state →
    t.compose.annot0 = annotRow0 t.setup t.acq.state ∧ t.compose.annot29 = annotRow29 t.setup ∧
    (t.compose.owned = true → ∀ k,
      (k < 100 → cellAt t.compose.text k = ⟨t.compose.annot0.getD k 0x20, 5⟩) ∧
      (2900 ≤ k → k < 3000 → cellAt t.compose.text k = ⟨t.compose.annot29.getD (k - 2900) 0x20, 5⟩))))

/-! ## PANEL -/

/-- R142, R144, R147: a press taken in ON of a key with no binding, or locked away from a binding that is no WAKE: the key is
DOWN with its indication set, the idle timer restarts, and a PRESS event not acted is produced with the low 32 bits of the
time tag. While the FIFO holds fewer than 16 events it joins the FIFO, makes the current PANEL_OVERRUN flag false and enters
the PANEL note; else it is dropped and PANEL_OVERRUN occurs. Nothing else changes but the key's repeat deadline and its
switch, which stands closed (log 41). R22, R146, R147: a press taken in ON, unlocked, of a key bound to an action: RUNSTOP
acts as RUN when ACQ is STOPPED and as STOP when it is not; CHAN(n) is one change of CHn.ON to its opposite; CLEAR clears all
four planes; and the PRESS event says whether the action was taken, and joins the FIFO while it holds fewer than 16 events;
else it is dropped and PANEL_OVERRUN occurs, and the action is taken all the same. R146, R147: a press taken in ON, unlocked,
of a key bound to SINGLE, FORCE, DEFAULT, SAVE or RECALL: the action is taken as the order of that name would be, with its
checks, and the PRESS event says whether it was taken (it would be answered OK or CLAMPED) or refused; a refused action
changes nothing. With the FIFO full the event is dropped (R144) and the action is taken all the same. A FORCE taken in
WAITING is the trigger (R49), with P = L the capture end at once, as O30 states it (an interval that has all its codes but is
not written counts as the one in progress, log 42). -/
def Obligations.PressIsReportedAndActs : Prop :=
  (∀ (k : Fin 64) (s : State), s.pins.resetLow = false → s.power.state = .on → (keyAt s k.val).down = false →
    (bindingOf s k.val = none ∨ s.panel.lock = true ∧ ∀ b, bindingOf s k.val = some b → b.action ≠ .wake) →
    ∃ (t : State) (kept : Bool), exec (.keyPress k) s = .next t ∧ kept = decide (s.panel.fifo.length < 16) ∧
      t.panel.fifo = (if kept then s.panel.fifo ++ [⟨k.val, .press, false, s.acq.timeTag.setWidth 32⟩] else s.panel.fifo) ∧
      (keyAt t k.val).down = true ∧ (keyAt t k.val).reported = true ∧ (keyAt t k.val).count = 0 ∧
      (∀ j, j ≠ k.val → keyAt t j = keyAt s j) ∧ t.panel.idleStart = s.acq.timeTag ∧
      t.link.notes = (if kept then noteEnter .panel s.link.notes
        else if flagBit flagPanelOverrun &&& ~~~s.mon.mask = 0 then s.link.notes else noteEnter .flags s.link.notes) ∧
      t.mon = (if kept then { s.mon with current := s.mon.current &&& ~~~(flagBit flagPanelOverrun) }
        else { s.mon with
          current := s.mon.current ||| flagBit flagPanelOverrun, latched := s.mon.latched ||| flagBit flagPanelOverrun }) ∧
      t.panel.bindings = s.panel.bindings ∧ t.panel.knobs = s.panel.knobs ∧ t.panel.lamps = s.panel.lamps ∧
      t.panel.lock = s.panel.lock ∧ t.setup = s.setup ∧ t.gen = s.gen ∧ t.acq = s.acq ∧ t.raster = s.raster ∧
      t.compose = s.compose ∧ t.store = s.store ∧ t.power = s.power ∧ t.link.inbound = s.link.inbound ∧
      t.link.answers = s.link.answers ∧ t.pins = { s.pins with keys := s.pins.keys ||| BitVec.twoPow 64 k.val }) ∧
  (∀ (k : Fin 64) (b : KeyBinding) (s : State), s.pins.resetLow = false → s.power.state = .on →
    (keyAt s k.val).down = false → s.panel.lock = false → bindingOf s k.val = some b → b.action ≠ .wake →
    ∃ (t : State) (event : Bool → List KeyEvent), exec (.keyPress k) s = .next t ∧ (keyAt t k.val).reported = true ∧
      event = (fun acted => if s.panel.fifo.length < 16 then
        s.panel.fifo ++ [⟨k.val, .press, acted, s.acq.timeTag.setWidth 32⟩] else s.panel.fifo) ∧
      (16 ≤ s.panel.fifo.length → t.mon.current.getLsbD flagPanelOverrun = true ∧
        t.mon.latched.getLsbD flagPanelOverrun = true) ∧
      (b.action = .runstop → s.acq.state ≠ .stopped → t.acq.state = .stopped ∧ t.acq.runKind = .idle ∧ t.setup = s.setup ∧
        t.panel.fifo = event true) ∧
      (b.action = .runstop → s.acq.state = .stopped → t.acq.state ≠ .stopped ∧ t.acq.single = false ∧ t.setup = s.setup ∧
        t.panel.fifo = event true) ∧
      (∀ n, b.action = .chan n → t.gen = s.gen + 1 ∧
        t.setup = { s.setup with ch := s.setup.ch.set n { s.setup.ch.get n with on := !(s.setup.ch.get n).on } } ∧
        t.panel.fifo = event true) ∧
      (b.action = .clear → t.raster.planes = .const [] ∧ t.raster.list = s.raster.list ∧ t.raster.view = s.raster.view ∧
        t.setup = s.setup ∧ t.panel.fifo = event true) ∧
      (b.action = .nothing → t.acq = s.acq ∧ t.setup = s.setup ∧ t.raster = s.raster ∧
        t.panel.fifo = event false)) ∧
  (∀ (k : Fin 64) (b : KeyBinding) (s : State), s.pins.resetLow = false → s.power.state = .on →
    (keyAt s k.val).down = false → s.panel.lock = false → bindingOf s k.val = some b →
    ∃ (t : State) (event : Bool → List KeyEvent), exec (.keyPress k) s = .next t ∧
      event = (fun acted => if s.panel.fifo.length < 16 then
        s.panel.fifo ++ [⟨k.val, .press, acted, s.acq.timeTag.setWidth 32⟩] else s.panel.fifo) ∧
      (b.action = .single → t.panel.fifo = event true ∧ t.setup = s.setup ∧ t.acq.single = true ∧
        t.acq.state ≠ .stopped ∧
        (s.acq.state ∈ [AcqState.arming, .waiting, .capturing, .held] → t.acq = { s.acq with single := true }) ∧
        (s.acq.state = .rolling →
          t.acq = (if s.acq.single then s.acq else { s.acq with single := true, columnsLeft := 500 }))) ∧
      (b.action = .force →
        (s.acq.state = .stopped ∨ s.acq.state = .rolling → t.panel.fifo = event false ∧ t.acq = s.acq) ∧
        (s.acq.state = .held ∨ s.acq.state = .arming →
          t.panel.fifo = event true ∧ t.acq = { s.acq with forcePending := true }) ∧
        (s.acq.state = .capturing → t.panel.fifo = event true ∧ t.acq = s.acq) ∧
        (∀ r i, s.acq.state = .waiting → segAt s s.acq.cur = r → r.info = some i → i.geo.pre < i.geo.len →
          t.panel.fifo = event true ∧ t.acq.state = .capturing ∧ t.acq.lastTrig = some s.acq.timeTag ∧
          segAt t s.acq.cur = { r with state := .filling, info := some { i with
            trigTag := some s.acq.timeTag, trigKind := some .forced
            geo := { i.geo with origin := if i.geo.pre = 0 then 0 else s.acq.preCount % i.geo.pre } } }) ∧
        (∀ i, s.acq.state = .waiting → (segAt s s.acq.cur).info = some i → i.geo.len ≤ i.geo.pre →
          ∃ u, exec .captureEnd (triggered .forced s.acq.timeTag i { s with
              pins := { s.pins with keys := s.pins.keys ||| BitVec.twoPow 64 k.val }
              panel := { s.panel with
                keys := tabSet .cold s.panel.keys k.val { keyAt s k.val with down := true, count := 0 }
                idleStart := s.acq.timeTag } }) = .next u ∧
            t.panel.fifo = event true ∧ t.acq = u.acq ∧ t.raster = u.raster ∧ t.compose = u.compose ∧ t.setup = u.setup ∧
            t.gen = u.gen ∧ t.store = u.store ∧ t.power = u.power)) ∧
      (b.action = .defaults → t.panel.fifo = event true ∧ t.setup = .default ∧
        t.gen = (if s.setup = .default then s.gen else s.gen + 1)) ∧
      (∀ slot job, b.action = .save slot ∧ job = ⟨.save (imageOf s.setup) s.setup.name, slot⟩ ∨
          b.action = .recall slot ∧ job = ⟨.recall, slot⟩ →
        t.setup = s.setup ∧ t.acq = s.acq ∧
        (slot ≤ 31 ∧ s.store.scan = none ∧ s.store.queue.length < 4 ∧
            (b.action = .save slot ∧ (∀ q n, dirAt s slot ≠ .valid true q n) ∨
              b.action = .recall slot ∧ dirAt s slot ≠ .empty ∧ dirAt s slot ≠ .corrupt) →
          t.panel.fifo = event true ∧ t.store = { s.store with queue := s.store.queue ++ [job] } ∧
          (s.store.bus = .lent → ∃ e ∈ t.link.notes, e.src = .store)) ∧
        (31 < slot ∨ s.store.scan ≠ none ∨ 4 ≤ s.store.queue.length ∨
            b.action = .save slot ∧ (∃ q n, dirAt s slot = .valid true q n) ∨
            b.action = .recall slot ∧ (dirAt s slot = .empty ∨ dirAt s slot = .corrupt) →
          t.panel.fifo = event false ∧ t.store = s.store)))

/-- R159, R160, R189: a press taken in DARK wakes the part with the cause PANEL_WAKE and runs no action; in STANDBY a press
of a key not bound to WAKE changes nothing but the key's state (and its switch, log 41), and a WAKE press moves the part to
ON with the cause KEY_WAKE; in ON a WAKE press moves it to STANDBY. R158, R189, R191: the idle timer expires in ON after the
idle time: the part moves to DARK with the cause IDLE, the backlight duty 0 and no frame timer, and the POWER note is
entered; nothing else changes. -/
def Obligations.PowerStateMovesOfThePanel : Prop :=
  (∀ (k : Fin 64) (s : State), s.pins.resetLow = false → (keyAt s k.val).down = false →
    (s.power.state = .dark → ∃ t, exec (.keyPress k) s = .next t ∧ t.power.state = .on ∧ t.power.cause = .panelWake ∧
      t.setup = s.setup ∧ t.acq = s.acq ∧ t.store = s.store ∧ (∃ e ∈ t.link.notes, e.src = .power)) ∧
    (s.power.state = .standby → (∀ b, bindingOf s k.val = some b → b.action ≠ .wake) →
      exec (.keyPress k) s = .next { s with
        pins := { s.pins with keys := s.pins.keys ||| BitVec.twoPow 64 k.val }
        panel := { s.panel with
          keys := tabSet .cold s.panel.keys k.val { keyAt s k.val with down := true, count := 0 } } }) ∧
    (∀ b, bindingOf s k.val = some b → b.action = .wake → s.power.state ≠ .dark → ∃ t, exec (.keyPress k) s = .next t ∧
      t.power.state = (if s.power.state = .on then .standby else .on) ∧ t.power.cause = .keyWake ∧
      t.setup = s.setup ∧ (s.panel.fifo.length < 16 →
        t.panel.fifo = s.panel.fifo ++ [⟨k.val, .press, true, s.acq.timeTag.setWidth 32⟩]))) ∧
  (∀ s : State, s.pins.resetLow = false → s.power.state = .on → s.panel.idleMinutes ≠ 0 →
    s.panel.idleMinutes * 7500000000 ≤ (s.acq.timeTag - s.panel.idleStart).toNat →
    exec .idleTimerExpiry s = .next { s with
      power := { s.power with state := .dark, cause := .idle }
      compose := { s.compose with duty := 0, frameTimer := none }
      link := { s.link with notes := noteEnter .power s.link.notes } })

/-- R141, R142, R144: a release outside STANDBY: the key is UP with no indication, and a RELEASE event is produced exactly
when the indication was set, kept while the FIFO holds fewer than 16 events, else dropped with PANEL_OVERRUN; the key's
switch stands open (log 41). R143, R144: at a scan at or after its repeat deadline a key that is DOWN, reported and marked
repeatable gives a REPEAT event, kept or, with the FIFO full, dropped with PANEL_OVERRUN latched; its next deadline lies 80
ms after the one it met (log 16). R141, R143: one scan of one key. Read in its debounced state its count becomes 0; read in
the other, the count rises by one, and the fourth such scan in a row is the press or the release of the key, as the rows
KEY_PRESS and KEY_RELEASE take it; a repeat at a scan is as the row KEY_REPEAT takes it. A scan that completes no transition
changes nothing but the count. R140: in one scan the eight KEY_ROW lines are driven in turn, each alone, and the eight
KEY_COL lines are read for each, so that the key at row r and column c, of id 8 × r + c, is read as its switch stands (that
the reads of one scan are all of its tick is the model's choice, log 45). R142, R160: a release taken in STANDBY clears the
key's indication with no event and no activity. A press of a key that is DOWN and a release of one that is UP move the switch
alone (log 41). -/
def Obligations.ReleasesAndRepeats : Prop :=
  (∀ (k : Fin 64) (s : State), s.pins.resetLow = false → s.power.state ≠ .standby → (keyAt s k.val).down = true →
    ∃ t, exec (.keyRelease k) s = .next t ∧ keyAt t k.val = ⟨false, 0, false, none⟩ ∧
      (∀ j, j ≠ k.val → keyAt t j = keyAt s j) ∧ t.panel.idleStart = s.acq.timeTag ∧
      ((keyAt s k.val).reported = true → s.panel.fifo.length < 16 →
        t.panel.fifo = s.panel.fifo ++ [⟨k.val, .release, false, s.acq.timeTag.setWidth 32⟩] ∧
        t.link.notes = noteEnter .panel s.link.notes ∧ t.mon.latched = s.mon.latched ∧
        t.mon.current = s.mon.current &&& ~~~(flagBit flagPanelOverrun)) ∧
      ((keyAt s k.val).reported = true → 16 ≤ s.panel.fifo.length → t.panel.fifo = s.panel.fifo ∧
        t.link.notes = (if flagBit flagPanelOverrun &&& ~~~s.mon.mask = 0 then s.link.notes
          else noteEnter .flags s.link.notes) ∧
        t.mon.latched = s.mon.latched ||| flagBit flagPanelOverrun ∧
        t.mon.current = s.mon.current ||| flagBit flagPanelOverrun) ∧
      ((keyAt s k.val).reported = false → t.panel.fifo = s.panel.fifo ∧ t.link = s.link ∧ t.mon = s.mon) ∧
      t.setup = s.setup ∧ t.gen = s.gen ∧ t.acq = s.acq ∧ t.raster = s.raster ∧ t.compose = s.compose ∧ t.store = s.store ∧
      t.power = s.power ∧ t.mon.mask = s.mon.mask ∧ t.panel.bindings = s.panel.bindings ∧ t.panel.knobs = s.panel.knobs ∧
      t.pins = { s.pins with keys := s.pins.keys &&& ~~~(BitVec.twoPow 64 k.val) }) ∧
  (∀ (k : Fin 64) (b : KeyBinding) (d : Tick) (s : State), s.pins.resetLow = false → (keyAt s k.val).down = true →
    (keyAt s k.val).reported = true → bindingOf s k.val = some b → b.repeatable = true →
    (keyAt s k.val).deadline = some d → (s.acq.timeTag - d).toNat < 2 ^ 47 →
    ∃ t, exec (.keyRepeat k) s = .next t ∧ keyAt t k.val = { keyAt s k.val with deadline := some (d + 10000000) } ∧
      (∀ j, j ≠ k.val → keyAt t j = keyAt s j) ∧
      (s.panel.fifo.length < 16 → t.panel.fifo = s.panel.fifo ++ [⟨k.val, .repeats, false, s.acq.timeTag.setWidth 32⟩] ∧
        t.link.notes = noteEnter .panel s.link.notes) ∧
      (16 ≤ s.panel.fifo.length → t.panel.fifo = s.panel.fifo ∧
        t.mon.latched = s.mon.latched ||| flagBit flagPanelOverrun ∧ t.mon.current = s.mon.current ||| flagBit flagPanelOverrun) ∧
      t.setup = s.setup ∧ t.gen = s.gen ∧ t.acq = s.acq ∧ t.raster = s.raster ∧ t.compose = s.compose ∧ t.store = s.store ∧
      t.power = s.power ∧ t.panel.idleStart = s.panel.idleStart) ∧
  (∀ (k : Fin 64) (s : State) (x : KeyState), keyAt s k.val = x →
    (s.pins.keys.getLsbD k.val = x.down ∨ x.count < 3 →
      keyAt (scanKey s k.val) k.val =
        { x with count := if s.pins.keys.getLsbD k.val = x.down then 0 else x.count + 1 } ∧
      (∀ i, i ≠ k.val → keyAt (scanKey s k.val) i = keyAt s i) ∧
      { scanKey s k.val with panel := { (scanKey s k.val).panel with keys := s.panel.keys } } = s) ∧
    (s.pins.keys.getLsbD k.val = true → x.down = false → x.count = 3 → s.pins.resetLow = false →
      exec (.keyPress k) s = .next (scanKey s k.val)) ∧
    (s.pins.keys.getLsbD k.val = false → x.down = true → x.count = 3 → s.pins.resetLow = false →
      exec (.keyRelease k) s = .next (scanKey s k.val)) ∧
    (s.pins.resetLow = false → exec (.keyRepeat k) s = .next (scanRepeat s k.val))) ∧
  ((∀ (s : State) (r c : Fin 8), (∀ l : Fin 8, (keyRowLines r.val).getLsbD l.val = decide (l = r)) ∧
    (keyColLines s r.val).getLsbD c.val = s.pins.keys.getLsbD (8 * r.val + c.val) ∧
    keyClosed s (8 * r.val + c.val) = s.pins.keys.getLsbD (8 * r.val + c.val)) ∧
  (∀ (k : Fin 64) (s : State), s.pins.resetLow = false → s.power.state = .standby → (keyAt s k.val).down = true →
    ∃ keys, exec (.keyRelease k) s = .next { s with
        panel := { s.panel with keys := keys }
        pins := { s.pins with keys := s.pins.keys &&& ~~~(BitVec.twoPow 64 k.val) } } ∧
      ∀ j, tabGet (KeyState.mk false 0 false none) keys j = if j = k.val then ⟨false, 0, false, none⟩ else keyAt s j) ∧
  (∀ (k : Fin 64) (s : State), s.pins.resetLow = false →
    ((keyAt s k.val).down = true → exec (.keyPress k) s =
      .next { s with pins := { s.pins with keys := s.pins.keys ||| BitVec.twoPow 64 k.val } }) ∧
    ((keyAt s k.val).down = false → exec (.keyRelease k) s =
      .next { s with pins := { s.pins with keys := s.pins.keys &&& ~~~(BitVec.twoPow 64 k.val) } })))

/-- R150, R151, R154, R157, R160: a detent. In ON an unbound knob's accumulator gains the multiplier with the detent's sign,
held at ±32,767, and its note is entered; a bound knob with a batch in flight gathers its steps; a bound knob while the lock
is on is discarded. In STANDBY nothing else happens. At each detent the knob is at rest with both lines high (log 41). The
multiplier is 10 below 10 ms and 3 below 40 ms after the last detent in the same direction, else 1. R22, R154: when SETUP
hands a batch back, a bound knob that has gathered no steps has no batch in flight and nothing else changes; one that has
offers them at once as the next batch, one change of its field (a new batch in flight, its count 0). R22, R154, R159: a
detent in ON, unlocked, of a bound knob with no batch in flight: its steps reach SETUP at once as one batch, one change of
its field, and the step count is 0 with the batch in flight; with no step to offer there is none. A detent in DARK wakes the
part with the cause PANEL_WAKE and is discarded: it enters no count and no KNOB note. (At a detent the knob is at rest, both
lines high, log 41.) R149: one sample of a knob's lines. A level is accepted when two samples in a row agree on it. A sample
in which both lines differ from the last accepted state is ignored; a change of one line adds 1 to the quarter count in the
clockwise order (both high, A low, both low, B low) and takes 1 away in the other; the return to rest with a count of 4 or −4
is a detent of that direction, and clears the count. -/
def Obligations.DetentsAndBatches : Prop :=
  (∀ (n : Fin 8) (d : Dir) (s s1 : State) (m : Int) (x : Knob), s.pins.resetLow = false →
    m = (match d with | .clockwise => 1 | .anticlockwise => -1) *
      (match (knobAt s n.val).lastDetent with
       | some (t, d') => if d = d' ∧ (s.acq.timeTag - t).toNat < 1250000 then 10
           else if d = d' ∧ (s.acq.timeTag - t).toNat < 5000000 then 3 else 1
       | none => 1) →
    x = { knobAt s n.val with a := true, b := true, rawA := true, rawB := true, quarter := 0 } →
    s1 = { s with
      pins := { s.pins with
        encA := s.pins.encA ||| BitVec.twoPow 8 n.val, encB := s.pins.encB ||| BitVec.twoPow 8 n.val }
      panel := { s.panel with knobs := tabSet .cold s.panel.knobs n.val x } } →
    (s.power.state = .standby → exec (.knobDetent n d) s = .next s1) ∧
    (s.power.state = .on → s.panel.lock = true → (knobAt s n.val).binding ≠ none →
      exec (.knobDetent n d) s = .next { s1 with panel := { s1.panel with idleStart := s.acq.timeTag } }) ∧
    (s.power.state = .on → (knobAt s n.val).binding = none → ∃ t, exec (.knobDetent n d) s = .next t ∧
      knobAt t n.val = { x with
        acc := max (-32767) (min 32767 (x.acc + m)), lastDetent := some (s.acq.timeTag, d) } ∧
      (∀ j, j ≠ n.val → knobAt t j = knobAt s j) ∧ t.panel.idleStart = s.acq.timeTag ∧ t.pins = s1.pins ∧
      t.link.notes = noteEnter (.knob n) s.link.notes ∧ t.setup = s.setup ∧ t.gen = s.gen ∧ t.acq = s.acq ∧ t.mon = s.mon ∧
      t.raster = s.raster ∧ t.compose = s.compose ∧ t.store = s.store ∧ t.power = s.power ∧
      t.link.answers = s.link.answers ∧ t.link.inbound = s.link.inbound ∧ t.panel.fifo = s.panel.fifo) ∧
    (s.power.state = .on → s.panel.lock = false → (knobAt s n.val).binding ≠ none → (knobAt s n.val).inFlight = true →
      ∃ t, exec (.knobDetent n d) s = .next t ∧ knobAt t n.val = { x with
        steps := max (-32767) (min 32767 (x.steps + m)), lastDetent := some (s.acq.timeTag, d) } ∧
      t.setup = s.setup ∧ t.gen = s.gen ∧ t.acq = s.acq ∧ t.mon = s.mon ∧ t.link = s.link)) ∧
  (∀ (n : Fin 8) (b : KnobBinding) (s : State), s.pins.resetLow = false → (knobAt s n.val).inFlight = true →
    (knobAt s n.val).binding = some b →
    ((knobAt s n.val).steps = 0 → exec (.knobBatchResult n) s = .next { s with panel := { s.panel with
      knobs := tabSet .cold s.panel.knobs n.val { knobAt s n.val with inFlight := false } } }) ∧
    ((knobAt s n.val).steps ≠ 0 → ∃ t, exec (.knobBatchResult n) s = .next t ∧
      t.setup = batchSetup s.setup b (knobAt s n.val).steps ∧
      t.gen = (if batchSetup s.setup b (knobAt s n.val).steps = s.setup then s.gen else s.gen + 1) ∧
      knobAt t n.val = { knobAt s n.val with steps := 0, inFlight := true })) ∧
  (∀ (n : Fin 8) (d : Dir) (s : State) (m : Int) (x : Knob), s.pins.resetLow = false →
    m = (match d with | .clockwise => 1 | .anticlockwise => -1) *
      (match (knobAt s n.val).lastDetent with
       | some (t, d') => if d = d' ∧ (s.acq.timeTag - t).toNat < 1250000 then 10
           else if d = d' ∧ (s.acq.timeTag - t).toNat < 5000000 then 3 else 1
       | none => 1) →
    x = { knobAt s n.val with a := true, b := true, rawA := true, rawB := true, quarter := 0 } →
    (∀ b v, s.power.state = .on → s.panel.lock = false → x.binding = some b → x.inFlight = false →
      v = max (-32767) (min 32767 (x.steps + m)) →
      ∃ t, exec (.knobDetent n d) s = .next t ∧ (∀ j, j ≠ n.val → knobAt t j = knobAt s j) ∧
        t.panel.idleStart = s.acq.timeTag ∧ t.panel.fifo = s.panel.fifo ∧ t.store = s.store ∧ t.power = s.power ∧
        (v ≠ 0 → t.setup = batchSetup s.setup b v ∧
          t.gen = (if batchSetup s.setup b v = s.setup then s.gen else s.gen + 1) ∧
          knobAt t n.val = { x with steps := 0, inFlight := true, lastDetent := some (s.acq.timeTag, d) }) ∧
        (v = 0 → t.setup = s.setup ∧ t.gen = s.gen ∧ t.acq = s.acq ∧ t.link = s.link ∧
          knobAt t n.val = { x with steps := 0, lastDetent := some (s.acq.timeTag, d) })) ∧
    (s.power.state = .dark → ∃ t, exec (.knobDetent n d) s = .next t ∧ t.power.state = .on ∧
      t.power.cause = .panelWake ∧ t.power.runAtWake = s.power.runAtWake ∧ knobAt t n.val = x ∧
      (∀ j, j ≠ n.val → knobAt t j = knobAt s j) ∧ t.link.notes = noteEnter .power s.link.notes ∧
      t.panel.fifo = s.panel.fifo ∧ t.setup = s.setup ∧ t.gen = s.gen ∧ t.acq = s.acq ∧ t.mon = s.mon ∧
      t.store = s.store ∧ t.compose.frameTimer = some (s.acq.timeTag, 0))) ∧
  ((∀ (x : Knob) (a b a' b' : Bool), a' = (if a = x.rawA then a else x.a) → b' = (if b = x.rawB then b else x.b) →
    -4 ≤ x.quarter → x.quarter ≤ 4 →
    (a' ≠ x.a → b' ≠ x.b → sampleKnob x a b = ({ x with rawA := a, rawB := b }, none)) ∧
    (a' = x.a → b' = x.b → sampleKnob x a b = ({ x with rawA := a, rawB := b }, none)) ∧
    (∀ d : Int, (d = 1 ∧ a' = !x.b ∧ b' = x.a) ∨ (d = -1 ∧ a' = x.b ∧ b' = !x.a) → (a' = x.a ∨ b' = x.b) →
      ((a' && b') = false → sampleKnob x a b =
        ({ x with rawA := a, rawB := b, a := a', b := b', quarter := max (-4) (min 4 (x.quarter + d)) }, none)) ∧
      ((a' && b') = true → sampleKnob x a b = ({ x with rawA := a, rawB := b, a := true, b := true, quarter := 0 },
        if x.quarter + d = 4 then some .clockwise else if x.quarter + d = -4 then some .anticlockwise else none)))) ∧
  (∀ (n : Nat) (s : State) (y : Knob) (d : Option Dir),
    sampleKnob (knobAt s n) (s.pins.encA.getLsbD n) (s.pins.encB.getLsbD n) = (y, d) →
    (d = none → knobAt (scanKnob s n) n = y ∧ (∀ i, i ≠ n → knobAt (scanKnob s n) i = knobAt s i) ∧
      { scanKnob s n with panel := { (scanKnob s n).panel with knobs := s.panel.knobs } } = s) ∧
    (∀ e, d = some e → scanKnob s n = takeDetent n e (setKnob n y s))))

/-- R146, R214, R215: PANEL.KEYBIND writes or removes one entry and is answered OK with the number of entries; a key id above
63 or an action or parameter outside its set is refused with BAD_VALUE, a new key with the table full with BUSY. R152, R214:
PANEL.KNOBBIND writes or empties the entry of one knob and clears its accumulator, its step count and its last detent; a knob
above 7 or a rule its target does not take is refused with BAD_VALUE, a target that is no bindable field with BAD_FIELD. R22,
R153: what a batch of steps offers, from the field's present value: LINEAR the value plus steps × size, STEP125 on a field
other than CHn.SCALE the index plus the steps, each clamped in silence into the field's range; on CHn.SCALE as many moves up
or down as the steps, by the 1-2-5 sequence or by one per cent, the ends of the range being where they stop. R153: STEP125
moves CHn.SCALE to the next value of its 1-2-5 sequence, and FINE by one per cent rounded half away from zero, by at least 1,
inside 1,000..10,000,000. R146, R214: the key action of each code and parameter of PANEL.KEYBIND. R152: the bindable targets,
whether STEP125 and FINE are allowed for each, and the rule of each code of PANEL.KNOBBIND, a LINEAR size being 1..1,000,000.
-/
def Obligations.PanelBindingOrders : Prop :=
  (∀ (tag k a p r : Byte) (s : State), Ready 0x2C tag [k, a, p, r] s →
    (63 < k.toNat ∨ 9 < a.toNat ∧ a ≠ 0xFF ∨ a = 4 ∧ (p = 0 ∨ 4 < p.toNat) ∨ (a = 7 ∨ a = 8) ∧ 31 < p.toNat →
      exec (.panelKeybind tag [k, a, p, r]) s = .next (answered 0x2C tag .badValue [] s)) ∧
    (∀ x, k.toNat ≤ 63 → a ≠ 0xFF → actionOf a.toNat p.toNat = some x →
      (bindingOf s k.toNat = none → 16 ≤ s.panel.bindings.length →
        exec (.panelKeybind tag [k, a, p, r]) s = .next (answered 0x2C tag .busy [] s)) ∧
      (bindingOf s k.toNat ≠ none ∨ s.panel.bindings.length < 16 →
        ∃ t, exec (.panelKeybind tag [k, a, p, r]) s = .next t ∧ bindingOf t k.toNat = some ⟨x, decide (r ≠ 0)⟩ ∧
          (∀ j, j ≠ k.toNat → bindingOf t j = bindingOf s j ∧ keyAt t j = keyAt s j) ∧
          t.link.answers = s.link.answers ++ [⟨0xAC, tag, [0] ++ be 1 t.panel.bindings.length⟩] ∧
          t.link.inbound = s.link.inbound.drop 1 ∧ t.link.notes = s.link.notes ∧ t.setup = s.setup ∧ t.acq = s.acq ∧
          t.mon = s.mon ∧ t.raster = s.raster ∧ t.compose = s.compose ∧ t.store = s.store ∧ t.power = s.power ∧
          t.panel.knobs = s.panel.knobs ∧ t.panel.fifo = s.panel.fifo)) ∧
    (k.toNat ≤ 63 → a = 0xFF → ∃ t, exec (.panelKeybind tag [k, a, p, r]) s = .next t ∧ bindingOf t k.toNat = none ∧
      (∀ j, j ≠ k.toNat → bindingOf t j = bindingOf s j) ∧
      t.link.answers = s.link.answers ++ [⟨0xAC, tag, [0] ++ be 1 t.panel.bindings.length⟩])) ∧
  (∀ (tag n : Byte) (rest : List Byte) (s : State) (rule id size : Nat), Ready 0x2D tag (n :: rest) s → rest.length = 7 →
    rule = (byteAt rest 2).toNat → id = natAt rest 0 2 → size = natAt rest 3 4 →
    (7 < n.toNat → exec (.panelKnobbind tag (n :: rest)) s = .next (answered 0x2D tag .badValue [] s)) ∧
    (n.toNat ≤ 7 → rule ≠ 0 → (fieldOfId id).bind targetRules = none →
      exec (.panelKnobbind tag (n :: rest)) s = .next (answered 0x2D tag .badField [] s)) ∧
    (∀ f a, n.toNat ≤ 7 → rule ≠ 0 → fieldOfId id = some f → targetRules f = some a → ruleOf a rule size = none →
      exec (.panelKnobbind tag (n :: rest)) s = .next (answered 0x2D tag .badValue [] s)) ∧
    (∀ b, n.toNat ≤ 7 → (rule = 0 ∧ b = none ∨
        ∃ f a x, rule ≠ 0 ∧ fieldOfId id = some f ∧ targetRules f = some a ∧ ruleOf a rule size = some x ∧ b = some ⟨f, x⟩) →
      exec (.panelKnobbind tag (n :: rest)) s = .next (answered 0x2D tag .ok [] { s with panel := { s.panel with
        knobs := tabSet .cold s.panel.knobs n.toNat { knobAt s n.toNat with
          binding := b, acc := 0, steps := 0, lastDetent := none } } }))) ∧
  ((∀ (u : Setup) (f : Field) (lo hi v steps : Int), f.kind = .numeric lo hi → lo ≤ hi → u.get f = .number v →
    (∀ size : Nat, batchSetup u ⟨f, .linear size⟩ steps = u.put f (.number (max lo (min hi (v + steps * size))))) ∧
    ((∀ n, f ≠ .chan n .scale) →
      batchSetup u ⟨f, .step125⟩ steps = u.put f (.number (max lo (min hi (v + steps)))))) ∧
  (∀ (u : Setup) (n : Chan) (steps : Int) (v : Nat), v = (u.ch.get n).scale → 1000 ≤ v → v ≤ 10000000 →
    batchSetup u ⟨.chan n .scale, .step125⟩ steps = u.put (.chan n .scale)
      (.number ((if 0 ≤ steps then times scaleUp steps.toNat v else times scaleDown (-steps).toNat v : Nat) : Int)) ∧
    batchSetup u ⟨.chan n .scale, .fine⟩ steps = u.put (.chan n .scale)
      (.number ((if 0 ≤ steps then times fineUp steps.toNat v else times fineDown (-steps).toNat v : Nat) : Int))) ∧
  (∀ (f : Nat → Nat) (k v : Nat), times f 0 v = v ∧ times f (k + 1) v = times f k (f v)) ∧
  scaleUp 10000000 = 10000000 ∧ scaleDown 1000 = 1000) ∧
  (∀ v : Nat, 1000 ≤ v → v ≤ 10000000 →
    (v < 10000000 → v < scaleUp v ∧ (∃ r, r ≤ 12 ∧ scaleUp v = hwOf r) ∧ ∀ r, r ≤ 12 → v < hwOf r → scaleUp v ≤ hwOf r) ∧
    (1000 < v → scaleDown v < v ∧ (∃ r, r ≤ 12 ∧ scaleDown v = hwOf r) ∧ ∀ r, r ≤ 12 → hwOf r < v → hwOf r ≤ scaleDown v) ∧
    fineUp v = min 10000000 ((v * 101 + 50) / 100) ∧ fineDown v = max 1000 ((v * 99 + 50) / 100)) ∧
  ((∀ (c p : Nat) (x : KeyAction), actionOf c p = some x ↔
    c = 0 ∧ x = .nothing ∨ c = 1 ∧ x = .runstop ∨ c = 2 ∧ x = .single ∨ c = 3 ∧ x = .force ∨
    (∃ n : Chan, c = 4 ∧ p = n.num ∧ x = .chan n) ∨ c = 5 ∧ x = .clear ∨ c = 6 ∧ x = .defaults ∨
    c = 7 ∧ p ≤ 31 ∧ x = .save p ∨ c = 8 ∧ p ≤ 31 ∧ x = .recall p ∨ c = 9 ∧ x = .wake) ∧
  (∀ (f : Field) (step125 fine : Bool), targetRules f = some (step125, fine) ↔
    (∃ n, f = .chan n .scale) ∧ step125 = true ∧ fine = true ∨
    (f = .dev .tbase ∨ f = .dev .depth) ∧ step125 = true ∧ fine = false ∨
    ((∃ n, f = .chan n .pos) ∨ f = .dev .tlevel ∨ f = .dev .holdoff ∨ f = .dev .curV1 ∨ f = .dev .curV2 ∨ f = .dev .curH1 ∨
      f = .dev .curH2 ∨ f = .dev .tbright ∨ f = .dev .bllevel) ∧ step125 = false ∧ fine = false) ∧
  (∀ (step125 fine : Bool) (c size : Nat) (x : StepRule), ruleOf (step125, fine) c size = some x ↔
    c = 1 ∧ step125 = true ∧ x = .step125 ∨ c = 2 ∧ fine = true ∧ x = .fine ∨
    c = 3 ∧ 1 ≤ size ∧ size ≤ 1000000 ∧ x = .linear size))

/-- R155, R157, R158: PANEL.LED writes a lamp's mode or the standby indicator's, PANEL.LOCK the lock (set on, it discards
every step count), PANEL.IDLE the idle time (the timer restarts); a value outside its set is refused with BAD_VALUE. R145,
R151, R216: KEYS.READ returns and removes every key event, oldest first, seven bytes each; KNOBS.READ returns the eight
accumulators and sets each to 0; nothing else changes. R155: a lamp line is high while its lamp is lit: OFF never, ON always,
SLOW and FAST by the time tag; a FOLLOW lamp shows what its source calls for at that moment. (That the lamp lines go on
showing this while RESET_N is low is the model's choice, log 34.) R156, R184: what each source calls for, from the state of
its owner. R155, R156, R214: the lamp mode of each mode code and source code of PANEL.LED. -/
def Obligations.PanelWritesAndReads : Prop :=
  ((∀ (tag l m src : Byte) (s : State), Ready 0x2E tag [l, m, src] s →
    (4 < m.toNat ∨ m = 4 ∧ 8 < src.toNat ∨ 31 < l.toNat ∧ (l ≠ 0xFF ∨ m = 4) →
      exec (.panelLed tag [l, m, src]) s = .next (answered 0x2E tag .badValue [] s)) ∧
    (∀ x, l.toNat ≤ 31 → lampModeOf m.toNat src.toNat = some x →
      exec (.panelLed tag [l, m, src]) s = .next (answered 0x2E tag .ok [] { s with panel := { s.panel with
        lamps := tabSet (.plain .off) s.panel.lamps l.toNat x } })) ∧
    (∀ x, l = 0xFF → lampModeOf m.toNat src.toNat = some (.plain x) →
      exec (.panelLed tag [l, m, src]) s = .next (answered 0x2E tag .ok [] { s with panel := { s.panel with
        standbyMode := x } }))) ∧
  (∀ (tag b : Byte) (s : State), Ready 0x2F tag [b] s →
    (1 < b.toNat → exec (.panelLock tag [b]) s = .next (answered 0x2F tag .badValue [] s)) ∧
    (b = 0 → exec (.panelLock tag [b]) s = .next (answered 0x2F tag .ok [] { s with panel := { s.panel with lock := false } })) ∧
    (b = 1 → exec (.panelLock tag [b]) s = .next (answered 0x2F tag .ok [] { s with panel := { s.panel with
      lock := true, knobs := s.panel.knobs.map (fun e => (e.1, { e.2 with steps := 0 })) } }))) ∧
  (∀ (tag b : Byte) (s : State), Ready 0x30 tag [b] s →
    (240 < b.toNat → exec (.panelIdle tag [b]) s = .next (answered 0x30 tag .badValue [] s)) ∧
    (b.toNat ≤ 240 → exec (.panelIdle tag [b]) s = .next (answered 0x30 tag .ok [] { s with panel := { s.panel with
      idleMinutes := b.toNat, idleStart := s.acq.timeTag } })))) ∧
  ((∀ (tag : Byte) (s : State), Ready 0x31 tag [] s → exec (.keysRead tag []) s = .next (answered 0x31 tag .ok
    (be 1 s.panel.fifo.length ++ s.panel.fifo.flatMap (fun e => be 1 e.key ++
      [(match e.kind with | .press => (0 : Byte) | .release => 1 | .repeats => 2), if e.acted then 1 else 0] ++
      be 4 e.time.toNat)) { s with panel := { s.panel with fifo := [] } })) ∧
  (∀ (tag : Byte) (s : State), Ready 0x32 tag [] s → tabRising s.panel.knobs = true → ∃ ks,
    exec (.knobsRead tag []) s = .next (answered 0x32 tag .ok
      ((List.range 8).flatMap (fun n => beInt 2 (knobAt s n).acc)) { s with panel := { s.panel with knobs := ks } }) ∧
    ∀ n, tabGet .cold ks n = { knobAt s n with acc := 0 })) ∧
  ((∀ (s : State) (i : Nat) (m : Blink),
    (lampAt s i = .plain m ∨ ∃ src, lampAt s i = .follow src ∧ followShows s src = m) →
    (lampLit s i = true ↔ m = .on ∨ m = .slow ∧ s.acq.timeTag.toNat / 62500000 % 2 = 0 ∨
      m = .fast ∧ s.acq.timeTag.toNat / 15625000 % 2 = 0)) ∧
  (∀ s : State,
    followShows s .run = (match s.acq.state with
      | .arming | .capturing | .rolling => .on
      | .waiting => (match s.setup.tmode with | .auto => .on | .normal => .fast)
      | .held => .slow
      | .stopped => .off) ∧
    followShows s .single = (if s.acq.single then .on else .off) ∧
    (∀ n, followShows s (.chan n) = (if (s.setup.ch.get n).on then .on else .off)) ∧
    followShows s .flags = (if s.mon.latched &&& ~~~s.mon.mask = 0 then .off else .slow) ∧
    (s.store.bus ≠ .lent → s.store.running ≠ none ∨ s.store.scan ≠ none ∨ s.store.queue ≠ [] →
      followShows s .store = .on) ∧
    (s.store.bus = .lent → s.store.queue ≠ [] ∨ s.store.scan ≠ none → followShows s .store = .fast) ∧
    (s.store.running = none → s.store.queue = [] → s.store.scan = none → followShows s .store = .off) ∧
    followShows s .power = (match s.power.state with | .on => .on | .dark => .slow | .standby => s.panel.standbyMode))) ∧
  (∀ (mode source : Nat) (x : LampMode), lampModeOf mode source = some x ↔
    mode = 0 ∧ x = .plain .off ∨ mode = 1 ∧ x = .plain .on ∨ mode = 2 ∧ x = .plain .slow ∨ mode = 3 ∧ x = .plain .fast ∨
    mode = 4 ∧ (source = 0 ∧ x = .follow .run ∨ source = 1 ∧ x = .follow .single ∨
      (∃ n : Chan, source = 1 + n.num ∧ x = .follow (.chan n)) ∨ source = 6 ∧ x = .follow .flags ∨
      source = 7 ∧ x = .follow .store ∨ source = 8 ∧ x = .follow .power))

/-! ## STORE -/

/-- R173, R175, R181: SLOT.SAVE, SLOT.RECALL, SLOT.ERASE and SLOT.PROTECT are checked in order (the slot and the setting, the
scan, the entry, room in the queue); a refused one changes nothing; an accepted one joins the tail of the queue as one job, a
save with the image and the name as they stand, and is answered OK (CLAMPED when a given name had characters replaced) with
the number of jobs; on a LENT bus the STORE note is entered. R173: SLOT.PROTECT with a setting other than on or off is
refused with BAD_VALUE and changes nothing. -/
def Obligations.StoreOrdersQueueOneJob : Prop :=
  (∀ (kind tag : Byte) (body : List Byte) (i : Instr) (j : StoreJob) (st : Status) (s : State) (slot : Nat) (name : List Byte),
    slot = (byteAt body 0).toNat →
    name = (body.drop 1).map (fun c => if 0x20 ≤ c.toNat ∧ c.toNat ≤ 0x7E then c else 0x20) →
    (kind = 0x36 ∧ i = .slotSave tag body ∧ body.length = 1 ∧ j = ⟨.save (imageOf s.setup) s.setup.name, slot⟩ ∧ st = .ok ∨
      kind = 0x36 ∧ i = .slotSave tag body ∧ body.length = 17 ∧ j = ⟨.save (imageOf { s.setup with name := name }) name, slot⟩ ∧
        st = (if name = body.drop 1 then Status.ok else Status.clamped) ∨
      kind = 0x37 ∧ i = .slotRecall tag body ∧ body.length = 1 ∧ j = ⟨.recall, slot⟩ ∧ st = .ok ∨
      kind = 0x38 ∧ i = .slotErase tag body ∧ body.length = 1 ∧ j = ⟨.erase, slot⟩ ∧ st = .ok ∨
      kind = 0x39 ∧ i = .slotProtect tag body ∧ body.length = 2 ∧ byteAt body 1 = 1 ∧ j = ⟨.protect true, slot⟩ ∧ st = .ok ∨
      kind = 0x39 ∧ i = .slotProtect tag body ∧ body.length = 2 ∧ byteAt body 1 = 0 ∧ j = ⟨.protect false, slot⟩ ∧ st = .ok) →
    Ready kind tag body s →
    (31 < slot → exec i s = .next (answered kind tag .badValue [] s)) ∧
    (slot ≤ 31 → s.store.scan ≠ none → exec i s = .next (answered kind tag .notReady [] s)) ∧
    (slot ≤ 31 → s.store.scan = none →
      (kind = 0x36 ∨ kind = 0x38 → ∀ q n, dirAt s slot = .valid true q n →
        exec i s = .next (answered kind tag .prot [] s)) ∧
      (kind = 0x37 ∨ kind = 0x39 → dirAt s slot = .empty → exec i s = .next (answered kind tag .empty [] s)) ∧
      (kind = 0x37 ∨ kind = 0x39 → dirAt s slot = .corrupt → exec i s = .next (answered kind tag .corrupt [] s)) ∧
      ((kind = 0x36 ∨ kind = 0x38) ∧ (∀ q n, dirAt s slot ≠ .valid true q n) ∨
          (kind = 0x37 ∨ kind = 0x39) ∧ dirAt s slot ≠ .empty ∧ dirAt s slot ≠ .corrupt →
        (4 ≤ s.store.queue.length → exec i s = .next (answered kind tag .busy [] s)) ∧
        (s.store.queue.length < 4 → exec i s = .next (answered kind tag st (be 1 (s.store.queue.length + 1)) { s with
          store := { s.store with queue := s.store.queue ++ [j] }
          link := { s.link with notes :=
            if s.store.bus = .lent then noteEnter .store s.link.notes else s.link.notes } }))))) ∧
  (∀ (tag : Byte) (body : List Byte) (s : State), Ready 0x39 tag body s → body.length = 2 → 1 < (byteAt body 1).toNat →
    exec (.slotProtect tag body) s = .next (answered 0x39 tag .badValue [] s))

/-- R174, R180, R181, R182: BUS.LEND on an OWNED bus with no step in flight lends it at once, answered OK (with the STORE
note when work waits); with a step in flight the bus is LENDING and the answer is withheld; BUS.LEND is refused with BUSY in
LENDING and WRONG_STATE in LENT, BUS.RETURN with WRONG_STATE outside LENT; BUS.RETURN of a LENT bus makes it OWNED, answered
OK, and the paused work takes its next step: the running job the step of its phase (R175 to R178), else the scan its next
read. SLOT.LIST answers the directory and changes nothing. R180, R181: a step that ends, in time or by its timeout, while the
bus is LENDING ends as it would on an OWNED bus, except that no next step starts: the bus becomes LENT, the answer OK that
BUS.LEND waited for is entered, and with a job in the queue or the scan not ended the STORE note is entered (here with no
autosave waiting for the step; O13 states those; at the very tick of its limit a step may end in time or time out, the
model's choice, log 47). The read that completes a recall's classification, whose change reaches other blocks, is stated by
itself: its entry, its end and the lending. -/
def Obligations.BusOrdersAndSlotList : Prop :=
  (∀ (tag : Byte) (s : State),
    (Ready 0x3B tag [] s →
      (s.store.bus = .owned → s.store.step = none → exec (.busLend tag []) s = .next (answered 0x3B tag .ok [] { s with
        store := { s.store with bus := .lent }
        link := { s.link with notes :=
          if s.store.queue ≠ [] ∨ s.store.scan ≠ none then noteEnter .store s.link.notes else s.link.notes } })) ∧
      (s.store.bus = .owned → s.store.step ≠ none → exec (.busLend tag []) s = .next { s with
        store := { s.store with bus := .lending, withheld := some tag }
        link := { s.link with inbound := s.link.inbound.drop 1 } }) ∧
      (s.store.bus = .lending → exec (.busLend tag []) s = .next (answered 0x3B tag .busy [] s)) ∧
      (s.store.bus = .lent → exec (.busLend tag []) s = .next (answered 0x3B tag .wrongState [] s))) ∧
    (Ready 0x3C tag [] s →
      (s.store.bus ≠ .lent → exec (.busReturn tag []) s = .next (answered 0x3C tag .wrongState [] s)) ∧
      (s.store.bus = .lent → ∃ st, exec (.busReturn tag []) s = .next (answered 0x3C tag .ok [] { s with
          store := { s.store with bus := .owned, step := st } }) ∧
        (s.store.step = none → s.store.running = none → s.store.scan = none → st = none) ∧
        (∀ r j rest step page, s.store.step = none → s.store.running = some r → s.store.queue = j :: rest →
          ((∃ why pages, r.phase = .classify why pages ∧ step = .readPage ∧ page = pages.length) ∨
            r.phase = .saveErase ∧ step = .eraseSector ∧ page = 0 ∨
            r.phase = .eraseSector ∧ step = .eraseSector ∧ page = 0 ∨
            (∃ image name, j.kind = .save image name ∧
              (r.phase = .saveBody1 ∧ step = .programPage (image.take 256) ∧ page = 1 ∨
                r.phase = .saveBody2 ∧ step = .programPage ((image.drop 256).take 256) ∧ page = 2 ∨
                r.phase = .saveHeader ∧ page = 0 ∧
                  step = .programPage (headerPage j.slot (nextSequence s) name image))) ∨
            r.phase = .protectOn ∧ page = 0 ∧
              step = .programPage (List.replicate 6 0xFF ++ [0x00] ++ List.replicate 249 0xFF) ∨
            (∃ h b, r.phase = .offErase h b ∧ step = .eraseSector ∧ page = 0 ∨
              r.phase = .offBody1 h b ∧ step = .programPage (b.take 256) ∧ page = 1 ∨
              r.phase = .offBody2 h b ∧ step = .programPage ((b.drop 256).take 256) ∧ page = 2 ∨
              r.phase = .offHeader h b ∧ page = 0 ∧
                step = .programPage (h.take 6 ++ [0xFF] ++ (h.drop 7).take 24 ++ List.replicate 225 0xFF))) →
          st = some ⟨step, j.slot * 4096 + page * 256, s.acq.timeTag⟩) ∧
        (∀ sc, s.store.step = none → s.store.running = none → s.store.scan = some sc →
          st = some ⟨.readPage, sc.slot * 4096 + sc.pages.length * 256, s.acq.timeTag⟩))) ∧
    (Ready 0x3A tag [] s → exec (.slotList tag []) s = .next (answered 0x3A tag .ok
      ([if s.store.scan = none then (1 : Byte) else 0, match s.store.bus with | .owned => (0 : Byte) | .lending => 1 | .lent => 2] ++
        be 1 s.store.queue.length ++ (List.range 32).flatMap (fun k => match dirAt s k with
          | .unknown => (0 : Byte) :: List.replicate 21 0
          | .empty => 1 :: List.replicate 21 0
          | .corrupt => 3 :: List.replicate 21 0
          | .valid p q n => [2, if p then 1 else 0] ++ be 4 q.toNat ++ n)) s))) ∧
  (∀ (c : Instr) (tag : Byte) (s : State) (st : FlashStep) (age : Nat), s.pins.resetLow = false → s.store.bus = .lending →
    s.store.withheld = some tag → s.store.step = some st → s.store.autosaves = [] → age = (s.acq.timeTag - st.start).toNat →
    ((∃ page, c = .flashReadPageEnd page) ∧ st.kind = .readPage ∧ age ≤ 125000 ∨
      c = .flashProgramPageEnd ∧ (∃ data, st.kind = .programPage data) ∧ age ≤ 625000 ∨
      c = .flashEraseSectorEnd ∧ st.kind = .eraseSector ∧ age ≤ 50000000 ∨
      c = .flashStepTimeout ∧
        (match st.kind with | .readPage => 125000 | .programPage _ => 625000 | .eraseSector => 50000000) ≤ age) →
    ((c = .flashStepTimeout ∨ ∀ h b al, s.store.running ≠ some ⟨.classify .recall [h, b], al, false⟩) →
      ∃ u, exec c { s with store := { s.store with bus := .owned, withheld := none } } = .next u ∧
        exec c s = .next { u with
          store := { u.store with bus := .lent, step := none, withheld := none }
          link := { u.link with
            answers := u.link.answers ++ [⟨0xBB, tag, [0x00]⟩]
            notes := if u.store.queue ≠ [] ∨ u.store.scan ≠ none then noteEnter .store u.link.notes else u.link.notes } }) ∧
    (∀ (page : Vector Byte 256) (h b : List Byte) (al : Bool) (j : StoreJob) (rest : List StoreJob) (e : DirEntry),
      c = .flashReadPageEnd page → s.store.running = some ⟨.classify .recall [h, b], al, false⟩ →
      s.store.queue = j :: rest → e = classifySlot j.slot h (b ++ page.toList) →
      ∃ t r, exec c s = .next t ∧ t.store = { s.store with
          dir := tabSet .unknown s.store.dir j.slot e, running := none, step := none, queue := rest
          bus := .lent, withheld := none, last := some ⟨some j.slot, j.kind.record, r⟩ } ∧
        t.link.answers = s.link.answers ++ [⟨0xBB, tag, [0x00]⟩] ∧ (∃ x ∈ t.link.notes, x.src = .store) ∧
        (∀ u v, (∃ p q n, e = .valid p q n) → readImage (b ++ page.toList) = .ok (u, v) → r = .done ∧ t.setup = u) ∧
        ((∀ p q n, e ≠ .valid p q n) ∨ (∃ id, readImage (b ++ page.toList) = .error id) →
          r = (if e = .empty ∨ e = .unknown then .empty else .corrupt) ∧ t.setup = s.setup ∧ t.acq = s.acq)))

/-- R172, R175 to R178: the head job's start check. A SAVE or ERASE of a protected slot ends PROTECTED; a PROTECT of an EMPTY
or CORRUPT slot, or one that finds its protection as asked, ends without a step; every ending sets the last finished record,
enters the STORE note and, when DONE, makes the current STORE_FAULT flag false. Otherwise the job runs in the phase of its
kind, and its first step starts: a read of page 0 (RECALL, an UNKNOWN entry, PROTECT(off)), an erase (SAVE, ERASE) or the
program of the protect byte. -/
def Obligations.JobStartMakesItsCheck : Prop :=
  ∀ (s : State) (j : StoreJob) (rest : List StoreJob) (e : DirEntry), s.pins.resetLow = false → s.store.running = none →
    s.store.scan = none → s.store.bus = .owned → s.store.step = none → s.store.queue = j :: rest → e = dirAt s j.slot →
    (∀ (k : RecordKind) (r : JobResult), (∃ p q n, e = .valid p q n ∧
          ((∃ img nm, j.kind = .save img nm ∧ p = true ∧ k = .save ∧ r = .prot) ∨ j.kind = .erase ∧ p = true ∧ k = .erase ∧ r = .prot ∨
            j.kind = .protect true ∧ p = true ∧ k = .protectOn ∧ r = .done ∨
            j.kind = .protect false ∧ p = false ∧ k = .protectOff ∧ r = .done)) ∨
        (e = .empty ∧ r = .empty ∨ e = .corrupt ∧ r = .corrupt) ∧
          (j.kind = .protect true ∧ k = .protectOn ∨ j.kind = .protect false ∧ k = .protectOff) →
      exec .storeJobStart s = .next { s with
        store := { s.store with queue := rest, last := some ⟨some j.slot, k, r⟩ }
        link := { s.link with notes := noteEnter .store s.link.notes }
        mon := if r = .done then { s.mon with current := s.mon.current &&& ~~~(flagBit flagStoreFault) } else s.mon }) ∧
    (∀ (step : StepKind) (p : JobPhase), j.kind = .recall ∧ step = .readPage ∧ p = .classify .recall [] ∨
        j.kind ≠ .recall ∧ e = .unknown ∧ step = .readPage ∧ p = .classify .startCheck [] ∨
        (∃ q n, e = .valid true q n ∧ j.kind = .protect false ∧ step = .readPage ∧ p = .classify .protectOff []) ∨
        ((∃ img nm, j.kind = .save img nm) ∧ p = .saveErase ∨ j.kind = .erase ∧ p = .eraseSector) ∧ e ≠ .unknown ∧
          (∀ q n, e ≠ .valid true q n) ∧ step = .eraseSector ∨
        (∃ q n, e = .valid false q n ∧ j.kind = .protect true ∧ p = .protectOn ∧
          step = .programPage (List.replicate 6 0xFF ++ [0x00] ++ List.replicate 249 0xFF)) →
      exec .storeJobStart s = .next { s with store := { s.store with
        running := some ⟨p, false, false⟩, step := some ⟨step, j.slot * 4096, s.acq.timeTag⟩ } })

/-- R164, R165, R175, R177: the steps of a SAVE and of an ERASE on an OWNED bus, each ending in time (with no autosave
waiting for its end; O13 states those; that a step may end in time at the very tick of its limit is the model's choice, log
47). A SAVE's erase is followed by the program of page 1 with image bytes 0..255, of page 2 with image bytes 256..511, and of
page 0 with its header under the sequence of that moment; then its entry is VALID and unprotected with that sequence and
name, and the job ends DONE. An ERASE's one step makes the entry EMPTY and ends the job DONE. R175: the sequence of a save is
one more, modulo 2^32, than the highest sequence among the VALID entries of the directory, the 32 slots' entries as they
stand, and 1 when no entry is VALID. R178: the steps of a PROTECT job on an OWNED bus, each ending in time (no autosave
waiting for its end, O13; at the very tick of the limit too, log 47). PROTECT(on) ends DONE with its VALID entry protected
after its one program step. PROTECT(off), its slot read again and VALID, erases the sector, programs page 1 and then page 2
with the body it read and page 0 with the header it read but for protect 0xFF, and ends DONE with the entry unprotected; a
slot that it does not find VALID ends it EMPTY or CORRUPT with no erase, its entry set. -/
def Obligations.SaveAndEraseRunTheirSteps : Prop :=
  (∀ (s : State) (j : StoreJob) (rest : List StoreJob) (image name : List Byte) (a : Bool) (st : FlashStep) (t0 : Tick),
    s.pins.resetLow = false → s.store.scan = none → s.store.bus = .owned → s.store.queue = j :: rest →
    s.store.step = some st → st.start = t0 → s.store.autosaves = [] →
    (st.kind = .eraseSector → (s.acq.timeTag - t0).toNat ≤ 50000000 →
      (j.kind = .save image name → s.store.running = some ⟨.saveErase, a, false⟩ →
        exec .flashEraseSectorEnd s = .next { s with store := { s.store with
          running := some ⟨.saveBody1, true, false⟩
          step := some ⟨.programPage (image.take 256), j.slot * 4096 + 256, s.acq.timeTag⟩ } }) ∧
      (j.kind = .erase → s.store.running = some ⟨.eraseSector, a, false⟩ →
        exec .flashEraseSectorEnd s = .next { s with
          store := { s.store with
            running := none, step := none, queue := rest, last := some ⟨some j.slot, .erase, .done⟩
            dir := tabSet .unknown s.store.dir j.slot .empty }
          link := { s.link with notes := noteEnter .store s.link.notes }
          mon := { s.mon with current := s.mon.current &&& ~~~(flagBit flagStoreFault) } })) ∧
    (∀ data, st.kind = .programPage data → (s.acq.timeTag - t0).toNat ≤ 625000 → j.kind = .save image name →
      (s.store.running = some ⟨.saveBody1, a, false⟩ →
        exec .flashProgramPageEnd s = .next { s with store := { s.store with
          running := some ⟨.saveBody2, true, false⟩
          step := some ⟨.programPage ((image.drop 256).take 256), j.slot * 4096 + 512, s.acq.timeTag⟩ } }) ∧
      (∀ hd, s.store.running = some ⟨.saveBody2, a, false⟩ →
        hd = [0x4D, 0x47, 0x53, 0x55, 0x01] ++ be 1 j.slot ++ [0xFF] ++ be 4 (nextSequence s).toNat ++ name ++ [0x02, 0x00] →
        exec .flashProgramPageEnd s = .next { s with store := { s.store with
          running := some ⟨.saveHeader, true, false⟩
          step := some ⟨.programPage (hd ++ be 2 ((sumBytes (hd.take 6) + sumBytes (slice hd 7 22) + sumBytes image) % 65536) ++
            List.replicate 225 0xFF), j.slot * 4096, s.acq.timeTag⟩ } }) ∧
      (∀ (q : Count) tail, s.store.running = some ⟨.saveHeader, a, false⟩ → name.length = 16 →
        data = [0x4D, 0x47, 0x53, 0x55, 0x01] ++ be 1 j.slot ++ [0xFF] ++ be 4 q.toNat ++ name ++ tail →
        exec .flashProgramPageEnd s = .next { s with
          store := { s.store with
            running := none, step := none, queue := rest, last := some ⟨some j.slot, .save, .done⟩
            dir := tabSet .unknown s.store.dir j.slot (.valid false q name) }
          link := { s.link with notes := noteEnter .store s.link.notes }
          mon := { s.mon with current := s.mon.current &&& ~~~(flagBit flagStoreFault) } }))) ∧
  (∀ s : State,
    ((∀ k p q n, k < 32 → dirAt s k ≠ .valid p q n) → nextSequence s = 1) ∧
    (∀ k p q n, k < 32 → dirAt s k = .valid p q n →
      (∀ j p' q' n', j < 32 → dirAt s j = .valid p' q' n' → q'.toNat ≤ q.toNat) → nextSequence s = q + 1)) ∧
  (∀ (s : State) (j : StoreJob) (rest : List StoreJob) (on a : Bool) (st : FlashStep) (h b : List Byte)
    (ended : RecordKind → JobResult → DirEntry → State), s.pins.resetLow = false → s.store.scan = none →
    s.store.bus = .owned → s.store.queue = j :: rest → s.store.step = some st → s.store.autosaves = [] →
    j.kind = .protect on →
    ended = (fun k r e => { s with
      store := { s.store with
        running := none, step := none, queue := rest, last := some ⟨some j.slot, k, r⟩
        dir := tabSet .unknown s.store.dir j.slot e }
      link := { s.link with notes := noteEnter .store s.link.notes }
      mon := if r = .done then { s.mon with current := s.mon.current &&& ~~~(flagBit flagStoreFault) } else s.mon }) →
    (∀ data, on = true → st.kind = .programPage data → (s.acq.timeTag - st.start).toNat ≤ 625000 →
      s.store.running = some ⟨.protectOn, a, false⟩ → ∀ p q n, dirAt s j.slot = .valid p q n →
        exec .flashProgramPageEnd s = .next (ended .protectOn .done (.valid true q n))) ∧
    (∀ (page : Vector Byte 256) (e : DirEntry), on = false → st.kind = .readPage →
      (s.acq.timeTag - st.start).toNat ≤ 125000 → s.store.running = some ⟨.classify .protectOff [h, b], a, false⟩ →
      e = classifySlot j.slot h (b ++ page.toList) →
      (∀ p q n, e = .valid p q n → exec (.flashReadPageEnd page) s = .next { s with store := { s.store with
        running := some ⟨.offErase h (b ++ page.toList), a, false⟩
        step := some ⟨.eraseSector, j.slot * 4096, s.acq.timeTag⟩
        dir := tabSet .unknown s.store.dir j.slot e } }) ∧
      (e = .empty → exec (.flashReadPageEnd page) s = .next (ended .protectOff .empty e)) ∧
      (e = .corrupt → exec (.flashReadPageEnd page) s = .next (ended .protectOff .corrupt e))) ∧
    (on = false → st.kind = .eraseSector → (s.acq.timeTag - st.start).toNat ≤ 50000000 →
      s.store.running = some ⟨.offErase h b, a, false⟩ →
      exec .flashEraseSectorEnd s = .next { s with store := { s.store with
        running := some ⟨.offBody1 h b, true, false⟩
        step := some ⟨.programPage (b.take 256), j.slot * 4096 + 256, s.acq.timeTag⟩ } }) ∧
    (∀ data, on = false → st.kind = .programPage data → (s.acq.timeTag - st.start).toNat ≤ 625000 →
      (s.store.running = some ⟨.offBody1 h b, a, false⟩ →
        exec .flashProgramPageEnd s = .next { s with store := { s.store with
          running := some ⟨.offBody2 h b, true, false⟩
          step := some ⟨.programPage ((b.drop 256).take 256), j.slot * 4096 + 512, s.acq.timeTag⟩ } }) ∧
      (s.store.running = some ⟨.offBody2 h b, a, false⟩ →
        exec .flashProgramPageEnd s = .next { s with store := { s.store with
          running := some ⟨.offHeader h b, true, false⟩
          step := some ⟨.programPage (h.take 6 ++ [0xFF] ++ (h.drop 7).take 24 ++ List.replicate 225 0xFF),
            j.slot * 4096, s.acq.timeTag⟩ } }) ∧
      (s.store.running = some ⟨.offHeader h b, a, false⟩ →
        exec .flashProgramPageEnd s = .next (ended .protectOff .done
          (.valid false (BitVec.ofNat 32 (natOf ((h.drop 7).take 4))) ((h.drop 11).take 16))))))

/-- R166, R169, R170, R176: a read that ends in time (no autosave waiting for its end, O13; at the very tick of the limit
too, log 47). The first and second pages of a slot are kept and the next is read. The third classifies the slot: a scan goes
on to the next slot, or ends with the STORE note after slot 31 and queues RECALL(0) when slot 0 is VALID; a RECALL of a slot
that is EMPTY or CORRUPT, or of an image with a code outside its set, ends with that result and leaves the live setup; one of
a VALID slot applies its image as one change and ends DONE. R169, R175, R177, R178, R179, R186: the reads of a job that end
in time on an OWNED bus (no autosave waiting for their end, O13; that a step may end in time or time out at the very tick of
its limit is the model's choice, log 47). The first and second pages are kept and the next is read. The third of a start
check sets the entry and the check acts on it: the job ends as the check says, or goes on with its first step. The third of a
closing refresh sets the entry and the job ends FAILED or ABANDONED. A job that a RESTART has abandoned ends when its step
ends: after a read, ABANDONED at once with nothing altered (the entry set when the read was the third), else by a closing
refresh; after an erase or a program step, by a closing refresh. (That the third read of a classification abandoned by a
RESTART, a RECALL's included, sets the entry, applies nothing and ends the job ABANDONED is the model's deduction, log 22.)
R165, R166, R219: the classification of slot k from its header page and its body: EMPTY without the marker; CORRUPT when the
format, the slot number or the body length is wrong, or the check (the sum, modulo 65,536, of the header bytes before the
check but for the protect byte, and of the body) differs from the stored one; else VALID, protected unless the protect byte
is 0xFF, with the stored sequence and name. -/
def Obligations.ReadsClassifyTheSlot : Prop :=
  (∀ (s : State) (page : Vector Byte 256) (a t0 : Nat) (h b : List Byte) (tick : Tick), s.pins.resetLow = false →
    s.store.bus = .owned → s.store.step = some ⟨.readPage, a, tick⟩ → s.store.autosaves = [] →
    t0 = (s.acq.timeTag - tick).toNat → t0 ≤ 125000 →
    (∀ sc : Scan, s.store.running = none → s.store.scan = some sc →
      (sc.pages.length < 2 → exec (.flashReadPageEnd page) s = .next { s with store := { s.store with
        scan := some { sc with pages := sc.pages ++ [page.toList] }
        step := some ⟨.readPage, sc.slot * 4096 + (sc.pages.length + 1) * 256, s.acq.timeTag⟩ } }) ∧
      (sc.pages = [h, b] → sc.slot < 31 → exec (.flashReadPageEnd page) s = .next { s with store := { s.store with
        dir := tabSet .unknown s.store.dir sc.slot (classifySlot sc.slot h (b ++ page.toList))
        scan := some ⟨sc.slot + 1, [], sc.failed⟩
        step := some ⟨.readPage, (sc.slot + 1) * 4096, s.acq.timeTag⟩ } }) ∧
      (sc.pages = [h, b] → sc.slot = 31 → exec (.flashReadPageEnd page) s = .next { s with
        store := { s.store with
          dir := tabSet .unknown s.store.dir 31 (classifySlot 31 h (b ++ page.toList))
          scan := none, step := none
          last := some ⟨none, .scan, if sc.failed then .failed else .done⟩
          queue := match tabGet .unknown (tabSet .unknown s.store.dir 31 (classifySlot 31 h (b ++ page.toList))) 0 with
            | .valid _ _ _ => ⟨.recall, 0⟩ :: s.store.queue
            | _ => s.store.queue }
        link := { s.link with notes := noteEnter .store s.link.notes } })) ∧
    (∀ (k : Nat) (rest : List StoreJob) (al : Bool) (e : DirEntry), s.store.scan = none → s.store.queue = ⟨.recall, k⟩ :: rest →
      s.store.running = some ⟨.classify .recall [h, b], al, false⟩ → e = classifySlot k h (b ++ page.toList) →
      (∀ r : JobResult, e = .empty ∧ r = .empty ∨ e = .corrupt ∧ r = .corrupt ∨
          (∃ p q n, e = .valid p q n) ∧ (∃ id, readImage (b ++ page.toList) = .error id) ∧ r = .corrupt →
        exec (.flashReadPageEnd page) s = .next { s with
          store := { s.store with
            dir := tabSet .unknown s.store.dir k e
            running := none, step := none, queue := rest, last := some ⟨some k, .recall, r⟩ }
          link := { s.link with notes := noteEnter .store s.link.notes } }) ∧
      (∀ u c, (∃ p q n, e = .valid p q n) → readImage (b ++ page.toList) = .ok (u, c) →
        ∃ t, exec (.flashReadPageEnd page) s = .next t ∧ t.setup = u ∧
          t.gen = (if u = s.setup then s.gen else s.gen + 1) ∧
          t.store = { s.store with
            dir := tabSet .unknown s.store.dir k e
            running := none, step := none, queue := rest, last := some ⟨some k, .recall, .done⟩ } ∧
          (∃ x ∈ t.link.notes, x.src = .store) ∧ t.mon.current.getLsbD flagStoreFault = false ∧ t.panel = s.panel ∧
          t.power = s.power ∧ t.link.inbound = s.link.inbound ∧ t.link.answers = s.link.answers))) ∧
  (∀ (s : State) (j : StoreJob) (rest : List StoreJob) (st : FlashStep) (al ab : Bool) (age : Nat),
    s.pins.resetLow = false → s.store.bus = .owned → s.store.scan = none → s.store.queue = j :: rest →
    s.store.step = some st → s.store.autosaves = [] → age = (s.acq.timeTag - st.start).toNat →
    (∀ (page : Vector Byte 256) (why : ClassifyFor) (pages : List (List Byte)), st.kind = .readPage → age ≤ 125000 →
      s.store.running = some ⟨.classify why pages, al, ab⟩ →
      (pages.length < 2 → ab = false ∨ (∃ r, why = .refresh r) →
        exec (.flashReadPageEnd page) s = .next { s with store := { s.store with
          running := some ⟨.classify why (pages ++ [page.toList]), al, ab⟩
          step := some ⟨.readPage, j.slot * 4096 + (pages.length + 1) * 256, s.acq.timeTag⟩ } }) ∧
      (pages.length < 2 → ab = true → (∀ r, why ≠ .refresh r) → exec (.flashReadPageEnd page) s = .next
        (if al then { s with store := { s.store with
            running := some ⟨.classify (.refresh .abandoned) [], al, ab⟩
            step := some ⟨.readPage, j.slot * 4096, s.acq.timeTag⟩ } }
        else { s with
          store := { s.store with
            running := none, step := none, queue := rest, last := some ⟨some j.slot, j.kind.record, .abandoned⟩ }
          link := { s.link with notes := noteEnter .store s.link.notes } })) ∧
      (∀ (h b : List Byte) (e : DirEntry) (d : List (Nat × DirEntry)), pages = [h, b] →
        e = classifySlot j.slot h (b ++ page.toList) → d = tabSet .unknown s.store.dir j.slot e →
        (∀ r, why = .refresh r → r = .failed ∨ r = .abandoned → exec (.flashReadPageEnd page) s = .next { s with
          store := { s.store with
            dir := d, running := none, step := none, queue := rest, last := some ⟨some j.slot, j.kind.record, r⟩ }
          link := { s.link with notes := noteEnter .store s.link.notes } }) ∧
        (ab = true → (∀ r, why ≠ .refresh r) → exec (.flashReadPageEnd page) s = .next
          (if al then { s with store := { s.store with
              dir := d, running := some ⟨.classify (.refresh .abandoned) [], al, ab⟩
              step := some ⟨.readPage, j.slot * 4096, s.acq.timeTag⟩ } }
          else { s with
            store := { s.store with
              dir := d, running := none, step := none, queue := rest
              last := some ⟨some j.slot, j.kind.record, .abandoned⟩ }
            link := { s.link with notes := noteEnter .store s.link.notes } })) ∧
        (why = .startCheck → ab = false →
          (∀ (k : RecordKind) (r : JobResult), (∃ p q n, e = .valid p q n ∧
                ((∃ img nm, j.kind = .save img nm ∧ p = true ∧ k = .save ∧ r = .prot) ∨
                  j.kind = .erase ∧ p = true ∧ k = .erase ∧ r = .prot ∨
                  j.kind = .protect true ∧ p = true ∧ k = .protectOn ∧ r = .done ∨
                  j.kind = .protect false ∧ p = false ∧ k = .protectOff ∧ r = .done)) ∨
              (e = .empty ∧ r = .empty ∨ e = .corrupt ∧ r = .corrupt) ∧
                (j.kind = .protect true ∧ k = .protectOn ∨ j.kind = .protect false ∧ k = .protectOff) →
            exec (.flashReadPageEnd page) s = .next { s with
              store := { s.store with
                dir := d, running := none, step := none, queue := rest, last := some ⟨some j.slot, k, r⟩ }
              link := { s.link with notes := noteEnter .store s.link.notes }
              mon := if r = .done then { s.mon with current := s.mon.current &&& ~~~(flagBit flagStoreFault) } else s.mon }) ∧
          (∀ (step : StepKind) (p : JobPhase),
              (∃ q n, e = .valid true q n ∧ j.kind = .protect false ∧ step = .readPage ∧ p = .classify .protectOff []) ∨
              ((∃ img nm, j.kind = .save img nm) ∧ p = .saveErase ∨ j.kind = .erase ∧ p = .eraseSector) ∧
                (∀ q n, e ≠ .valid true q n) ∧ step = .eraseSector ∨
              (∃ q n, e = .valid false q n ∧ j.kind = .protect true ∧ p = .protectOn ∧
                step = .programPage (List.replicate 6 0xFF ++ [0x00] ++ List.replicate 249 0xFF)) →
            exec (.flashReadPageEnd page) s = .next { s with store := { s.store with
              dir := d, running := some ⟨p, al, ab⟩, step := some ⟨step, j.slot * 4096, s.acq.timeTag⟩ } })))) ∧
    (∀ (p : JobPhase) (c : Instr), ab = true → s.store.running = some ⟨p, al, ab⟩ →
      (st.kind = .eraseSector ∧ age ≤ 50000000 ∧ c = .flashEraseSectorEnd ∨
        (∃ data, st.kind = .programPage data) ∧ age ≤ 625000 ∧ c = .flashProgramPageEnd) →
      exec c s = .next { s with store := { s.store with
        running := some ⟨.classify (.refresh .abandoned) [], true, ab⟩
        step := some ⟨.readPage, j.slot * 4096, s.acq.timeTag⟩ } })) ∧
  (∀ (k : Nat) (h b : List Byte) (sum : Nat),
    sum = (((h.take 6 ++ (h.drop 7).take 22 ++ b).map (fun x => x.toNat)).sum) % 65536 →
    (h.take 4 ≠ [0x4D, 0x47, 0x53, 0x55] → classifySlot k h b = .empty) ∧
    (h.take 4 = [0x4D, 0x47, 0x53, 0x55] →
      (byteAt h 4 ≠ 0x01 ∨ (byteAt h 5).toNat ≠ k ∨ natAt h 27 2 ≠ 512 ∨ sum ≠ natAt h 29 2 →
        classifySlot k h b = .corrupt) ∧
      (byteAt h 4 = 0x01 → (byteAt h 5).toNat = k → natAt h 27 2 = 512 → sum = natAt h 29 2 →
        classifySlot k h b = .valid (decide (byteAt h 6 ≠ 0xFF)) (BitVec.ofNat 32 (natAt h 7 4)) ((h.drop 11).take 16))))

/-- R167, R170, R179: a step that reaches its limit (1 ms, 5 ms, 400 ms) is an occurrence of STORE_FAULT (at the very tick of
the limit too, where a step may as well end in time, log 47; here no autosave waits for the step's end, O13). A scan leaves
its slot UNKNOWN and goes on to the next, and after slot 31 (R171) it ends FAILED; a RECALL ends FAILED with its entry
UNKNOWN; a classification of another job makes the entry UNKNOWN and starts the closing refresh, and so does a writing step,
the steps of PROTECT(off) among them; a refresh that times out ends its job FAILED with its entry UNKNOWN (of an abandoned
job too, which is the model's deduction, log 23). -/
def Obligations.StepTimeoutFailsTheJob : Prop :=
  ∀ (s : State) (st : FlashStep), s.pins.resetLow = false → s.store.bus = .owned → s.store.step = some st → s.store.autosaves = [] →
    (match st.kind with | .readPage => 125000 | .programPage _ => 625000 | .eraseSector => 50000000) ≤
      (s.acq.timeTag - st.start).toNat →
    (∀ sc : Scan, s.store.running = none → s.store.scan = some sc → sc.slot < 31 →
      exec .flashStepTimeout s = .next (monOccur (flagBit flagStoreFault) { s with store := { s.store with
        dir := tabSet .unknown s.store.dir sc.slot .unknown, scan := some ⟨sc.slot + 1, [], true⟩
        step := some ⟨.readPage, (sc.slot + 1) * 4096, s.acq.timeTag⟩ } })) ∧
    (∀ (j : StoreJob) (rest : List StoreJob) (pages : List (List Byte)) (al ab : Bool) (why : ClassifyFor),
      s.store.scan = none → s.store.queue = j :: rest → s.store.running = some ⟨.classify why pages, al, ab⟩ →
      (j.kind = .recall ∧ why = .recall ∨ ∃ r, why = .refresh r) →
      ∃ t, exec .flashStepTimeout s = .next t ∧
        t.store = { s.store with
          dir := tabSet .unknown s.store.dir j.slot .unknown, running := none, step := none, queue := rest
          last := some ⟨some j.slot, j.kind.record, .failed⟩ } ∧
        (∃ x ∈ t.link.notes, x.src = .store) ∧ t.mon.latched = s.mon.latched ||| flagBit flagStoreFault ∧
        t.mon.current = s.mon.current ||| flagBit flagStoreFault ∧ t.mon.mask = s.mon.mask ∧ t.setup = s.setup ∧
        t.gen = s.gen ∧ t.acq = s.acq ∧ t.raster = s.raster ∧ t.compose = s.compose ∧ t.panel = s.panel ∧
        t.power = s.power ∧ t.link.inbound = s.link.inbound ∧ t.link.answers = s.link.answers) ∧
    (∀ (j : StoreJob) (rest : List StoreJob) (p : JobPhase) (al ab : Bool), s.store.scan = none → s.store.queue = j :: rest →
      s.store.running = some ⟨p, al, ab⟩ → (∀ why pages, p ≠ .classify why pages) →
      exec .flashStepTimeout s = .next (monOccur (flagBit flagStoreFault) { s with store := { s.store with
        running := some ⟨.classify (.refresh .failed) [], al, ab⟩
        step := some ⟨.readPage, j.slot * 4096, s.acq.timeTag⟩ } })) ∧
    (∀ (j : StoreJob) (rest : List StoreJob) (pages : List (List Byte)) (al ab : Bool) (why : ClassifyFor),
      s.store.scan = none → s.store.queue = j :: rest → s.store.running = some ⟨.classify why pages, al, ab⟩ →
      why = .startCheck ∨ why = .protectOff →
      exec .flashStepTimeout s = .next (monOccur (flagBit flagStoreFault) { s with store := { s.store with
        dir := tabSet .unknown s.store.dir j.slot .unknown, running := some ⟨.classify (.refresh .failed) [], al, ab⟩
        step := some ⟨.readPage, j.slot * 4096, s.acq.timeTag⟩ } })) ∧
    (∀ (sc : Scan) (d : List (Nat × DirEntry)), s.store.running = none → s.store.scan = some sc → sc.slot = 31 →
      d = tabSet .unknown s.store.dir 31 .unknown →
      ∃ t, exec .flashStepTimeout s = .next t ∧
        t.store = { s.store with
          dir := d, scan := none, step := none, last := some ⟨none, .scan, .failed⟩
          queue := match tabGet .unknown d 0 with | .valid _ _ _ => ⟨.recall, 0⟩ :: s.store.queue | _ => s.store.queue } ∧
        (∃ x ∈ t.link.notes, x.src = .store) ∧ t.mon.latched = s.mon.latched ||| flagBit flagStoreFault ∧
        t.mon.current = s.mon.current ||| flagBit flagStoreFault ∧ t.mon.mask = s.mon.mask ∧ t.setup = s.setup ∧
        t.gen = s.gen ∧ t.acq = s.acq ∧ t.raster = s.raster ∧ t.compose = s.compose ∧ t.panel = s.panel ∧
        t.power = s.power ∧ t.link.inbound = s.link.inbound ∧ t.link.answers = s.link.answers)

/-! ## What every step keeps -/

/-- R8: every field of the live setup stays within its stated range or set: from any state, reached or not, a step to a next
state keeps it (the pages a recall has read, 256 bytes each by R167, are kept with it). -/
def Obligations.EveryStepKeepsTheSetupInRange : Prop :=
  ∀ s t : State, SetupInRange s.setup ∧ PagesOk s → step s = .next t → SetupInRange t.setup ∧ PagesOk t

/-- R34: the acquisition memory stays in its canonical form: rising addresses, each inside the 67,108,864 bytes. -/
def Obligations.EveryStepKeepsTheMemoryCanonical : Prop :=
  ∀ s t : State, MemoryOk s → step s = .next t → MemoryOk t

/-- R201, R203, R205: the inbound queue never holds more than 4 orders, answers held and places kept never number more than
8, and the note list never holds two entries for one source. -/
def Obligations.EveryStepKeepsTheQueuesInBounds : Prop :=
  ∀ s t : State, QueuesOk s ∧ NotesOk s → step s = .next t → QueuesOk t ∧ NotesOk t

/-- R46, R65: ACQ has a run kind exactly while it is not STOPPED, it is STOPPED in STANDBY, and the list of segment records
keeps its one form. -/
def Obligations.EveryStepKeepsTheRunConsistent : Prop :=
  ∀ s t : State, RunOk s ∧ StandbyStopped s ∧ SegTableOk s → step s = .next t → RunOk t ∧ StandbyStopped t ∧ SegTableOk t

/-- R93, R101, R112: the planes keep their one form with no pixel outside 500 × 400, and the columns RASTER counts stay in
0..499. -/
def Obligations.EveryStepKeepsThePlanesInBounds : Prop :=
  ∀ s t : State, RasterOk s → step s = .next t → RasterOk t

/-- R124, R131, R135: the text cursor and the mark stay cell positions, the palette keeps 16 entries, the annotation its rows
of 100 cells, and the text plane its one form. -/
def Obligations.EveryStepKeepsTheScreenInBounds : Prop :=
  ∀ s t : State, ScreenOk s → step s = .next t → ScreenOk t

/-- R144, R146: the key event FIFO never holds more than 16 events and the key binding table never more than 16 entries, and
PANEL's tables keep their one form. -/
def Obligations.EveryStepKeepsThePanelInBounds : Prop :=
  ∀ s t : State, PanelOk s → step s = .next t → PanelOk t

/-- The properties that every step keeps hold in the state right after reset. -/
def Obligations.ResetMeetsEveryInvariant : Prop :=
  SetupInRange State.reset.setup ∧ PagesOk State.reset ∧ MemoryOk State.reset ∧ QueuesOk State.reset ∧ NotesOk State.reset ∧
  RunOk State.reset ∧ StandbyStopped State.reset ∧ SegTableOk State.reset ∧ RasterOk State.reset ∧ ScreenOk State.reset ∧
  PanelOk State.reset
end

