-- ==== Sys2Proof/Laws/State.lean ====
section
/-! SUPPORT. One lemma for each shared operation of LINK, MON, COMPOSE and RASTER: what it leaves as it was. -/

namespace Sys2Proof.Machine

@[simp] theorem enterNote_frame (src : NoteSource) (s : State) :
    (enterNote src s).setup = s.setup ∧ (enterNote src s).gen = s.gen ∧ (enterNote src s).acq = s.acq ∧
    (enterNote src s).mon = s.mon ∧ (enterNote src s).raster = s.raster ∧ (enterNote src s).compose = s.compose ∧
    (enterNote src s).panel = s.panel ∧ (enterNote src s).store = s.store ∧ (enterNote src s).power = s.power ∧
    (enterNote src s).link.inbound = s.link.inbound ∧ (enterNote src s).link.answers = s.link.answers ∧
    (enterNote src s).link.inPeriod = s.link.inPeriod ∧ (enterNote src s).link.clocked = s.link.clocked ∧
    (enterNote src s).link.gathered = s.link.gathered ∧ (enterNote src s).link.ignoring = s.link.ignoring ∧
    (enterNote src s).link.sending = s.link.sending ∧ (enterNote src s).link.partly = s.link.partly ∧
    (enterNote src s).pins = s.pins ∧ (enterNote src s).pending = s.pending := by
  simp only [enterNote]
  (repeat' split) <;> simp

@[simp] theorem pushAnswer_frame (f : Frame) (s : State) :
    (pushAnswer f s).setup = s.setup ∧ (pushAnswer f s).gen = s.gen ∧ (pushAnswer f s).acq = s.acq ∧
    (pushAnswer f s).mon = s.mon ∧ (pushAnswer f s).raster = s.raster ∧ (pushAnswer f s).compose = s.compose ∧
    (pushAnswer f s).panel = s.panel ∧ (pushAnswer f s).store = s.store ∧ (pushAnswer f s).power = s.power ∧
    (pushAnswer f s).link.inbound = s.link.inbound ∧ (pushAnswer f s).link.notes = s.link.notes ∧
    (pushAnswer f s).link.inPeriod = s.link.inPeriod ∧ (pushAnswer f s).link.clocked = s.link.clocked ∧
    (pushAnswer f s).link.gathered = s.link.gathered ∧ (pushAnswer f s).link.ignoring = s.link.ignoring ∧
    (pushAnswer f s).link.sending = s.link.sending ∧ (pushAnswer f s).link.partly = s.link.partly ∧
    (pushAnswer f s).pins = s.pins ∧ (pushAnswer f s).pending = s.pending := by
  simp only [pushAnswer]
  (repeat' split) <;> simp

@[simp] theorem answer_frame (kind tag : Byte) (st : Status) (items : List Byte) (s : State) :
    (answer kind tag st items s).setup = s.setup ∧ (answer kind tag st items s).gen = s.gen ∧
    (answer kind tag st items s).acq = s.acq ∧ (answer kind tag st items s).mon = s.mon ∧
    (answer kind tag st items s).raster = s.raster ∧ (answer kind tag st items s).compose = s.compose ∧
    (answer kind tag st items s).panel = s.panel ∧ (answer kind tag st items s).store = s.store ∧
    (answer kind tag st items s).power = s.power ∧ (answer kind tag st items s).link.inbound = s.link.inbound ∧
    (answer kind tag st items s).link.notes = s.link.notes ∧ (answer kind tag st items s).link.inPeriod = s.link.inPeriod ∧
    (answer kind tag st items s).link.clocked = s.link.clocked ∧
    (answer kind tag st items s).link.gathered = s.link.gathered ∧
    (answer kind tag st items s).link.ignoring = s.link.ignoring ∧
    (answer kind tag st items s).link.sending = s.link.sending ∧ (answer kind tag st items s).link.partly = s.link.partly ∧
    (answer kind tag st items s).pins = s.pins ∧ (answer kind tag st items s).pending = s.pending := by
  simp only [answer]
  (repeat' split) <;> simp

@[simp] theorem monOccur_frame (fs : BitVec 76) (s : State) :
    (monOccur fs s).setup = s.setup ∧ (monOccur fs s).gen = s.gen ∧ (monOccur fs s).acq = s.acq ∧
    (monOccur fs s).raster = s.raster ∧ (monOccur fs s).compose = s.compose ∧ (monOccur fs s).panel = s.panel ∧
    (monOccur fs s).store = s.store ∧ (monOccur fs s).power = s.power ∧ (monOccur fs s).link.inbound = s.link.inbound ∧
    (monOccur fs s).link.answers = s.link.answers ∧ (monOccur fs s).link.inPeriod = s.link.inPeriod ∧
    (monOccur fs s).link.clocked = s.link.clocked ∧ (monOccur fs s).link.gathered = s.link.gathered ∧
    (monOccur fs s).link.ignoring = s.link.ignoring ∧ (monOccur fs s).link.sending = s.link.sending ∧
    (monOccur fs s).link.partly = s.link.partly ∧ (monOccur fs s).pins = s.pins ∧ (monOccur fs s).pending = s.pending := by
  simp only [monOccur]
  (repeat' split) <;> simp

@[simp] theorem monEnd_frame (fs : BitVec 76) (s : State) :
    (monEnd fs s).setup = s.setup ∧ (monEnd fs s).gen = s.gen ∧ (monEnd fs s).acq = s.acq ∧ (monEnd fs s).raster = s.raster ∧
    (monEnd fs s).compose = s.compose ∧ (monEnd fs s).panel = s.panel ∧ (monEnd fs s).store = s.store ∧
    (monEnd fs s).power = s.power ∧ (monEnd fs s).link = s.link ∧ (monEnd fs s).pins = s.pins ∧
    (monEnd fs s).pending = s.pending := by
  simp only [monEnd]
  (repeat' split) <;> simp

@[simp] theorem laneFollow_frame (n : Chan) (s : State) :
    (laneFollow n s).setup = s.setup ∧ (laneFollow n s).gen = s.gen ∧ (laneFollow n s).acq = s.acq ∧
    (laneFollow n s).raster = s.raster ∧ (laneFollow n s).compose = s.compose ∧ (laneFollow n s).panel = s.panel ∧
    (laneFollow n s).store = s.store ∧ (laneFollow n s).power = s.power ∧ (laneFollow n s).link.inbound = s.link.inbound ∧
    (laneFollow n s).link.answers = s.link.answers ∧ (laneFollow n s).link.inPeriod = s.link.inPeriod ∧
    (laneFollow n s).link.clocked = s.link.clocked ∧ (laneFollow n s).link.gathered = s.link.gathered ∧
    (laneFollow n s).link.ignoring = s.link.ignoring ∧ (laneFollow n s).link.sending = s.link.sending ∧
    (laneFollow n s).link.partly = s.link.partly ∧ (laneFollow n s).pins = s.pins ∧ (laneFollow n s).pending = s.pending := by
  simp only [laneFollow]
  (repeat' split) <;> simp

@[simp] theorem laneFollowAll_frame (s : State) :
    (laneFollowAll s).setup = s.setup ∧ (laneFollowAll s).gen = s.gen ∧ (laneFollowAll s).acq = s.acq ∧
    (laneFollowAll s).raster = s.raster ∧ (laneFollowAll s).compose = s.compose ∧ (laneFollowAll s).panel = s.panel ∧
    (laneFollowAll s).store = s.store ∧ (laneFollowAll s).power = s.power ∧
    (laneFollowAll s).link.inbound = s.link.inbound ∧ (laneFollowAll s).link.answers = s.link.answers ∧
    (laneFollowAll s).link.inPeriod = s.link.inPeriod ∧ (laneFollowAll s).link.clocked = s.link.clocked ∧
    (laneFollowAll s).link.gathered = s.link.gathered ∧ (laneFollowAll s).link.ignoring = s.link.ignoring ∧
    (laneFollowAll s).link.sending = s.link.sending ∧ (laneFollowAll s).link.partly = s.link.partly ∧
    (laneFollowAll s).pins = s.pins ∧ (laneFollowAll s).pending = s.pending := by
  simp only [laneFollowAll]
  (repeat' split) <;> simp

@[simp] theorem laneOccurAll_frame (s : State) :
    (laneOccurAll s).setup = s.setup ∧ (laneOccurAll s).gen = s.gen ∧ (laneOccurAll s).acq = s.acq ∧
    (laneOccurAll s).raster = s.raster ∧ (laneOccurAll s).compose = s.compose ∧ (laneOccurAll s).panel = s.panel ∧
    (laneOccurAll s).store = s.store ∧ (laneOccurAll s).power = s.power ∧ (laneOccurAll s).link.inbound = s.link.inbound ∧
    (laneOccurAll s).link.answers = s.link.answers ∧ (laneOccurAll s).link.inPeriod = s.link.inPeriod ∧
    (laneOccurAll s).link.clocked = s.link.clocked ∧ (laneOccurAll s).link.gathered = s.link.gathered ∧
    (laneOccurAll s).link.ignoring = s.link.ignoring ∧ (laneOccurAll s).link.sending = s.link.sending ∧
    (laneOccurAll s).link.partly = s.link.partly ∧ (laneOccurAll s).pins = s.pins ∧ (laneOccurAll s).pending = s.pending := by
  simp only [laneOccurAll]
  (repeat' split) <;> simp

@[simp] theorem monCaptureEnd_frame (r : BitVec 76) (s : State) :
    (monCaptureEnd r s).setup = s.setup ∧ (monCaptureEnd r s).gen = s.gen ∧ (monCaptureEnd r s).acq = s.acq ∧
    (monCaptureEnd r s).raster = s.raster ∧ (monCaptureEnd r s).compose = s.compose ∧ (monCaptureEnd r s).panel = s.panel ∧
    (monCaptureEnd r s).store = s.store ∧ (monCaptureEnd r s).power = s.power ∧
    (monCaptureEnd r s).link.inbound = s.link.inbound ∧ (monCaptureEnd r s).link.answers = s.link.answers ∧
    (monCaptureEnd r s).link.inPeriod = s.link.inPeriod ∧ (monCaptureEnd r s).link.clocked = s.link.clocked ∧
    (monCaptureEnd r s).link.gathered = s.link.gathered ∧ (monCaptureEnd r s).link.ignoring = s.link.ignoring ∧
    (monCaptureEnd r s).link.sending = s.link.sending ∧ (monCaptureEnd r s).link.partly = s.link.partly ∧
    (monCaptureEnd r s).pins = s.pins ∧ (monCaptureEnd r s).pending = s.pending := by
  simp only [monCaptureEnd]
  (repeat' split) <;> simp

@[simp] theorem popInbound_frame (s : State) :
    (popInbound s).setup = s.setup ∧ (popInbound s).gen = s.gen ∧ (popInbound s).acq = s.acq ∧ (popInbound s).mon = s.mon ∧
    (popInbound s).raster = s.raster ∧ (popInbound s).compose = s.compose ∧ (popInbound s).panel = s.panel ∧
    (popInbound s).store = s.store ∧ (popInbound s).power = s.power ∧ (popInbound s).link.answers = s.link.answers ∧
    (popInbound s).link.notes = s.link.notes ∧ (popInbound s).link.inPeriod = s.link.inPeriod ∧
    (popInbound s).link.clocked = s.link.clocked ∧ (popInbound s).link.gathered = s.link.gathered ∧
    (popInbound s).link.ignoring = s.link.ignoring ∧ (popInbound s).link.sending = s.link.sending ∧
    (popInbound s).link.partly = s.link.partly ∧ (popInbound s).pins = s.pins ∧ (popInbound s).pending = s.pending := by
  simp only [popInbound]
  (repeat' split) <;> simp

@[simp] theorem takeFrame_frame (f : Frame) (s : State) :
    (takeFrame f s).setup = s.setup ∧ (takeFrame f s).gen = s.gen ∧ (takeFrame f s).acq = s.acq ∧
    (takeFrame f s).raster = s.raster ∧ (takeFrame f s).compose = s.compose ∧ (takeFrame f s).panel = s.panel ∧
    (takeFrame f s).store = s.store ∧ (takeFrame f s).power = s.power ∧ (takeFrame f s).link.inPeriod = s.link.inPeriod ∧
    (takeFrame f s).link.clocked = s.link.clocked ∧ (takeFrame f s).link.gathered = s.link.gathered ∧
    (takeFrame f s).link.ignoring = s.link.ignoring ∧ (takeFrame f s).link.sending = s.link.sending ∧
    (takeFrame f s).link.partly = s.link.partly ∧ (takeFrame f s).pins = s.pins ∧ (takeFrame f s).pending = s.pending := by
  simp only [takeFrame]
  (repeat' split) <;> simp

@[simp] theorem rebuildAnnotation_frame (s : State) :
    (rebuildAnnotation s).setup = s.setup ∧ (rebuildAnnotation s).gen = s.gen ∧ (rebuildAnnotation s).acq = s.acq ∧
    (rebuildAnnotation s).mon = s.mon ∧ (rebuildAnnotation s).raster = s.raster ∧
    (rebuildAnnotation s).compose.frame = s.compose.frame ∧ (rebuildAnnotation s).compose.palette = s.compose.palette ∧
    (rebuildAnnotation s).compose.mode = s.compose.mode ∧ (rebuildAnnotation s).compose.startCol = s.compose.startCol ∧
    (rebuildAnnotation s).compose.cursor = s.compose.cursor ∧ (rebuildAnnotation s).compose.mark = s.compose.mark ∧
    (rebuildAnnotation s).compose.owned = s.compose.owned ∧ (rebuildAnnotation s).compose.duty = s.compose.duty ∧
    (rebuildAnnotation s).compose.frameTimer = s.compose.frameTimer ∧ (rebuildAnnotation s).panel = s.panel ∧
    (rebuildAnnotation s).store = s.store ∧ (rebuildAnnotation s).power = s.power ∧ (rebuildAnnotation s).link = s.link ∧
    (rebuildAnnotation s).pins = s.pins ∧ (rebuildAnnotation s).pending = s.pending := by
  simp only [rebuildAnnotation]
  (repeat' split) <;> simp

@[simp] theorem takeFrameValues_frame (s : State) :
    (takeFrameValues s).setup = s.setup ∧ (takeFrameValues s).gen = s.gen ∧ (takeFrameValues s).acq = s.acq ∧
    (takeFrameValues s).mon = s.mon ∧ (takeFrameValues s).raster = s.raster ∧
    (takeFrameValues s).compose.palette = s.compose.palette ∧ (takeFrameValues s).compose.mode = s.compose.mode ∧
    (takeFrameValues s).compose.startCol = s.compose.startCol ∧ (takeFrameValues s).compose.cursor = s.compose.cursor ∧
    (takeFrameValues s).compose.mark = s.compose.mark ∧ (takeFrameValues s).compose.annot0 = s.compose.annot0 ∧
    (takeFrameValues s).compose.annot29 = s.compose.annot29 ∧ (takeFrameValues s).compose.frameTimer = s.compose.frameTimer ∧
    (takeFrameValues s).panel = s.panel ∧ (takeFrameValues s).store = s.store ∧ (takeFrameValues s).power = s.power ∧
    (takeFrameValues s).link = s.link ∧ (takeFrameValues s).pins = s.pins ∧ (takeFrameValues s).pending = s.pending := by
  simp only [takeFrameValues]
  (repeat' split) <;> simp

@[simp] theorem frameDecay_frame (s : State) :
    (frameDecay s).setup = s.setup ∧ (frameDecay s).gen = s.gen ∧ (frameDecay s).acq = s.acq ∧ (frameDecay s).mon = s.mon ∧
    (frameDecay s).raster.list = s.raster.list ∧ (frameDecay s).raster.job = s.raster.job ∧
    (frameDecay s).raster.view = s.raster.view ∧ (frameDecay s).raster.writeCol = s.raster.writeCol ∧
    (frameDecay s).raster.wrapped = s.raster.wrapped ∧ (frameDecay s).compose = s.compose ∧ (frameDecay s).panel = s.panel ∧
    (frameDecay s).store = s.store ∧ (frameDecay s).power = s.power ∧ (frameDecay s).link = s.link ∧
    (frameDecay s).pins = s.pins ∧ (frameDecay s).pending = s.pending := by
  simp only [frameDecay]
  (repeat' split) <;> simp

@[simp] theorem frameEventAt_frame (t0 : Tick) (k : Nat) (s : State) :
    (frameEventAt t0 k s).setup = s.setup ∧ (frameEventAt t0 k s).gen = s.gen ∧ (frameEventAt t0 k s).acq = s.acq ∧
    (frameEventAt t0 k s).mon = s.mon ∧ (frameEventAt t0 k s).raster.list = s.raster.list ∧
    (frameEventAt t0 k s).raster.job = s.raster.job ∧ (frameEventAt t0 k s).raster.view = s.raster.view ∧
    (frameEventAt t0 k s).raster.writeCol = s.raster.writeCol ∧ (frameEventAt t0 k s).raster.wrapped = s.raster.wrapped ∧
    (frameEventAt t0 k s).compose.palette = s.compose.palette ∧ (frameEventAt t0 k s).compose.mode = s.compose.mode ∧
    (frameEventAt t0 k s).compose.startCol = s.compose.startCol ∧ (frameEventAt t0 k s).compose.cursor = s.compose.cursor ∧
    (frameEventAt t0 k s).compose.mark = s.compose.mark ∧ (frameEventAt t0 k s).compose.annot0 = s.compose.annot0 ∧
    (frameEventAt t0 k s).compose.annot29 = s.compose.annot29 ∧ (frameEventAt t0 k s).panel = s.panel ∧
    (frameEventAt t0 k s).store = s.store ∧ (frameEventAt t0 k s).power = s.power ∧ (frameEventAt t0 k s).link = s.link ∧
    (frameEventAt t0 k s).pins = s.pins ∧ (frameEventAt t0 k s).pending = s.pending := by
  simp only [frameEventAt]
  (repeat' split) <;> simp

@[simp] theorem startScanout_frame (s : State) :
    (startScanout s).setup = s.setup ∧ (startScanout s).gen = s.gen ∧ (startScanout s).acq = s.acq ∧
    (startScanout s).mon = s.mon ∧ (startScanout s).raster.list = s.raster.list ∧
    (startScanout s).raster.job = s.raster.job ∧ (startScanout s).raster.view = s.raster.view ∧
    (startScanout s).raster.writeCol = s.raster.writeCol ∧ (startScanout s).raster.wrapped = s.raster.wrapped ∧
    (startScanout s).compose.palette = s.compose.palette ∧ (startScanout s).compose.mode = s.compose.mode ∧
    (startScanout s).compose.startCol = s.compose.startCol ∧ (startScanout s).compose.cursor = s.compose.cursor ∧
    (startScanout s).compose.mark = s.compose.mark ∧ (startScanout s).compose.annot0 = s.compose.annot0 ∧
    (startScanout s).compose.annot29 = s.compose.annot29 ∧ (startScanout s).panel = s.panel ∧
    (startScanout s).store = s.store ∧ (startScanout s).power = s.power ∧ (startScanout s).link = s.link ∧
    (startScanout s).pins = s.pins ∧ (startScanout s).pending = s.pending := by
  simp only [startScanout]
  (repeat' split) <;> simp

@[simp] theorem stopScanout_frame (s : State) :
    (stopScanout s).setup = s.setup ∧ (stopScanout s).gen = s.gen ∧ (stopScanout s).acq = s.acq ∧
    (stopScanout s).mon = s.mon ∧ (stopScanout s).raster = s.raster ∧ (stopScanout s).compose.frame = s.compose.frame ∧
    (stopScanout s).compose.palette = s.compose.palette ∧ (stopScanout s).compose.mode = s.compose.mode ∧
    (stopScanout s).compose.startCol = s.compose.startCol ∧ (stopScanout s).compose.text = s.compose.text ∧
    (stopScanout s).compose.cursor = s.compose.cursor ∧ (stopScanout s).compose.mark = s.compose.mark ∧
    (stopScanout s).compose.owned = s.compose.owned ∧ (stopScanout s).compose.annot0 = s.compose.annot0 ∧
    (stopScanout s).compose.annot29 = s.compose.annot29 ∧ (stopScanout s).panel = s.panel ∧ (stopScanout s).store = s.store ∧
    (stopScanout s).power = s.power ∧ (stopScanout s).link = s.link ∧ (stopScanout s).pins = s.pins ∧
    (stopScanout s).pending = s.pending := by
  simp only [stopScanout]
  (repeat' split) <;> simp

@[simp] theorem composeRestart_frame (s : State) :
    (composeRestart s).setup = s.setup ∧ (composeRestart s).gen = s.gen ∧ (composeRestart s).acq = s.acq ∧
    (composeRestart s).mon = s.mon ∧ (composeRestart s).raster = s.raster ∧
    (composeRestart s).compose.frame = s.compose.frame ∧ (composeRestart s).compose.palette = s.compose.palette ∧
    (composeRestart s).compose.mode = s.compose.mode ∧ (composeRestart s).compose.owned = s.compose.owned ∧
    (composeRestart s).compose.annot0 = s.compose.annot0 ∧ (composeRestart s).compose.annot29 = s.compose.annot29 ∧
    (composeRestart s).compose.duty = s.compose.duty ∧ (composeRestart s).compose.frameTimer = s.compose.frameTimer ∧
    (composeRestart s).panel = s.panel ∧ (composeRestart s).store = s.store ∧ (composeRestart s).power = s.power ∧
    (composeRestart s).link = s.link ∧ (composeRestart s).pins = s.pins ∧ (composeRestart s).pending = s.pending := by
  simp only [composeRestart]
  (repeat' split) <;> simp

@[simp] theorem setCursor_frame (p : CellPos) (s : State) :
    (setCursor p s).setup = s.setup ∧ (setCursor p s).gen = s.gen ∧ (setCursor p s).acq = s.acq ∧
    (setCursor p s).mon = s.mon ∧ (setCursor p s).raster = s.raster ∧ (setCursor p s).compose.frame = s.compose.frame ∧
    (setCursor p s).compose.palette = s.compose.palette ∧ (setCursor p s).compose.mode = s.compose.mode ∧
    (setCursor p s).compose.startCol = s.compose.startCol ∧ (setCursor p s).compose.text = s.compose.text ∧
    (setCursor p s).compose.mark = s.compose.mark ∧ (setCursor p s).compose.owned = s.compose.owned ∧
    (setCursor p s).compose.annot0 = s.compose.annot0 ∧ (setCursor p s).compose.annot29 = s.compose.annot29 ∧
    (setCursor p s).compose.duty = s.compose.duty ∧ (setCursor p s).compose.frameTimer = s.compose.frameTimer ∧
    (setCursor p s).panel = s.panel ∧ (setCursor p s).store = s.store ∧ (setCursor p s).power = s.power ∧
    (setCursor p s).link = s.link ∧ (setCursor p s).pins = s.pins ∧ (setCursor p s).pending = s.pending := by
  simp only [setCursor]
  (repeat' split) <;> simp

@[simp] theorem clearPlanes_frame (set : PerChan Bool) (s : State) :
    (clearPlanes set s).setup = s.setup ∧ (clearPlanes set s).gen = s.gen ∧ (clearPlanes set s).acq = s.acq ∧
    (clearPlanes set s).mon = s.mon ∧ (clearPlanes set s).raster.list = s.raster.list ∧
    (clearPlanes set s).raster.view = s.raster.view ∧ (clearPlanes set s).raster.writeCol = s.raster.writeCol ∧
    (clearPlanes set s).raster.wrapped = s.raster.wrapped ∧ (clearPlanes set s).compose = s.compose ∧
    (clearPlanes set s).panel = s.panel ∧ (clearPlanes set s).store = s.store ∧ (clearPlanes set s).power = s.power ∧
    (clearPlanes set s).link = s.link ∧ (clearPlanes set s).pins = s.pins ∧ (clearPlanes set s).pending = s.pending := by
  simp only [clearPlanes]
  (repeat' split) <;> simp

@[simp] theorem enterAutomatic_frame (k : Nat) (ser : Serial) (c : PerChan Bool) (s : State) :
    (enterAutomatic k ser c s).setup = s.setup ∧ (enterAutomatic k ser c s).gen = s.gen ∧
    (enterAutomatic k ser c s).acq = s.acq ∧ (enterAutomatic k ser c s).mon = s.mon ∧
    (enterAutomatic k ser c s).raster.planes = s.raster.planes ∧ (enterAutomatic k ser c s).raster.job = s.raster.job ∧
    (enterAutomatic k ser c s).raster.view = s.raster.view ∧ (enterAutomatic k ser c s).raster.writeCol = s.raster.writeCol ∧
    (enterAutomatic k ser c s).raster.wrapped = s.raster.wrapped ∧ (enterAutomatic k ser c s).compose = s.compose ∧
    (enterAutomatic k ser c s).panel = s.panel ∧ (enterAutomatic k ser c s).store = s.store ∧
    (enterAutomatic k ser c s).power = s.power ∧ (enterAutomatic k ser c s).link = s.link ∧
    (enterAutomatic k ser c s).pins = s.pins ∧ (enterAutomatic k ser c s).pending = s.pending := by
  simp only [enterAutomatic]
  (repeat' split) <;> simp

@[simp] theorem enterRedraw_frame (k : Nat) (ser : Serial) (s : State) :
    (enterRedraw k ser s).setup = s.setup ∧ (enterRedraw k ser s).gen = s.gen ∧ (enterRedraw k ser s).acq = s.acq ∧
    (enterRedraw k ser s).mon = s.mon ∧ (enterRedraw k ser s).raster.planes = s.raster.planes ∧
    (enterRedraw k ser s).raster.job = s.raster.job ∧ (enterRedraw k ser s).raster.view = s.raster.view ∧
    (enterRedraw k ser s).raster.writeCol = s.raster.writeCol ∧ (enterRedraw k ser s).raster.wrapped = s.raster.wrapped ∧
    (enterRedraw k ser s).compose = s.compose ∧ (enterRedraw k ser s).panel = s.panel ∧
    (enterRedraw k ser s).store = s.store ∧ (enterRedraw k ser s).power = s.power ∧ (enterRedraw k ser s).link = s.link ∧
    (enterRedraw k ser s).pins = s.pins ∧ (enterRedraw k ser s).pending = s.pending := by
  simp only [enterRedraw]
  (repeat' split) <;> simp

@[simp] theorem mapChange_frame (set : PerChan Bool) (s : State) :
    (mapChange set s).setup = s.setup ∧ (mapChange set s).gen = s.gen ∧ (mapChange set s).acq = s.acq ∧
    (mapChange set s).mon = s.mon ∧ (mapChange set s).raster.view = s.raster.view ∧
    (mapChange set s).raster.writeCol = s.raster.writeCol ∧ (mapChange set s).raster.wrapped = s.raster.wrapped ∧
    (mapChange set s).compose = s.compose ∧ (mapChange set s).panel = s.panel ∧ (mapChange set s).store = s.store ∧
    (mapChange set s).power = s.power ∧ (mapChange set s).link = s.link ∧ (mapChange set s).pins = s.pins ∧
    (mapChange set s).pending = s.pending := by
  simp only [mapChange]
  (repeat' split) <;> simp

@[simp] theorem completeJob_frame (j : DrawJob) (s : State) :
    (completeJob j s).setup = s.setup ∧ (completeJob j s).gen = s.gen ∧ (completeJob j s).acq = s.acq ∧
    (completeJob j s).mon = s.mon ∧ (completeJob j s).raster.planes = s.raster.planes ∧
    (completeJob j s).raster.list = s.raster.list ∧ (completeJob j s).raster.writeCol = s.raster.writeCol ∧
    (completeJob j s).raster.wrapped = s.raster.wrapped ∧ (completeJob j s).compose = s.compose ∧
    (completeJob j s).panel = s.panel ∧ (completeJob j s).store = s.store ∧ (completeJob j s).power = s.power ∧
    (completeJob j s).link = s.link ∧ (completeJob j s).pins = s.pins ∧ (completeJob j s).pending = s.pending := by
  simp only [completeJob]
  (repeat' split) <;> simp

@[simp] theorem startJob_frame (e : DrawEntry) (g : Geometry) (s : State) :
    (startJob e g s).setup = s.setup ∧ (startJob e g s).gen = s.gen ∧ (startJob e g s).acq = s.acq ∧
    (startJob e g s).mon = s.mon ∧ (startJob e g s).raster.list = s.raster.list ∧
    (startJob e g s).raster.writeCol = s.raster.writeCol ∧ (startJob e g s).raster.wrapped = s.raster.wrapped ∧
    (startJob e g s).compose = s.compose ∧ (startJob e g s).panel = s.panel ∧ (startJob e g s).store = s.store ∧
    (startJob e g s).power = s.power ∧ (startJob e g s).link = s.link ∧ (startJob e g s).pins = s.pins ∧
    (startJob e g s).pending = s.pending := by
  simp only [startJob]
  (repeat' split) <;> simp

@[simp] theorem takeHeadEntry_frame (s : State) :
    (takeHeadEntry s).setup = s.setup ∧ (takeHeadEntry s).gen = s.gen ∧ (takeHeadEntry s).acq = s.acq ∧
    (takeHeadEntry s).mon = s.mon ∧ (takeHeadEntry s).raster.writeCol = s.raster.writeCol ∧
    (takeHeadEntry s).raster.wrapped = s.raster.wrapped ∧ (takeHeadEntry s).compose = s.compose ∧
    (takeHeadEntry s).panel = s.panel ∧ (takeHeadEntry s).store = s.store ∧ (takeHeadEntry s).power = s.power ∧
    (takeHeadEntry s).link = s.link ∧ (takeHeadEntry s).pins = s.pins ∧ (takeHeadEntry s).pending = s.pending := by
  simp only [takeHeadEntry]
  (repeat' split) <;> simp

@[simp] theorem hitJobColumn_frame (j : DrawJob) (n : Chan) (g : Geometry) (s : State) :
    (hitJobColumn j n g s).setup = s.setup ∧ (hitJobColumn j n g s).gen = s.gen ∧ (hitJobColumn j n g s).acq = s.acq ∧
    (hitJobColumn j n g s).mon = s.mon ∧ (hitJobColumn j n g s).raster.list = s.raster.list ∧
    (hitJobColumn j n g s).raster.writeCol = s.raster.writeCol ∧ (hitJobColumn j n g s).raster.wrapped = s.raster.wrapped ∧
    (hitJobColumn j n g s).compose = s.compose ∧ (hitJobColumn j n g s).panel = s.panel ∧
    (hitJobColumn j n g s).store = s.store ∧ (hitJobColumn j n g s).power = s.power ∧ (hitJobColumn j n g s).link = s.link ∧
    (hitJobColumn j n g s).pins = s.pins ∧ (hitJobColumn j n g s).pending = s.pending := by
  simp only [hitJobColumn]
  (repeat' split) <;> simp

@[simp] theorem rasterEnterRoll_frame (s : State) :
    (rasterEnterRoll s).setup = s.setup ∧ (rasterEnterRoll s).gen = s.gen ∧ (rasterEnterRoll s).acq = s.acq ∧
    (rasterEnterRoll s).mon = s.mon ∧ (rasterEnterRoll s).compose = s.compose ∧ (rasterEnterRoll s).panel = s.panel ∧
    (rasterEnterRoll s).store = s.store ∧ (rasterEnterRoll s).power = s.power ∧ (rasterEnterRoll s).link = s.link ∧
    (rasterEnterRoll s).pins = s.pins ∧ (rasterEnterRoll s).pending = s.pending := by
  simp only [rasterEnterRoll]
  (repeat' split) <;> simp

@[simp] theorem takeStartCol_frame (s : State) :
    (takeStartCol s).setup = s.setup ∧ (takeStartCol s).gen = s.gen ∧ (takeStartCol s).acq = s.acq ∧
    (takeStartCol s).mon = s.mon ∧ (takeStartCol s).raster = s.raster ∧ (takeStartCol s).compose.frame = s.compose.frame ∧
    (takeStartCol s).compose.palette = s.compose.palette ∧ (takeStartCol s).compose.mode = s.compose.mode ∧
    (takeStartCol s).compose.text = s.compose.text ∧ (takeStartCol s).compose.cursor = s.compose.cursor ∧
    (takeStartCol s).compose.mark = s.compose.mark ∧ (takeStartCol s).compose.owned = s.compose.owned ∧
    (takeStartCol s).compose.annot0 = s.compose.annot0 ∧ (takeStartCol s).compose.annot29 = s.compose.annot29 ∧
    (takeStartCol s).compose.duty = s.compose.duty ∧ (takeStartCol s).compose.frameTimer = s.compose.frameTimer ∧
    (takeStartCol s).panel = s.panel ∧ (takeStartCol s).store = s.store ∧ (takeStartCol s).power = s.power ∧
    (takeStartCol s).link = s.link ∧ (takeStartCol s).pins = s.pins ∧ (takeStartCol s).pending = s.pending := by
  simp only [takeStartCol]
  (repeat' split) <;> simp

@[simp] theorem rasterRollColumn_frame (g : Geometry) (c : PerChan (Byte × Byte)) (s : State) :
    (rasterRollColumn g c s).setup = s.setup ∧ (rasterRollColumn g c s).gen = s.gen ∧ (rasterRollColumn g c s).acq = s.acq ∧
    (rasterRollColumn g c s).mon = s.mon ∧ (rasterRollColumn g c s).raster.list = s.raster.list ∧
    (rasterRollColumn g c s).raster.job = s.raster.job ∧ (rasterRollColumn g c s).raster.view = s.raster.view ∧
    (rasterRollColumn g c s).compose.frame = s.compose.frame ∧ (rasterRollColumn g c s).compose.palette = s.compose.palette ∧
    (rasterRollColumn g c s).compose.mode = s.compose.mode ∧ (rasterRollColumn g c s).compose.text = s.compose.text ∧
    (rasterRollColumn g c s).compose.cursor = s.compose.cursor ∧ (rasterRollColumn g c s).compose.mark = s.compose.mark ∧
    (rasterRollColumn g c s).compose.owned = s.compose.owned ∧ (rasterRollColumn g c s).compose.annot0 = s.compose.annot0 ∧
    (rasterRollColumn g c s).compose.annot29 = s.compose.annot29 ∧ (rasterRollColumn g c s).compose.duty = s.compose.duty ∧
    (rasterRollColumn g c s).compose.frameTimer = s.compose.frameTimer ∧ (rasterRollColumn g c s).panel = s.panel ∧
    (rasterRollColumn g c s).store = s.store ∧ (rasterRollColumn g c s).power = s.power ∧
    (rasterRollColumn g c s).link = s.link ∧ (rasterRollColumn g c s).pins = s.pins ∧
    (rasterRollColumn g c s).pending = s.pending := by
  simp only [rasterRollColumn]
  (repeat' split) <;> simp

@[simp] theorem rasterLeaveRoll_frame (v : Option (Nat × Serial)) (s : State) :
    (rasterLeaveRoll v s).setup = s.setup ∧ (rasterLeaveRoll v s).gen = s.gen ∧ (rasterLeaveRoll v s).acq = s.acq ∧
    (rasterLeaveRoll v s).mon = s.mon ∧ (rasterLeaveRoll v s).raster.list = s.raster.list ∧
    (rasterLeaveRoll v s).raster.job = s.raster.job ∧ (rasterLeaveRoll v s).compose.frame = s.compose.frame ∧
    (rasterLeaveRoll v s).compose.palette = s.compose.palette ∧ (rasterLeaveRoll v s).compose.mode = s.compose.mode ∧
    (rasterLeaveRoll v s).compose.text = s.compose.text ∧ (rasterLeaveRoll v s).compose.cursor = s.compose.cursor ∧
    (rasterLeaveRoll v s).compose.mark = s.compose.mark ∧ (rasterLeaveRoll v s).compose.owned = s.compose.owned ∧
    (rasterLeaveRoll v s).compose.annot0 = s.compose.annot0 ∧ (rasterLeaveRoll v s).compose.annot29 = s.compose.annot29 ∧
    (rasterLeaveRoll v s).compose.duty = s.compose.duty ∧ (rasterLeaveRoll v s).compose.frameTimer = s.compose.frameTimer ∧
    (rasterLeaveRoll v s).panel = s.panel ∧ (rasterLeaveRoll v s).store = s.store ∧ (rasterLeaveRoll v s).power = s.power ∧
    (rasterLeaveRoll v s).link = s.link ∧ (rasterLeaveRoll v s).pins = s.pins ∧
    (rasterLeaveRoll v s).pending = s.pending := by
  simp only [rasterLeaveRoll]
  (repeat' split) <;> simp

@[simp] theorem rasterRestart_frame (s : State) :
    (rasterRestart s).setup = s.setup ∧ (rasterRestart s).gen = s.gen ∧ (rasterRestart s).acq = s.acq ∧
    (rasterRestart s).mon = s.mon ∧ (rasterRestart s).compose = s.compose ∧ (rasterRestart s).panel = s.panel ∧
    (rasterRestart s).store = s.store ∧ (rasterRestart s).power = s.power ∧ (rasterRestart s).link = s.link ∧
    (rasterRestart s).pins = s.pins ∧ (rasterRestart s).pending = s.pending := by
  simp only [rasterRestart]
  (repeat' split) <;> simp

@[simp] theorem rasterStandby_frame (s : State) :
    (rasterStandby s).setup = s.setup ∧ (rasterStandby s).gen = s.gen ∧ (rasterStandby s).acq = s.acq ∧
    (rasterStandby s).mon = s.mon ∧ (rasterStandby s).raster.planes = s.raster.planes ∧
    (rasterStandby s).raster.view = s.raster.view ∧ (rasterStandby s).raster.writeCol = s.raster.writeCol ∧
    (rasterStandby s).raster.wrapped = s.raster.wrapped ∧ (rasterStandby s).compose = s.compose ∧
    (rasterStandby s).panel = s.panel ∧ (rasterStandby s).store = s.store ∧ (rasterStandby s).power = s.power ∧
    (rasterStandby s).link = s.link ∧ (rasterStandby s).pins = s.pins ∧ (rasterStandby s).pending = s.pending := by
  simp only [rasterStandby]
  (repeat' split) <;> simp


end Sys2Proof.Machine
end

