-- ==== Sys2Proof/Laws/Acquire.lean ====
section
/-! SUPPORT. One lemma for each operation of ACQ: what it leaves as it was; the depth of a geometry. -/

namespace Sys2Proof.Machine

@[simp] theorem setSeg_frame (k : Nat) (r : SegRecord) (s : State) :
    (setSeg k r s).setup = s.setup ∧ (setSeg k r s).gen = s.gen ∧ (setSeg k r s).acq.timeTag = s.acq.timeTag ∧
    (setSeg k r s).acq.wraps = s.acq.wraps ∧ (setSeg k r s).acq.nsPhase = s.acq.nsPhase ∧
    (setSeg k r s).acq.held = s.acq.held ∧ (setSeg k r s).acq.waves = s.acq.waves ∧
    (setSeg k r s).acq.selfRefresh = s.acq.selfRefresh ∧ (setSeg k r s).acq.memEpoch = s.acq.memEpoch ∧
    (setSeg k r s).acq.mem = s.acq.mem ∧ (setSeg k r s).acq.fresh = s.acq.fresh ∧
    (setSeg k r s).acq.serialCounter = s.acq.serialCounter ∧ (setSeg k r s).acq.single = s.acq.single ∧
    (setSeg k r s).acq.runKind = s.acq.runKind ∧ (setSeg k r s).acq.state = s.acq.state ∧
    (setSeg k r s).acq.lastTrig = s.acq.lastTrig ∧ (setSeg k r s).acq.countDone = s.acq.countDone ∧
    (setSeg k r s).acq.lastDone = s.acq.lastDone ∧ (setSeg k r s).acq.prevLayout = s.acq.prevLayout ∧
    (setSeg k r s).mon = s.mon ∧ (setSeg k r s).raster = s.raster ∧ (setSeg k r s).compose = s.compose ∧
    (setSeg k r s).panel = s.panel ∧ (setSeg k r s).store = s.store ∧ (setSeg k r s).power = s.power ∧
    (setSeg k r s).link = s.link ∧ (setSeg k r s).pins = s.pins ∧ (setSeg k r s).pending = s.pending := by
  simp only [setSeg]
  (repeat' split) <;> simp

@[simp] theorem setAcqState_frame (a : AcqState) (s : State) :
    (setAcqState a s).setup = s.setup ∧ (setAcqState a s).gen = s.gen ∧ (setAcqState a s).acq.timeTag = s.acq.timeTag ∧
    (setAcqState a s).acq.wraps = s.acq.wraps ∧ (setAcqState a s).acq.nsPhase = s.acq.nsPhase ∧
    (setAcqState a s).acq.held = s.acq.held ∧ (setAcqState a s).acq.waves = s.acq.waves ∧
    (setAcqState a s).acq.selfRefresh = s.acq.selfRefresh ∧ (setAcqState a s).acq.memEpoch = s.acq.memEpoch ∧
    (setAcqState a s).acq.mem = s.acq.mem ∧ (setAcqState a s).acq.fresh = s.acq.fresh ∧
    (setAcqState a s).acq.serialCounter = s.acq.serialCounter ∧ (setAcqState a s).acq.single = s.acq.single ∧
    (setAcqState a s).acq.runKind = s.acq.runKind ∧ (setAcqState a s).acq.segs = s.acq.segs ∧
    (setAcqState a s).acq.lastTrig = s.acq.lastTrig ∧ (setAcqState a s).acq.countDone = s.acq.countDone ∧
    (setAcqState a s).acq.lastDone = s.acq.lastDone ∧ (setAcqState a s).acq.prevLayout = s.acq.prevLayout ∧
    (setAcqState a s).mon = s.mon ∧ (setAcqState a s).raster = s.raster ∧
    (setAcqState a s).compose.frame = s.compose.frame ∧ (setAcqState a s).compose.palette = s.compose.palette ∧
    (setAcqState a s).compose.mode = s.compose.mode ∧ (setAcqState a s).compose.startCol = s.compose.startCol ∧
    (setAcqState a s).compose.cursor = s.compose.cursor ∧ (setAcqState a s).compose.mark = s.compose.mark ∧
    (setAcqState a s).compose.owned = s.compose.owned ∧ (setAcqState a s).compose.duty = s.compose.duty ∧
    (setAcqState a s).compose.frameTimer = s.compose.frameTimer ∧ (setAcqState a s).panel = s.panel ∧
    (setAcqState a s).store = s.store ∧ (setAcqState a s).power = s.power ∧ (setAcqState a s).link = s.link ∧
    (setAcqState a s).pins = s.pins ∧ (setAcqState a s).pending = s.pending := by
  simp only [setAcqState]
  (repeat' split) <;> simp

@[simp] theorem freeDone_frame (p : Nat → SegRecord → Bool) (s : State) :
    (freeDone p s).setup = s.setup ∧ (freeDone p s).gen = s.gen ∧ (freeDone p s).acq.timeTag = s.acq.timeTag ∧
    (freeDone p s).acq.wraps = s.acq.wraps ∧ (freeDone p s).acq.nsPhase = s.acq.nsPhase ∧
    (freeDone p s).acq.held = s.acq.held ∧ (freeDone p s).acq.waves = s.acq.waves ∧
    (freeDone p s).acq.selfRefresh = s.acq.selfRefresh ∧ (freeDone p s).acq.memEpoch = s.acq.memEpoch ∧
    (freeDone p s).acq.mem = s.acq.mem ∧ (freeDone p s).acq.fresh = s.acq.fresh ∧
    (freeDone p s).acq.serialCounter = s.acq.serialCounter ∧ (freeDone p s).acq.single = s.acq.single ∧
    (freeDone p s).acq.runKind = s.acq.runKind ∧ (freeDone p s).acq.state = s.acq.state ∧
    (freeDone p s).acq.lastTrig = s.acq.lastTrig ∧ (freeDone p s).acq.countDone = s.acq.countDone ∧
    (freeDone p s).acq.lastDone = s.acq.lastDone ∧ (freeDone p s).acq.prevLayout = s.acq.prevLayout ∧
    (freeDone p s).mon = s.mon ∧ (freeDone p s).raster = s.raster ∧ (freeDone p s).compose = s.compose ∧
    (freeDone p s).panel = s.panel ∧ (freeDone p s).store = s.store ∧ (freeDone p s).power = s.power ∧
    (freeDone p s).link = s.link ∧ (freeDone p s).pins = s.pins ∧ (freeDone p s).pending = s.pending := by
  simp only [freeDone]
  (repeat' split) <;> simp

@[simp] theorem freeForArm_frame (k : Nat) (g : Geometry) (s : State) :
    (freeForArm k g s).setup = s.setup ∧ (freeForArm k g s).gen = s.gen ∧ (freeForArm k g s).acq.timeTag = s.acq.timeTag ∧
    (freeForArm k g s).acq.wraps = s.acq.wraps ∧ (freeForArm k g s).acq.nsPhase = s.acq.nsPhase ∧
    (freeForArm k g s).acq.held = s.acq.held ∧ (freeForArm k g s).acq.waves = s.acq.waves ∧
    (freeForArm k g s).acq.selfRefresh = s.acq.selfRefresh ∧ (freeForArm k g s).acq.memEpoch = s.acq.memEpoch ∧
    (freeForArm k g s).acq.mem = s.acq.mem ∧ (freeForArm k g s).acq.fresh = s.acq.fresh ∧
    (freeForArm k g s).acq.serialCounter = s.acq.serialCounter ∧ (freeForArm k g s).acq.single = s.acq.single ∧
    (freeForArm k g s).acq.runKind = s.acq.runKind ∧ (freeForArm k g s).acq.state = s.acq.state ∧
    (freeForArm k g s).acq.lastTrig = s.acq.lastTrig ∧ (freeForArm k g s).acq.countDone = s.acq.countDone ∧
    (freeForArm k g s).acq.lastDone = s.acq.lastDone ∧ (freeForArm k g s).acq.prevLayout = s.acq.prevLayout ∧
    (freeForArm k g s).mon = s.mon ∧ (freeForArm k g s).raster = s.raster ∧ (freeForArm k g s).compose = s.compose ∧
    (freeForArm k g s).panel = s.panel ∧ (freeForArm k g s).store = s.store ∧ (freeForArm k g s).power = s.power ∧
    (freeForArm k g s).link = s.link ∧ (freeForArm k g s).pins = s.pins ∧ (freeForArm k g s).pending = s.pending := by
  simp only [freeForArm]
  (repeat' split) <;> simp

@[simp] theorem discardPoints_frame (s : State) :
    (discardPoints s).setup = s.setup ∧ (discardPoints s).gen = s.gen ∧ (discardPoints s).acq.timeTag = s.acq.timeTag ∧
    (discardPoints s).acq.wraps = s.acq.wraps ∧ (discardPoints s).acq.nsPhase = s.acq.nsPhase ∧
    (discardPoints s).acq.held = s.acq.held ∧ (discardPoints s).acq.waves = s.acq.waves ∧
    (discardPoints s).acq.selfRefresh = s.acq.selfRefresh ∧ (discardPoints s).acq.memEpoch = s.acq.memEpoch ∧
    (discardPoints s).acq.mem = s.acq.mem ∧ (discardPoints s).acq.fresh = s.acq.fresh ∧
    (discardPoints s).acq.serialCounter = s.acq.serialCounter ∧ (discardPoints s).acq.single = s.acq.single ∧
    (discardPoints s).acq.runKind = s.acq.runKind ∧ (discardPoints s).acq.state = s.acq.state ∧
    (discardPoints s).acq.segs = s.acq.segs ∧ (discardPoints s).acq.lastTrig = s.acq.lastTrig ∧
    (discardPoints s).acq.countDone = s.acq.countDone ∧ (discardPoints s).acq.lastDone = s.acq.lastDone ∧
    (discardPoints s).acq.prevLayout = s.acq.prevLayout ∧ (discardPoints s).mon = s.mon ∧
    (discardPoints s).raster = s.raster ∧ (discardPoints s).compose = s.compose ∧ (discardPoints s).panel = s.panel ∧
    (discardPoints s).store = s.store ∧ (discardPoints s).power = s.power ∧ (discardPoints s).link = s.link ∧
    (discardPoints s).pins = s.pins ∧ (discardPoints s).pending = s.pending := by
  simp only [discardPoints]
  (repeat' split) <;> simp

@[simp] theorem clearPrimes_frame (s : State) :
    (clearPrimes s).setup = s.setup ∧ (clearPrimes s).gen = s.gen ∧ (clearPrimes s).acq.timeTag = s.acq.timeTag ∧
    (clearPrimes s).acq.wraps = s.acq.wraps ∧ (clearPrimes s).acq.nsPhase = s.acq.nsPhase ∧
    (clearPrimes s).acq.held = s.acq.held ∧ (clearPrimes s).acq.waves = s.acq.waves ∧
    (clearPrimes s).acq.selfRefresh = s.acq.selfRefresh ∧ (clearPrimes s).acq.memEpoch = s.acq.memEpoch ∧
    (clearPrimes s).acq.mem = s.acq.mem ∧ (clearPrimes s).acq.fresh = s.acq.fresh ∧
    (clearPrimes s).acq.serialCounter = s.acq.serialCounter ∧ (clearPrimes s).acq.single = s.acq.single ∧
    (clearPrimes s).acq.runKind = s.acq.runKind ∧ (clearPrimes s).acq.state = s.acq.state ∧
    (clearPrimes s).acq.segs = s.acq.segs ∧ (clearPrimes s).acq.lastTrig = s.acq.lastTrig ∧
    (clearPrimes s).acq.countDone = s.acq.countDone ∧ (clearPrimes s).acq.lastDone = s.acq.lastDone ∧
    (clearPrimes s).acq.prevLayout = s.acq.prevLayout ∧ (clearPrimes s).mon = s.mon ∧ (clearPrimes s).raster = s.raster ∧
    (clearPrimes s).compose = s.compose ∧ (clearPrimes s).panel = s.panel ∧ (clearPrimes s).store = s.store ∧
    (clearPrimes s).power = s.power ∧ (clearPrimes s).link = s.link ∧ (clearPrimes s).pins = s.pins ∧
    (clearPrimes s).pending = s.pending := by
  simp only [clearPrimes]
  (repeat' split) <;> simp

@[simp] theorem enterHeld_frame (s : State) :
    (enterHeld s).setup = s.setup ∧ (enterHeld s).gen = s.gen ∧ (enterHeld s).acq.timeTag = s.acq.timeTag ∧
    (enterHeld s).acq.wraps = s.acq.wraps ∧ (enterHeld s).acq.nsPhase = s.acq.nsPhase ∧
    (enterHeld s).acq.held = s.acq.held ∧ (enterHeld s).acq.waves = s.acq.waves ∧
    (enterHeld s).acq.selfRefresh = s.acq.selfRefresh ∧ (enterHeld s).acq.memEpoch = s.acq.memEpoch ∧
    (enterHeld s).acq.mem = s.acq.mem ∧ (enterHeld s).acq.fresh = s.acq.fresh ∧
    (enterHeld s).acq.serialCounter = s.acq.serialCounter ∧ (enterHeld s).acq.single = s.acq.single ∧
    (enterHeld s).acq.runKind = s.acq.runKind ∧ (enterHeld s).acq.segs = s.acq.segs ∧
    (enterHeld s).acq.lastTrig = s.acq.lastTrig ∧ (enterHeld s).acq.countDone = s.acq.countDone ∧
    (enterHeld s).acq.lastDone = s.acq.lastDone ∧ (enterHeld s).acq.prevLayout = s.acq.prevLayout ∧
    (enterHeld s).mon = s.mon ∧ (enterHeld s).raster = s.raster ∧ (enterHeld s).compose.frame = s.compose.frame ∧
    (enterHeld s).compose.palette = s.compose.palette ∧ (enterHeld s).compose.mode = s.compose.mode ∧
    (enterHeld s).compose.startCol = s.compose.startCol ∧ (enterHeld s).compose.cursor = s.compose.cursor ∧
    (enterHeld s).compose.mark = s.compose.mark ∧ (enterHeld s).compose.owned = s.compose.owned ∧
    (enterHeld s).compose.duty = s.compose.duty ∧ (enterHeld s).compose.frameTimer = s.compose.frameTimer ∧
    (enterHeld s).panel = s.panel ∧ (enterHeld s).store = s.store ∧ (enterHeld s).power = s.power ∧
    (enterHeld s).link.inbound = s.link.inbound ∧ (enterHeld s).link.answers = s.link.answers ∧
    (enterHeld s).link.inPeriod = s.link.inPeriod ∧ (enterHeld s).link.clocked = s.link.clocked ∧
    (enterHeld s).link.gathered = s.link.gathered ∧ (enterHeld s).link.ignoring = s.link.ignoring ∧
    (enterHeld s).link.sending = s.link.sending ∧ (enterHeld s).link.partly = s.link.partly ∧ (enterHeld s).pins = s.pins ∧
    (enterHeld s).pending = s.pending := by
  simp only [enterHeld]
  (repeat' split) <;> simp

@[simp] theorem markTrigger_frame (k : TrigKind) (t : Tick) (s : State) :
    (markTrigger k t s).setup = s.setup ∧ (markTrigger k t s).gen = s.gen ∧
    (markTrigger k t s).acq.timeTag = s.acq.timeTag ∧ (markTrigger k t s).acq.wraps = s.acq.wraps ∧
    (markTrigger k t s).acq.nsPhase = s.acq.nsPhase ∧ (markTrigger k t s).acq.held = s.acq.held ∧
    (markTrigger k t s).acq.waves = s.acq.waves ∧ (markTrigger k t s).acq.selfRefresh = s.acq.selfRefresh ∧
    (markTrigger k t s).acq.memEpoch = s.acq.memEpoch ∧ (markTrigger k t s).acq.mem = s.acq.mem ∧
    (markTrigger k t s).acq.fresh = s.acq.fresh ∧ (markTrigger k t s).acq.serialCounter = s.acq.serialCounter ∧
    (markTrigger k t s).acq.single = s.acq.single ∧ (markTrigger k t s).acq.runKind = s.acq.runKind ∧
    (markTrigger k t s).acq.state = s.acq.state ∧ (markTrigger k t s).acq.countDone = s.acq.countDone ∧
    (markTrigger k t s).acq.lastDone = s.acq.lastDone ∧ (markTrigger k t s).acq.prevLayout = s.acq.prevLayout ∧
    (markTrigger k t s).mon = s.mon ∧ (markTrigger k t s).raster = s.raster ∧ (markTrigger k t s).compose = s.compose ∧
    (markTrigger k t s).panel = s.panel ∧ (markTrigger k t s).store = s.store ∧ (markTrigger k t s).power = s.power ∧
    (markTrigger k t s).link = s.link ∧ (markTrigger k t s).pins = s.pins ∧ (markTrigger k t s).pending = s.pending := by
  simp only [markTrigger]
  (repeat' split) <;> simp

@[simp] theorem enterCapturing_frame (s : State) :
    (enterCapturing s).setup = s.setup ∧ (enterCapturing s).gen = s.gen ∧ (enterCapturing s).acq.timeTag = s.acq.timeTag ∧
    (enterCapturing s).acq.wraps = s.acq.wraps ∧ (enterCapturing s).acq.nsPhase = s.acq.nsPhase ∧
    (enterCapturing s).acq.held = s.acq.held ∧ (enterCapturing s).acq.waves = s.acq.waves ∧
    (enterCapturing s).acq.selfRefresh = s.acq.selfRefresh ∧ (enterCapturing s).acq.memEpoch = s.acq.memEpoch ∧
    (enterCapturing s).acq.mem = s.acq.mem ∧ (enterCapturing s).acq.fresh = s.acq.fresh ∧
    (enterCapturing s).acq.serialCounter = s.acq.serialCounter ∧ (enterCapturing s).acq.single = s.acq.single ∧
    (enterCapturing s).acq.runKind = s.acq.runKind ∧ (enterCapturing s).acq.lastTrig = s.acq.lastTrig ∧
    (enterCapturing s).acq.countDone = s.acq.countDone ∧ (enterCapturing s).acq.lastDone = s.acq.lastDone ∧
    (enterCapturing s).acq.prevLayout = s.acq.prevLayout ∧ (enterCapturing s).mon = s.mon ∧
    (enterCapturing s).raster = s.raster ∧ (enterCapturing s).compose.frame = s.compose.frame ∧
    (enterCapturing s).compose.palette = s.compose.palette ∧ (enterCapturing s).compose.mode = s.compose.mode ∧
    (enterCapturing s).compose.startCol = s.compose.startCol ∧ (enterCapturing s).compose.cursor = s.compose.cursor ∧
    (enterCapturing s).compose.mark = s.compose.mark ∧ (enterCapturing s).compose.owned = s.compose.owned ∧
    (enterCapturing s).compose.duty = s.compose.duty ∧ (enterCapturing s).compose.frameTimer = s.compose.frameTimer ∧
    (enterCapturing s).panel = s.panel ∧ (enterCapturing s).store = s.store ∧ (enterCapturing s).power = s.power ∧
    (enterCapturing s).link = s.link ∧ (enterCapturing s).pins = s.pins ∧ (enterCapturing s).pending = s.pending := by
  simp only [enterCapturing]
  (repeat' split) <;> simp

@[simp] theorem readyAtOnce_frame (t : Tick) (s : State) :
    (readyAtOnce t s).setup = s.setup ∧ (readyAtOnce t s).gen = s.gen ∧ (readyAtOnce t s).acq.timeTag = s.acq.timeTag ∧
    (readyAtOnce t s).acq.wraps = s.acq.wraps ∧ (readyAtOnce t s).acq.nsPhase = s.acq.nsPhase ∧
    (readyAtOnce t s).acq.held = s.acq.held ∧ (readyAtOnce t s).acq.waves = s.acq.waves ∧
    (readyAtOnce t s).acq.selfRefresh = s.acq.selfRefresh ∧ (readyAtOnce t s).acq.memEpoch = s.acq.memEpoch ∧
    (readyAtOnce t s).acq.mem = s.acq.mem ∧ (readyAtOnce t s).acq.fresh = s.acq.fresh ∧
    (readyAtOnce t s).acq.serialCounter = s.acq.serialCounter ∧ (readyAtOnce t s).acq.single = s.acq.single ∧
    (readyAtOnce t s).acq.runKind = s.acq.runKind ∧ (readyAtOnce t s).acq.countDone = s.acq.countDone ∧
    (readyAtOnce t s).acq.lastDone = s.acq.lastDone ∧ (readyAtOnce t s).acq.prevLayout = s.acq.prevLayout ∧
    (readyAtOnce t s).mon = s.mon ∧ (readyAtOnce t s).raster = s.raster ∧
    (readyAtOnce t s).compose.frame = s.compose.frame ∧ (readyAtOnce t s).compose.palette = s.compose.palette ∧
    (readyAtOnce t s).compose.mode = s.compose.mode ∧ (readyAtOnce t s).compose.startCol = s.compose.startCol ∧
    (readyAtOnce t s).compose.cursor = s.compose.cursor ∧ (readyAtOnce t s).compose.mark = s.compose.mark ∧
    (readyAtOnce t s).compose.owned = s.compose.owned ∧ (readyAtOnce t s).compose.duty = s.compose.duty ∧
    (readyAtOnce t s).compose.frameTimer = s.compose.frameTimer ∧ (readyAtOnce t s).panel = s.panel ∧
    (readyAtOnce t s).store = s.store ∧ (readyAtOnce t s).power = s.power ∧ (readyAtOnce t s).link = s.link ∧
    (readyAtOnce t s).pins = s.pins ∧ (readyAtOnce t s).pending = s.pending := by
  simp only [readyAtOnce]
  (repeat' split) <;> simp

@[simp] theorem beginCapture_frame (k : Nat) (i : SegInfo) (s : State) :
    (beginCapture k i s).setup = s.setup ∧ (beginCapture k i s).gen = s.gen ∧
    (beginCapture k i s).acq.timeTag = s.acq.timeTag ∧ (beginCapture k i s).acq.wraps = s.acq.wraps ∧
    (beginCapture k i s).acq.nsPhase = s.acq.nsPhase ∧ (beginCapture k i s).acq.held = s.acq.held ∧
    (beginCapture k i s).acq.waves = s.acq.waves ∧ (beginCapture k i s).acq.selfRefresh = s.acq.selfRefresh ∧
    (beginCapture k i s).acq.memEpoch = s.acq.memEpoch ∧ (beginCapture k i s).acq.mem = s.acq.mem ∧
    (beginCapture k i s).acq.fresh = s.acq.fresh ∧ (beginCapture k i s).acq.serialCounter = s.acq.serialCounter ∧
    (beginCapture k i s).acq.single = s.acq.single ∧ (beginCapture k i s).acq.runKind = s.acq.runKind ∧
    (beginCapture k i s).acq.countDone = s.acq.countDone ∧ (beginCapture k i s).acq.lastDone = s.acq.lastDone ∧
    (beginCapture k i s).acq.prevLayout = s.acq.prevLayout ∧ (beginCapture k i s).mon = s.mon ∧
    (beginCapture k i s).raster = s.raster ∧ (beginCapture k i s).compose.frame = s.compose.frame ∧
    (beginCapture k i s).compose.palette = s.compose.palette ∧ (beginCapture k i s).compose.mode = s.compose.mode ∧
    (beginCapture k i s).compose.startCol = s.compose.startCol ∧ (beginCapture k i s).compose.cursor = s.compose.cursor ∧
    (beginCapture k i s).compose.mark = s.compose.mark ∧ (beginCapture k i s).compose.owned = s.compose.owned ∧
    (beginCapture k i s).compose.duty = s.compose.duty ∧ (beginCapture k i s).compose.frameTimer = s.compose.frameTimer ∧
    (beginCapture k i s).panel = s.panel ∧ (beginCapture k i s).store = s.store ∧ (beginCapture k i s).power = s.power ∧
    (beginCapture k i s).link = s.link ∧ (beginCapture k i s).pins = s.pins ∧ (beginCapture k i s).pending = s.pending := by
  simp only [beginCapture]
  (repeat' split) <;> simp

@[simp] theorem arm_frame (k : Nat) (s : State) :
    (arm k s).setup = s.setup ∧ (arm k s).gen = s.gen ∧ (arm k s).acq.timeTag = s.acq.timeTag ∧
    (arm k s).acq.wraps = s.acq.wraps ∧ (arm k s).acq.nsPhase = s.acq.nsPhase ∧ (arm k s).acq.held = s.acq.held ∧
    (arm k s).acq.waves = s.acq.waves ∧ (arm k s).acq.selfRefresh = s.acq.selfRefresh ∧
    (arm k s).acq.memEpoch = s.acq.memEpoch ∧ (arm k s).acq.mem = s.acq.mem ∧ (arm k s).acq.fresh = s.acq.fresh ∧
    (arm k s).acq.serialCounter = s.acq.serialCounter ∧ (arm k s).acq.single = s.acq.single ∧
    (arm k s).acq.runKind = s.acq.runKind ∧ (arm k s).acq.countDone = s.acq.countDone ∧
    (arm k s).acq.lastDone = s.acq.lastDone ∧ (arm k s).mon = s.mon ∧ (arm k s).raster = s.raster ∧
    (arm k s).compose.frame = s.compose.frame ∧ (arm k s).compose.palette = s.compose.palette ∧
    (arm k s).compose.mode = s.compose.mode ∧ (arm k s).compose.startCol = s.compose.startCol ∧
    (arm k s).compose.cursor = s.compose.cursor ∧ (arm k s).compose.mark = s.compose.mark ∧
    (arm k s).compose.owned = s.compose.owned ∧ (arm k s).compose.duty = s.compose.duty ∧
    (arm k s).compose.frameTimer = s.compose.frameTimer ∧ (arm k s).panel = s.panel ∧ (arm k s).store = s.store ∧
    (arm k s).power = s.power ∧ (arm k s).link.inbound = s.link.inbound ∧ (arm k s).link.answers = s.link.answers ∧
    (arm k s).link.inPeriod = s.link.inPeriod ∧ (arm k s).link.clocked = s.link.clocked ∧
    (arm k s).link.gathered = s.link.gathered ∧ (arm k s).link.ignoring = s.link.ignoring ∧
    (arm k s).link.sending = s.link.sending ∧ (arm k s).link.partly = s.link.partly ∧ (arm k s).pins = s.pins ∧
    (arm k s).pending = s.pending := by
  simp only [arm]
  (repeat' split) <;> simp

@[simp] theorem armRepeat_frame (s : State) :
    (armRepeat s).setup = s.setup ∧ (armRepeat s).gen = s.gen ∧ (armRepeat s).acq.timeTag = s.acq.timeTag ∧
    (armRepeat s).acq.wraps = s.acq.wraps ∧ (armRepeat s).acq.nsPhase = s.acq.nsPhase ∧
    (armRepeat s).acq.held = s.acq.held ∧ (armRepeat s).acq.waves = s.acq.waves ∧
    (armRepeat s).acq.selfRefresh = s.acq.selfRefresh ∧ (armRepeat s).acq.memEpoch = s.acq.memEpoch ∧
    (armRepeat s).acq.mem = s.acq.mem ∧ (armRepeat s).acq.fresh = s.acq.fresh ∧
    (armRepeat s).acq.serialCounter = s.acq.serialCounter ∧ (armRepeat s).acq.single = s.acq.single ∧
    (armRepeat s).acq.runKind = s.acq.runKind ∧ (armRepeat s).acq.countDone = s.acq.countDone ∧
    (armRepeat s).acq.lastDone = s.acq.lastDone ∧ (armRepeat s).mon = s.mon ∧ (armRepeat s).raster = s.raster ∧
    (armRepeat s).compose.frame = s.compose.frame ∧ (armRepeat s).compose.palette = s.compose.palette ∧
    (armRepeat s).compose.mode = s.compose.mode ∧ (armRepeat s).compose.startCol = s.compose.startCol ∧
    (armRepeat s).compose.cursor = s.compose.cursor ∧ (armRepeat s).compose.mark = s.compose.mark ∧
    (armRepeat s).compose.owned = s.compose.owned ∧ (armRepeat s).compose.duty = s.compose.duty ∧
    (armRepeat s).compose.frameTimer = s.compose.frameTimer ∧ (armRepeat s).panel = s.panel ∧
    (armRepeat s).store = s.store ∧ (armRepeat s).power = s.power ∧ (armRepeat s).link.inbound = s.link.inbound ∧
    (armRepeat s).link.answers = s.link.answers ∧ (armRepeat s).link.inPeriod = s.link.inPeriod ∧
    (armRepeat s).link.clocked = s.link.clocked ∧ (armRepeat s).link.gathered = s.link.gathered ∧
    (armRepeat s).link.ignoring = s.link.ignoring ∧ (armRepeat s).link.sending = s.link.sending ∧
    (armRepeat s).link.partly = s.link.partly ∧ (armRepeat s).pins = s.pins ∧ (armRepeat s).pending = s.pending := by
  simp only [armRepeat]
  (repeat' split) <;> simp

@[simp] theorem beginRoll_frame (g : Geometry) (s : State) :
    (beginRoll g s).setup = s.setup ∧ (beginRoll g s).gen = s.gen ∧ (beginRoll g s).acq.timeTag = s.acq.timeTag ∧
    (beginRoll g s).acq.wraps = s.acq.wraps ∧ (beginRoll g s).acq.nsPhase = s.acq.nsPhase ∧
    (beginRoll g s).acq.held = s.acq.held ∧ (beginRoll g s).acq.waves = s.acq.waves ∧
    (beginRoll g s).acq.selfRefresh = s.acq.selfRefresh ∧ (beginRoll g s).acq.memEpoch = s.acq.memEpoch ∧
    (beginRoll g s).acq.fresh = s.acq.fresh ∧ (beginRoll g s).acq.serialCounter = s.acq.serialCounter ∧
    (beginRoll g s).acq.single = s.acq.single ∧ (beginRoll g s).acq.countDone = s.acq.countDone ∧
    (beginRoll g s).acq.lastDone = s.acq.lastDone ∧ (beginRoll g s).mon = s.mon ∧
    (beginRoll g s).compose.frame = s.compose.frame ∧ (beginRoll g s).compose.palette = s.compose.palette ∧
    (beginRoll g s).compose.mode = s.compose.mode ∧ (beginRoll g s).compose.startCol = s.compose.startCol ∧
    (beginRoll g s).compose.cursor = s.compose.cursor ∧ (beginRoll g s).compose.mark = s.compose.mark ∧
    (beginRoll g s).compose.owned = s.compose.owned ∧ (beginRoll g s).compose.duty = s.compose.duty ∧
    (beginRoll g s).compose.frameTimer = s.compose.frameTimer ∧ (beginRoll g s).panel = s.panel ∧
    (beginRoll g s).store = s.store ∧ (beginRoll g s).power = s.power ∧ (beginRoll g s).link.inbound = s.link.inbound ∧
    (beginRoll g s).link.answers = s.link.answers ∧ (beginRoll g s).link.inPeriod = s.link.inPeriod ∧
    (beginRoll g s).link.clocked = s.link.clocked ∧ (beginRoll g s).link.gathered = s.link.gathered ∧
    (beginRoll g s).link.ignoring = s.link.ignoring ∧ (beginRoll g s).link.sending = s.link.sending ∧
    (beginRoll g s).link.partly = s.link.partly ∧ (beginRoll g s).pins = s.pins ∧ (beginRoll g s).pending = s.pending := by
  simp only [beginRoll]
  (repeat' split) <;> simp

@[simp] theorem enterRoll_frame (s : State) :
    (enterRoll s).setup = s.setup ∧ (enterRoll s).gen = s.gen ∧ (enterRoll s).acq.timeTag = s.acq.timeTag ∧
    (enterRoll s).acq.wraps = s.acq.wraps ∧ (enterRoll s).acq.nsPhase = s.acq.nsPhase ∧
    (enterRoll s).acq.held = s.acq.held ∧ (enterRoll s).acq.waves = s.acq.waves ∧
    (enterRoll s).acq.selfRefresh = s.acq.selfRefresh ∧ (enterRoll s).acq.memEpoch = s.acq.memEpoch ∧
    (enterRoll s).acq.serialCounter = s.acq.serialCounter ∧ (enterRoll s).acq.single = s.acq.single ∧
    (enterRoll s).acq.countDone = s.acq.countDone ∧ (enterRoll s).acq.lastDone = s.acq.lastDone ∧
    (enterRoll s).mon = s.mon ∧ (enterRoll s).compose.frame = s.compose.frame ∧
    (enterRoll s).compose.palette = s.compose.palette ∧ (enterRoll s).compose.mode = s.compose.mode ∧
    (enterRoll s).compose.startCol = s.compose.startCol ∧ (enterRoll s).compose.cursor = s.compose.cursor ∧
    (enterRoll s).compose.mark = s.compose.mark ∧ (enterRoll s).compose.owned = s.compose.owned ∧
    (enterRoll s).compose.duty = s.compose.duty ∧ (enterRoll s).compose.frameTimer = s.compose.frameTimer ∧
    (enterRoll s).panel = s.panel ∧ (enterRoll s).store = s.store ∧ (enterRoll s).power = s.power ∧
    (enterRoll s).link.inbound = s.link.inbound ∧ (enterRoll s).link.answers = s.link.answers ∧
    (enterRoll s).link.inPeriod = s.link.inPeriod ∧ (enterRoll s).link.clocked = s.link.clocked ∧
    (enterRoll s).link.gathered = s.link.gathered ∧ (enterRoll s).link.ignoring = s.link.ignoring ∧
    (enterRoll s).link.sending = s.link.sending ∧ (enterRoll s).link.partly = s.link.partly ∧ (enterRoll s).pins = s.pins ∧
    (enterRoll s).pending = s.pending := by
  simp only [enterRoll]
  (repeat' split) <;> simp

@[simp] theorem armRepeatOrRoll_frame (s : State) :
    (armRepeatOrRoll s).setup = s.setup ∧ (armRepeatOrRoll s).gen = s.gen ∧
    (armRepeatOrRoll s).acq.timeTag = s.acq.timeTag ∧ (armRepeatOrRoll s).acq.wraps = s.acq.wraps ∧
    (armRepeatOrRoll s).acq.nsPhase = s.acq.nsPhase ∧ (armRepeatOrRoll s).acq.held = s.acq.held ∧
    (armRepeatOrRoll s).acq.waves = s.acq.waves ∧ (armRepeatOrRoll s).acq.selfRefresh = s.acq.selfRefresh ∧
    (armRepeatOrRoll s).acq.memEpoch = s.acq.memEpoch ∧ (armRepeatOrRoll s).acq.serialCounter = s.acq.serialCounter ∧
    (armRepeatOrRoll s).acq.single = s.acq.single ∧ (armRepeatOrRoll s).acq.countDone = s.acq.countDone ∧
    (armRepeatOrRoll s).acq.lastDone = s.acq.lastDone ∧ (armRepeatOrRoll s).mon = s.mon ∧
    (armRepeatOrRoll s).compose.frame = s.compose.frame ∧ (armRepeatOrRoll s).compose.palette = s.compose.palette ∧
    (armRepeatOrRoll s).compose.mode = s.compose.mode ∧ (armRepeatOrRoll s).compose.startCol = s.compose.startCol ∧
    (armRepeatOrRoll s).compose.cursor = s.compose.cursor ∧ (armRepeatOrRoll s).compose.mark = s.compose.mark ∧
    (armRepeatOrRoll s).compose.owned = s.compose.owned ∧ (armRepeatOrRoll s).compose.duty = s.compose.duty ∧
    (armRepeatOrRoll s).compose.frameTimer = s.compose.frameTimer ∧ (armRepeatOrRoll s).panel = s.panel ∧
    (armRepeatOrRoll s).store = s.store ∧ (armRepeatOrRoll s).power = s.power ∧
    (armRepeatOrRoll s).link.inbound = s.link.inbound ∧ (armRepeatOrRoll s).link.answers = s.link.answers ∧
    (armRepeatOrRoll s).link.inPeriod = s.link.inPeriod ∧ (armRepeatOrRoll s).link.clocked = s.link.clocked ∧
    (armRepeatOrRoll s).link.gathered = s.link.gathered ∧ (armRepeatOrRoll s).link.ignoring = s.link.ignoring ∧
    (armRepeatOrRoll s).link.sending = s.link.sending ∧ (armRepeatOrRoll s).link.partly = s.link.partly ∧
    (armRepeatOrRoll s).pins = s.pins ∧ (armRepeatOrRoll s).pending = s.pending := by
  simp only [armRepeatOrRoll]
  (repeat' split) <;> simp

@[simp] theorem startSegmented_frame (s : State) :
    (startSegmented s).setup = s.setup ∧ (startSegmented s).gen = s.gen ∧ (startSegmented s).acq.timeTag = s.acq.timeTag ∧
    (startSegmented s).acq.wraps = s.acq.wraps ∧ (startSegmented s).acq.nsPhase = s.acq.nsPhase ∧
    (startSegmented s).acq.held = s.acq.held ∧ (startSegmented s).acq.waves = s.acq.waves ∧
    (startSegmented s).acq.selfRefresh = s.acq.selfRefresh ∧ (startSegmented s).acq.memEpoch = s.acq.memEpoch ∧
    (startSegmented s).acq.mem = s.acq.mem ∧ (startSegmented s).acq.fresh = s.acq.fresh ∧
    (startSegmented s).acq.serialCounter = s.acq.serialCounter ∧ (startSegmented s).acq.single = s.acq.single ∧
    (startSegmented s).mon = s.mon ∧ (startSegmented s).raster = s.raster ∧
    (startSegmented s).compose.frame = s.compose.frame ∧ (startSegmented s).compose.palette = s.compose.palette ∧
    (startSegmented s).compose.mode = s.compose.mode ∧ (startSegmented s).compose.startCol = s.compose.startCol ∧
    (startSegmented s).compose.cursor = s.compose.cursor ∧ (startSegmented s).compose.mark = s.compose.mark ∧
    (startSegmented s).compose.owned = s.compose.owned ∧ (startSegmented s).compose.duty = s.compose.duty ∧
    (startSegmented s).compose.frameTimer = s.compose.frameTimer ∧ (startSegmented s).panel = s.panel ∧
    (startSegmented s).store = s.store ∧ (startSegmented s).power = s.power ∧
    (startSegmented s).link.inbound = s.link.inbound ∧ (startSegmented s).link.answers = s.link.answers ∧
    (startSegmented s).link.inPeriod = s.link.inPeriod ∧ (startSegmented s).link.clocked = s.link.clocked ∧
    (startSegmented s).link.gathered = s.link.gathered ∧ (startSegmented s).link.ignoring = s.link.ignoring ∧
    (startSegmented s).link.sending = s.link.sending ∧ (startSegmented s).link.partly = s.link.partly ∧
    (startSegmented s).pins = s.pins ∧ (startSegmented s).pending = s.pending := by
  simp only [startSegmented]
  (repeat' split) <;> simp

@[simp] theorem launch_frame (s : State) :
    (launch s).setup = s.setup ∧ (launch s).gen = s.gen ∧ (launch s).acq.timeTag = s.acq.timeTag ∧
    (launch s).acq.wraps = s.acq.wraps ∧ (launch s).acq.nsPhase = s.acq.nsPhase ∧ (launch s).acq.held = s.acq.held ∧
    (launch s).acq.waves = s.acq.waves ∧ (launch s).acq.selfRefresh = s.acq.selfRefresh ∧
    (launch s).acq.memEpoch = s.acq.memEpoch ∧ (launch s).acq.serialCounter = s.acq.serialCounter ∧
    (launch s).acq.single = s.acq.single ∧ (launch s).mon = s.mon ∧ (launch s).compose.frame = s.compose.frame ∧
    (launch s).compose.palette = s.compose.palette ∧ (launch s).compose.mode = s.compose.mode ∧
    (launch s).compose.startCol = s.compose.startCol ∧ (launch s).compose.cursor = s.compose.cursor ∧
    (launch s).compose.mark = s.compose.mark ∧ (launch s).compose.owned = s.compose.owned ∧
    (launch s).compose.duty = s.compose.duty ∧ (launch s).compose.frameTimer = s.compose.frameTimer ∧
    (launch s).panel = s.panel ∧ (launch s).store = s.store ∧ (launch s).power = s.power ∧
    (launch s).link.inbound = s.link.inbound ∧ (launch s).link.answers = s.link.answers ∧
    (launch s).link.inPeriod = s.link.inPeriod ∧ (launch s).link.clocked = s.link.clocked ∧
    (launch s).link.gathered = s.link.gathered ∧ (launch s).link.ignoring = s.link.ignoring ∧
    (launch s).link.sending = s.link.sending ∧ (launch s).link.partly = s.link.partly ∧ (launch s).pins = s.pins ∧
    (launch s).pending = s.pending := by
  simp only [launch]
  (repeat' split) <;> simp

@[simp] theorem startRun_frame (b : Bool) (s : State) :
    (startRun b s).setup = s.setup ∧ (startRun b s).gen = s.gen ∧ (startRun b s).acq.timeTag = s.acq.timeTag ∧
    (startRun b s).acq.wraps = s.acq.wraps ∧ (startRun b s).acq.nsPhase = s.acq.nsPhase ∧
    (startRun b s).acq.held = s.acq.held ∧ (startRun b s).acq.waves = s.acq.waves ∧
    (startRun b s).acq.selfRefresh = s.acq.selfRefresh ∧ (startRun b s).acq.memEpoch = s.acq.memEpoch ∧
    (startRun b s).acq.serialCounter = s.acq.serialCounter ∧ (startRun b s).mon = s.mon ∧
    (startRun b s).compose.frame = s.compose.frame ∧ (startRun b s).compose.palette = s.compose.palette ∧
    (startRun b s).compose.mode = s.compose.mode ∧ (startRun b s).compose.startCol = s.compose.startCol ∧
    (startRun b s).compose.cursor = s.compose.cursor ∧ (startRun b s).compose.mark = s.compose.mark ∧
    (startRun b s).compose.owned = s.compose.owned ∧ (startRun b s).compose.duty = s.compose.duty ∧
    (startRun b s).compose.frameTimer = s.compose.frameTimer ∧ (startRun b s).panel = s.panel ∧
    (startRun b s).store = s.store ∧ (startRun b s).power = s.power ∧ (startRun b s).link.inbound = s.link.inbound ∧
    (startRun b s).link.answers = s.link.answers ∧ (startRun b s).link.inPeriod = s.link.inPeriod ∧
    (startRun b s).link.clocked = s.link.clocked ∧ (startRun b s).link.gathered = s.link.gathered ∧
    (startRun b s).link.ignoring = s.link.ignoring ∧ (startRun b s).link.sending = s.link.sending ∧
    (startRun b s).link.partly = s.link.partly ∧ (startRun b s).pins = s.pins ∧ (startRun b s).pending = s.pending := by
  simp only [startRun]
  (repeat' split) <;> simp

@[simp] theorem enterStopped_frame (s : State) :
    (enterStopped s).setup = s.setup ∧ (enterStopped s).gen = s.gen ∧ (enterStopped s).acq.timeTag = s.acq.timeTag ∧
    (enterStopped s).acq.wraps = s.acq.wraps ∧ (enterStopped s).acq.nsPhase = s.acq.nsPhase ∧
    (enterStopped s).acq.held = s.acq.held ∧ (enterStopped s).acq.waves = s.acq.waves ∧
    (enterStopped s).acq.selfRefresh = s.acq.selfRefresh ∧ (enterStopped s).acq.memEpoch = s.acq.memEpoch ∧
    (enterStopped s).acq.mem = s.acq.mem ∧ (enterStopped s).acq.fresh = s.acq.fresh ∧
    (enterStopped s).acq.serialCounter = s.acq.serialCounter ∧ (enterStopped s).acq.segs = s.acq.segs ∧
    (enterStopped s).acq.lastTrig = s.acq.lastTrig ∧ (enterStopped s).acq.countDone = s.acq.countDone ∧
    (enterStopped s).acq.lastDone = s.acq.lastDone ∧ (enterStopped s).acq.prevLayout = s.acq.prevLayout ∧
    (enterStopped s).mon = s.mon ∧ (enterStopped s).raster = s.raster ∧ (enterStopped s).compose.frame = s.compose.frame ∧
    (enterStopped s).compose.palette = s.compose.palette ∧ (enterStopped s).compose.mode = s.compose.mode ∧
    (enterStopped s).compose.startCol = s.compose.startCol ∧ (enterStopped s).compose.cursor = s.compose.cursor ∧
    (enterStopped s).compose.mark = s.compose.mark ∧ (enterStopped s).compose.owned = s.compose.owned ∧
    (enterStopped s).compose.duty = s.compose.duty ∧ (enterStopped s).compose.frameTimer = s.compose.frameTimer ∧
    (enterStopped s).panel = s.panel ∧ (enterStopped s).store = s.store ∧ (enterStopped s).power = s.power ∧
    (enterStopped s).link.inbound = s.link.inbound ∧ (enterStopped s).link.answers = s.link.answers ∧
    (enterStopped s).link.inPeriod = s.link.inPeriod ∧ (enterStopped s).link.clocked = s.link.clocked ∧
    (enterStopped s).link.gathered = s.link.gathered ∧ (enterStopped s).link.ignoring = s.link.ignoring ∧
    (enterStopped s).link.sending = s.link.sending ∧ (enterStopped s).link.partly = s.link.partly ∧
    (enterStopped s).pins = s.pins ∧ (enterStopped s).pending = s.pending := by
  simp only [enterStopped]
  (repeat' split) <;> simp

@[simp] theorem armHeld_frame (s : State) :
    (armHeld s).setup = s.setup ∧ (armHeld s).gen = s.gen ∧ (armHeld s).acq.timeTag = s.acq.timeTag ∧
    (armHeld s).acq.wraps = s.acq.wraps ∧ (armHeld s).acq.nsPhase = s.acq.nsPhase ∧ (armHeld s).acq.held = s.acq.held ∧
    (armHeld s).acq.waves = s.acq.waves ∧ (armHeld s).acq.selfRefresh = s.acq.selfRefresh ∧
    (armHeld s).acq.memEpoch = s.acq.memEpoch ∧ (armHeld s).acq.serialCounter = s.acq.serialCounter ∧
    (armHeld s).acq.single = s.acq.single ∧ (armHeld s).acq.countDone = s.acq.countDone ∧
    (armHeld s).acq.lastDone = s.acq.lastDone ∧ (armHeld s).mon = s.mon ∧ (armHeld s).compose.frame = s.compose.frame ∧
    (armHeld s).compose.palette = s.compose.palette ∧ (armHeld s).compose.mode = s.compose.mode ∧
    (armHeld s).compose.startCol = s.compose.startCol ∧ (armHeld s).compose.cursor = s.compose.cursor ∧
    (armHeld s).compose.mark = s.compose.mark ∧ (armHeld s).compose.owned = s.compose.owned ∧
    (armHeld s).compose.duty = s.compose.duty ∧ (armHeld s).compose.frameTimer = s.compose.frameTimer ∧
    (armHeld s).panel = s.panel ∧ (armHeld s).store = s.store ∧ (armHeld s).power = s.power ∧
    (armHeld s).link.inbound = s.link.inbound ∧ (armHeld s).link.answers = s.link.answers ∧
    (armHeld s).link.inPeriod = s.link.inPeriod ∧ (armHeld s).link.clocked = s.link.clocked ∧
    (armHeld s).link.gathered = s.link.gathered ∧ (armHeld s).link.ignoring = s.link.ignoring ∧
    (armHeld s).link.sending = s.link.sending ∧ (armHeld s).link.partly = s.link.partly ∧ (armHeld s).pins = s.pins ∧
    (armHeld s).pending = s.pending := by
  simp only [armHeld]
  (repeat' split) <;> simp

@[simp] theorem makeDone_frame (k : Nat) (i : SegInfo) (s : State) :
    (makeDone k i s).setup = s.setup ∧ (makeDone k i s).gen = s.gen ∧ (makeDone k i s).acq.timeTag = s.acq.timeTag ∧
    (makeDone k i s).acq.wraps = s.acq.wraps ∧ (makeDone k i s).acq.nsPhase = s.acq.nsPhase ∧
    (makeDone k i s).acq.held = s.acq.held ∧ (makeDone k i s).acq.waves = s.acq.waves ∧
    (makeDone k i s).acq.selfRefresh = s.acq.selfRefresh ∧ (makeDone k i s).acq.memEpoch = s.acq.memEpoch ∧
    (makeDone k i s).acq.mem = s.acq.mem ∧ (makeDone k i s).acq.fresh = s.acq.fresh ∧
    (makeDone k i s).acq.single = s.acq.single ∧ (makeDone k i s).acq.runKind = s.acq.runKind ∧
    (makeDone k i s).acq.state = s.acq.state ∧ (makeDone k i s).acq.lastTrig = s.acq.lastTrig ∧
    (makeDone k i s).acq.prevLayout = s.acq.prevLayout ∧ (makeDone k i s).mon = s.mon ∧
    (makeDone k i s).raster = s.raster ∧ (makeDone k i s).compose = s.compose ∧ (makeDone k i s).panel = s.panel ∧
    (makeDone k i s).store = s.store ∧ (makeDone k i s).power = s.power ∧ (makeDone k i s).link = s.link ∧
    (makeDone k i s).pins = s.pins ∧ (makeDone k i s).pending = s.pending := by
  simp only [makeDone]
  (repeat' split) <;> simp

@[simp] theorem segRejectFollow_frame (o : SegOutcome) (s : State) :
    (segRejectFollow o s).setup = s.setup ∧ (segRejectFollow o s).gen = s.gen ∧ (segRejectFollow o s).acq = s.acq ∧
    (segRejectFollow o s).raster = s.raster ∧ (segRejectFollow o s).compose = s.compose ∧
    (segRejectFollow o s).panel = s.panel ∧ (segRejectFollow o s).store = s.store ∧ (segRejectFollow o s).power = s.power ∧
    (segRejectFollow o s).link.inbound = s.link.inbound ∧ (segRejectFollow o s).link.answers = s.link.answers ∧
    (segRejectFollow o s).link.inPeriod = s.link.inPeriod ∧ (segRejectFollow o s).link.clocked = s.link.clocked ∧
    (segRejectFollow o s).link.gathered = s.link.gathered ∧ (segRejectFollow o s).link.ignoring = s.link.ignoring ∧
    (segRejectFollow o s).link.sending = s.link.sending ∧ (segRejectFollow o s).link.partly = s.link.partly ∧
    (segRejectFollow o s).pins = s.pins ∧ (segRejectFollow o s).pending = s.pending := by
  simp only [segRejectFollow]
  (repeat' split) <;> simp

@[simp] theorem nextArm_frame (s : State) :
    (nextArm s).setup = s.setup ∧ (nextArm s).gen = s.gen ∧ (nextArm s).acq.timeTag = s.acq.timeTag ∧
    (nextArm s).acq.wraps = s.acq.wraps ∧ (nextArm s).acq.nsPhase = s.acq.nsPhase ∧ (nextArm s).acq.held = s.acq.held ∧
    (nextArm s).acq.waves = s.acq.waves ∧ (nextArm s).acq.selfRefresh = s.acq.selfRefresh ∧
    (nextArm s).acq.memEpoch = s.acq.memEpoch ∧ (nextArm s).acq.mem = s.acq.mem ∧ (nextArm s).acq.fresh = s.acq.fresh ∧
    (nextArm s).acq.serialCounter = s.acq.serialCounter ∧ (nextArm s).acq.single = s.acq.single ∧
    (nextArm s).acq.runKind = s.acq.runKind ∧ (nextArm s).acq.countDone = s.acq.countDone ∧
    (nextArm s).acq.lastDone = s.acq.lastDone ∧ (nextArm s).mon = s.mon ∧ (nextArm s).raster = s.raster ∧
    (nextArm s).compose.frame = s.compose.frame ∧ (nextArm s).compose.palette = s.compose.palette ∧
    (nextArm s).compose.mode = s.compose.mode ∧ (nextArm s).compose.startCol = s.compose.startCol ∧
    (nextArm s).compose.cursor = s.compose.cursor ∧ (nextArm s).compose.mark = s.compose.mark ∧
    (nextArm s).compose.owned = s.compose.owned ∧ (nextArm s).compose.duty = s.compose.duty ∧
    (nextArm s).compose.frameTimer = s.compose.frameTimer ∧ (nextArm s).panel = s.panel ∧ (nextArm s).store = s.store ∧
    (nextArm s).power = s.power ∧ (nextArm s).link.inbound = s.link.inbound ∧ (nextArm s).link.answers = s.link.answers ∧
    (nextArm s).link.inPeriod = s.link.inPeriod ∧ (nextArm s).link.clocked = s.link.clocked ∧
    (nextArm s).link.gathered = s.link.gathered ∧ (nextArm s).link.ignoring = s.link.ignoring ∧
    (nextArm s).link.sending = s.link.sending ∧ (nextArm s).link.partly = s.link.partly ∧ (nextArm s).pins = s.pins ∧
    (nextArm s).pending = s.pending := by
  simp only [nextArm]
  (repeat' split) <;> simp

@[simp] theorem afterDone_frame (k : Nat) (g : Geometry) (o : SegOutcome) (s : State) :
    (afterDone k g o s).setup = s.setup ∧ (afterDone k g o s).gen = s.gen ∧
    (afterDone k g o s).acq.timeTag = s.acq.timeTag ∧ (afterDone k g o s).acq.wraps = s.acq.wraps ∧
    (afterDone k g o s).acq.nsPhase = s.acq.nsPhase ∧ (afterDone k g o s).acq.held = s.acq.held ∧
    (afterDone k g o s).acq.waves = s.acq.waves ∧ (afterDone k g o s).acq.selfRefresh = s.acq.selfRefresh ∧
    (afterDone k g o s).acq.memEpoch = s.acq.memEpoch ∧ (afterDone k g o s).acq.mem = s.acq.mem ∧
    (afterDone k g o s).acq.fresh = s.acq.fresh ∧ (afterDone k g o s).acq.serialCounter = s.acq.serialCounter ∧
    (afterDone k g o s).acq.countDone = s.acq.countDone ∧ (afterDone k g o s).acq.lastDone = s.acq.lastDone ∧
    (afterDone k g o s).mon = s.mon ∧ (afterDone k g o s).raster.planes = s.raster.planes ∧
    (afterDone k g o s).raster.job = s.raster.job ∧ (afterDone k g o s).raster.view = s.raster.view ∧
    (afterDone k g o s).raster.writeCol = s.raster.writeCol ∧ (afterDone k g o s).raster.wrapped = s.raster.wrapped ∧
    (afterDone k g o s).compose.frame = s.compose.frame ∧ (afterDone k g o s).compose.palette = s.compose.palette ∧
    (afterDone k g o s).compose.mode = s.compose.mode ∧ (afterDone k g o s).compose.startCol = s.compose.startCol ∧
    (afterDone k g o s).compose.cursor = s.compose.cursor ∧ (afterDone k g o s).compose.mark = s.compose.mark ∧
    (afterDone k g o s).compose.owned = s.compose.owned ∧ (afterDone k g o s).compose.duty = s.compose.duty ∧
    (afterDone k g o s).compose.frameTimer = s.compose.frameTimer ∧ (afterDone k g o s).panel = s.panel ∧
    (afterDone k g o s).store = s.store ∧ (afterDone k g o s).power = s.power ∧
    (afterDone k g o s).link.inbound = s.link.inbound ∧ (afterDone k g o s).link.answers = s.link.answers ∧
    (afterDone k g o s).link.inPeriod = s.link.inPeriod ∧ (afterDone k g o s).link.clocked = s.link.clocked ∧
    (afterDone k g o s).link.gathered = s.link.gathered ∧ (afterDone k g o s).link.ignoring = s.link.ignoring ∧
    (afterDone k g o s).link.sending = s.link.sending ∧ (afterDone k g o s).link.partly = s.link.partly ∧
    (afterDone k g o s).pins = s.pins ∧ (afterDone k g o s).pending = s.pending := by
  simp only [afterDone]
  (repeat' split) <;> simp

@[simp] theorem recapture_frame (k : Nat) (i : SegInfo) (s : State) :
    (recapture k i s).setup = s.setup ∧ (recapture k i s).gen = s.gen ∧ (recapture k i s).acq.timeTag = s.acq.timeTag ∧
    (recapture k i s).acq.wraps = s.acq.wraps ∧ (recapture k i s).acq.nsPhase = s.acq.nsPhase ∧
    (recapture k i s).acq.held = s.acq.held ∧ (recapture k i s).acq.waves = s.acq.waves ∧
    (recapture k i s).acq.selfRefresh = s.acq.selfRefresh ∧ (recapture k i s).acq.memEpoch = s.acq.memEpoch ∧
    (recapture k i s).acq.mem = s.acq.mem ∧ (recapture k i s).acq.fresh = s.acq.fresh ∧
    (recapture k i s).acq.serialCounter = s.acq.serialCounter ∧ (recapture k i s).acq.single = s.acq.single ∧
    (recapture k i s).acq.runKind = s.acq.runKind ∧ (recapture k i s).acq.countDone = s.acq.countDone ∧
    (recapture k i s).acq.lastDone = s.acq.lastDone ∧ (recapture k i s).acq.prevLayout = s.acq.prevLayout ∧
    (recapture k i s).mon = s.mon ∧ (recapture k i s).raster = s.raster ∧
    (recapture k i s).compose.frame = s.compose.frame ∧ (recapture k i s).compose.palette = s.compose.palette ∧
    (recapture k i s).compose.mode = s.compose.mode ∧ (recapture k i s).compose.startCol = s.compose.startCol ∧
    (recapture k i s).compose.cursor = s.compose.cursor ∧ (recapture k i s).compose.mark = s.compose.mark ∧
    (recapture k i s).compose.owned = s.compose.owned ∧ (recapture k i s).compose.duty = s.compose.duty ∧
    (recapture k i s).compose.frameTimer = s.compose.frameTimer ∧ (recapture k i s).panel = s.panel ∧
    (recapture k i s).store = s.store ∧ (recapture k i s).power = s.power ∧ (recapture k i s).link = s.link ∧
    (recapture k i s).pins = s.pins ∧ (recapture k i s).pending = s.pending := by
  simp only [recapture]
  (repeat' split) <;> simp

@[simp] theorem finishSegment_frame (k : Nat) (i : SegInfo) (f : PerChan FlagSet) (m : PerChan Meas) (o : SegOutcome) (s : State) :
    (finishSegment k i f m o s).setup = s.setup ∧ (finishSegment k i f m o s).gen = s.gen ∧
    (finishSegment k i f m o s).acq.timeTag = s.acq.timeTag ∧ (finishSegment k i f m o s).acq.wraps = s.acq.wraps ∧
    (finishSegment k i f m o s).acq.nsPhase = s.acq.nsPhase ∧ (finishSegment k i f m o s).acq.held = s.acq.held ∧
    (finishSegment k i f m o s).acq.waves = s.acq.waves ∧ (finishSegment k i f m o s).acq.selfRefresh = s.acq.selfRefresh ∧
    (finishSegment k i f m o s).acq.memEpoch = s.acq.memEpoch ∧ (finishSegment k i f m o s).acq.mem = s.acq.mem ∧
    (finishSegment k i f m o s).acq.fresh = s.acq.fresh ∧ (finishSegment k i f m o s).raster.planes = s.raster.planes ∧
    (finishSegment k i f m o s).raster.job = s.raster.job ∧ (finishSegment k i f m o s).raster.view = s.raster.view ∧
    (finishSegment k i f m o s).raster.writeCol = s.raster.writeCol ∧
    (finishSegment k i f m o s).raster.wrapped = s.raster.wrapped ∧
    (finishSegment k i f m o s).compose.frame = s.compose.frame ∧
    (finishSegment k i f m o s).compose.palette = s.compose.palette ∧
    (finishSegment k i f m o s).compose.mode = s.compose.mode ∧
    (finishSegment k i f m o s).compose.startCol = s.compose.startCol ∧
    (finishSegment k i f m o s).compose.cursor = s.compose.cursor ∧
    (finishSegment k i f m o s).compose.mark = s.compose.mark ∧
    (finishSegment k i f m o s).compose.owned = s.compose.owned ∧
    (finishSegment k i f m o s).compose.duty = s.compose.duty ∧
    (finishSegment k i f m o s).compose.frameTimer = s.compose.frameTimer ∧ (finishSegment k i f m o s).panel = s.panel ∧
    (finishSegment k i f m o s).store = s.store ∧ (finishSegment k i f m o s).power = s.power ∧
    (finishSegment k i f m o s).link.inbound = s.link.inbound ∧ (finishSegment k i f m o s).link.answers = s.link.answers ∧
    (finishSegment k i f m o s).link.inPeriod = s.link.inPeriod ∧
    (finishSegment k i f m o s).link.clocked = s.link.clocked ∧
    (finishSegment k i f m o s).link.gathered = s.link.gathered ∧
    (finishSegment k i f m o s).link.ignoring = s.link.ignoring ∧
    (finishSegment k i f m o s).link.sending = s.link.sending ∧ (finishSegment k i f m o s).link.partly = s.link.partly ∧
    (finishSegment k i f m o s).pins = s.pins ∧ (finishSegment k i f m o s).pending = s.pending := by
  simp only [finishSegment]
  (repeat' split) <;> simp

@[simp] theorem captureEnd_frame (s : State) :
    (captureEnd s).setup = s.setup ∧ (captureEnd s).gen = s.gen ∧ (captureEnd s).acq.timeTag = s.acq.timeTag ∧
    (captureEnd s).acq.wraps = s.acq.wraps ∧ (captureEnd s).acq.nsPhase = s.acq.nsPhase ∧
    (captureEnd s).acq.held = s.acq.held ∧ (captureEnd s).acq.waves = s.acq.waves ∧
    (captureEnd s).acq.selfRefresh = s.acq.selfRefresh ∧ (captureEnd s).acq.memEpoch = s.acq.memEpoch ∧
    (captureEnd s).acq.mem = s.acq.mem ∧ (captureEnd s).acq.fresh = s.acq.fresh ∧
    (captureEnd s).raster.planes = s.raster.planes ∧ (captureEnd s).raster.job = s.raster.job ∧
    (captureEnd s).raster.view = s.raster.view ∧ (captureEnd s).raster.writeCol = s.raster.writeCol ∧
    (captureEnd s).raster.wrapped = s.raster.wrapped ∧ (captureEnd s).compose.frame = s.compose.frame ∧
    (captureEnd s).compose.palette = s.compose.palette ∧ (captureEnd s).compose.mode = s.compose.mode ∧
    (captureEnd s).compose.startCol = s.compose.startCol ∧ (captureEnd s).compose.cursor = s.compose.cursor ∧
    (captureEnd s).compose.mark = s.compose.mark ∧ (captureEnd s).compose.owned = s.compose.owned ∧
    (captureEnd s).compose.duty = s.compose.duty ∧ (captureEnd s).compose.frameTimer = s.compose.frameTimer ∧
    (captureEnd s).panel = s.panel ∧ (captureEnd s).store = s.store ∧ (captureEnd s).power = s.power ∧
    (captureEnd s).link.inbound = s.link.inbound ∧ (captureEnd s).link.answers = s.link.answers ∧
    (captureEnd s).link.inPeriod = s.link.inPeriod ∧ (captureEnd s).link.clocked = s.link.clocked ∧
    (captureEnd s).link.gathered = s.link.gathered ∧ (captureEnd s).link.ignoring = s.link.ignoring ∧
    (captureEnd s).link.sending = s.link.sending ∧ (captureEnd s).link.partly = s.link.partly ∧
    (captureEnd s).pins = s.pins ∧ (captureEnd s).pending = s.pending := by
  simp only [captureEnd]
  (repeat' split) <;> simp

@[simp] theorem acceptTrigger_frame (k : TrigKind) (t : Tick) (s : State) :
    (acceptTrigger k t s).setup = s.setup ∧ (acceptTrigger k t s).gen = s.gen ∧
    (acceptTrigger k t s).acq.timeTag = s.acq.timeTag ∧ (acceptTrigger k t s).acq.wraps = s.acq.wraps ∧
    (acceptTrigger k t s).acq.nsPhase = s.acq.nsPhase ∧ (acceptTrigger k t s).acq.held = s.acq.held ∧
    (acceptTrigger k t s).acq.waves = s.acq.waves ∧ (acceptTrigger k t s).acq.selfRefresh = s.acq.selfRefresh ∧
    (acceptTrigger k t s).acq.memEpoch = s.acq.memEpoch ∧ (acceptTrigger k t s).acq.mem = s.acq.mem ∧
    (acceptTrigger k t s).acq.fresh = s.acq.fresh ∧ (acceptTrigger k t s).raster.planes = s.raster.planes ∧
    (acceptTrigger k t s).raster.job = s.raster.job ∧ (acceptTrigger k t s).raster.view = s.raster.view ∧
    (acceptTrigger k t s).raster.writeCol = s.raster.writeCol ∧ (acceptTrigger k t s).raster.wrapped = s.raster.wrapped ∧
    (acceptTrigger k t s).compose.frame = s.compose.frame ∧ (acceptTrigger k t s).compose.palette = s.compose.palette ∧
    (acceptTrigger k t s).compose.mode = s.compose.mode ∧ (acceptTrigger k t s).compose.startCol = s.compose.startCol ∧
    (acceptTrigger k t s).compose.cursor = s.compose.cursor ∧ (acceptTrigger k t s).compose.mark = s.compose.mark ∧
    (acceptTrigger k t s).compose.owned = s.compose.owned ∧ (acceptTrigger k t s).compose.duty = s.compose.duty ∧
    (acceptTrigger k t s).compose.frameTimer = s.compose.frameTimer ∧ (acceptTrigger k t s).panel = s.panel ∧
    (acceptTrigger k t s).store = s.store ∧ (acceptTrigger k t s).power = s.power ∧
    (acceptTrigger k t s).link.inbound = s.link.inbound ∧ (acceptTrigger k t s).link.answers = s.link.answers ∧
    (acceptTrigger k t s).link.inPeriod = s.link.inPeriod ∧ (acceptTrigger k t s).link.clocked = s.link.clocked ∧
    (acceptTrigger k t s).link.gathered = s.link.gathered ∧ (acceptTrigger k t s).link.ignoring = s.link.ignoring ∧
    (acceptTrigger k t s).link.sending = s.link.sending ∧ (acceptTrigger k t s).link.partly = s.link.partly ∧
    (acceptTrigger k t s).pins = s.pins ∧ (acceptTrigger k t s).pending = s.pending := by
  simp only [acceptTrigger]
  (repeat' split) <;> simp

@[simp] theorem resetInterval_frame (s : State) :
    (resetInterval s).setup = s.setup ∧ (resetInterval s).gen = s.gen ∧ (resetInterval s).acq.timeTag = s.acq.timeTag ∧
    (resetInterval s).acq.wraps = s.acq.wraps ∧ (resetInterval s).acq.nsPhase = s.acq.nsPhase ∧
    (resetInterval s).acq.held = s.acq.held ∧ (resetInterval s).acq.waves = s.acq.waves ∧
    (resetInterval s).acq.selfRefresh = s.acq.selfRefresh ∧ (resetInterval s).acq.memEpoch = s.acq.memEpoch ∧
    (resetInterval s).acq.mem = s.acq.mem ∧ (resetInterval s).acq.fresh = s.acq.fresh ∧
    (resetInterval s).acq.serialCounter = s.acq.serialCounter ∧ (resetInterval s).acq.single = s.acq.single ∧
    (resetInterval s).acq.runKind = s.acq.runKind ∧ (resetInterval s).acq.state = s.acq.state ∧
    (resetInterval s).acq.segs = s.acq.segs ∧ (resetInterval s).acq.lastTrig = s.acq.lastTrig ∧
    (resetInterval s).acq.countDone = s.acq.countDone ∧ (resetInterval s).acq.lastDone = s.acq.lastDone ∧
    (resetInterval s).acq.prevLayout = s.acq.prevLayout ∧ (resetInterval s).mon = s.mon ∧
    (resetInterval s).raster = s.raster ∧ (resetInterval s).compose = s.compose ∧ (resetInterval s).panel = s.panel ∧
    (resetInterval s).store = s.store ∧ (resetInterval s).power = s.power ∧ (resetInterval s).link = s.link ∧
    (resetInterval s).pins = s.pins ∧ (resetInterval s).pending = s.pending := by
  simp only [resetInterval]
  (repeat' split) <;> simp

@[simp] theorem storePoint_frame (k q : Nat) (i : SegInfo) (s : State) :
    (storePoint k q i s).setup = s.setup ∧ (storePoint k q i s).gen = s.gen ∧
    (storePoint k q i s).acq.timeTag = s.acq.timeTag ∧ (storePoint k q i s).acq.wraps = s.acq.wraps ∧
    (storePoint k q i s).acq.nsPhase = s.acq.nsPhase ∧ (storePoint k q i s).acq.held = s.acq.held ∧
    (storePoint k q i s).acq.waves = s.acq.waves ∧ (storePoint k q i s).acq.selfRefresh = s.acq.selfRefresh ∧
    (storePoint k q i s).acq.memEpoch = s.acq.memEpoch ∧ (storePoint k q i s).acq.fresh = s.acq.fresh ∧
    (storePoint k q i s).acq.serialCounter = s.acq.serialCounter ∧ (storePoint k q i s).acq.single = s.acq.single ∧
    (storePoint k q i s).acq.runKind = s.acq.runKind ∧ (storePoint k q i s).acq.state = s.acq.state ∧
    (storePoint k q i s).acq.lastTrig = s.acq.lastTrig ∧ (storePoint k q i s).acq.countDone = s.acq.countDone ∧
    (storePoint k q i s).acq.lastDone = s.acq.lastDone ∧ (storePoint k q i s).acq.prevLayout = s.acq.prevLayout ∧
    (storePoint k q i s).mon = s.mon ∧ (storePoint k q i s).raster = s.raster ∧ (storePoint k q i s).compose = s.compose ∧
    (storePoint k q i s).panel = s.panel ∧ (storePoint k q i s).store = s.store ∧ (storePoint k q i s).power = s.power ∧
    (storePoint k q i s).link = s.link ∧ (storePoint k q i s).pins = s.pins ∧ (storePoint k q i s).pending = s.pending := by
  simp only [storePoint]
  (repeat' split) <;> simp

@[simp] theorem measurePoint_frame (q : Nat) (g : Geometry) (s : State) :
    (measurePoint q g s).setup = s.setup ∧ (measurePoint q g s).gen = s.gen ∧
    (measurePoint q g s).acq.timeTag = s.acq.timeTag ∧ (measurePoint q g s).acq.wraps = s.acq.wraps ∧
    (measurePoint q g s).acq.nsPhase = s.acq.nsPhase ∧ (measurePoint q g s).acq.held = s.acq.held ∧
    (measurePoint q g s).acq.waves = s.acq.waves ∧ (measurePoint q g s).acq.selfRefresh = s.acq.selfRefresh ∧
    (measurePoint q g s).acq.memEpoch = s.acq.memEpoch ∧ (measurePoint q g s).acq.mem = s.acq.mem ∧
    (measurePoint q g s).acq.fresh = s.acq.fresh ∧ (measurePoint q g s).acq.serialCounter = s.acq.serialCounter ∧
    (measurePoint q g s).acq.single = s.acq.single ∧ (measurePoint q g s).acq.runKind = s.acq.runKind ∧
    (measurePoint q g s).acq.state = s.acq.state ∧ (measurePoint q g s).acq.segs = s.acq.segs ∧
    (measurePoint q g s).acq.lastTrig = s.acq.lastTrig ∧ (measurePoint q g s).acq.countDone = s.acq.countDone ∧
    (measurePoint q g s).acq.lastDone = s.acq.lastDone ∧ (measurePoint q g s).acq.prevLayout = s.acq.prevLayout ∧
    (measurePoint q g s).mon = s.mon ∧ (measurePoint q g s).raster = s.raster ∧ (measurePoint q g s).compose = s.compose ∧
    (measurePoint q g s).panel = s.panel ∧ (measurePoint q g s).store = s.store ∧ (measurePoint q g s).power = s.power ∧
    (measurePoint q g s).link = s.link ∧ (measurePoint q g s).pins = s.pins ∧ (measurePoint q g s).pending = s.pending := by
  simp only [measurePoint]
  (repeat' split) <;> simp

@[simp] theorem writePoint_frame (s : State) :
    (writePoint s).setup = s.setup ∧ (writePoint s).gen = s.gen ∧ (writePoint s).acq.timeTag = s.acq.timeTag ∧
    (writePoint s).acq.wraps = s.acq.wraps ∧ (writePoint s).acq.nsPhase = s.acq.nsPhase ∧
    (writePoint s).acq.held = s.acq.held ∧ (writePoint s).acq.waves = s.acq.waves ∧
    (writePoint s).acq.selfRefresh = s.acq.selfRefresh ∧ (writePoint s).acq.memEpoch = s.acq.memEpoch ∧
    (writePoint s).acq.fresh = s.acq.fresh ∧ (writePoint s).acq.serialCounter = s.acq.serialCounter ∧
    (writePoint s).acq.single = s.acq.single ∧ (writePoint s).acq.runKind = s.acq.runKind ∧
    (writePoint s).acq.state = s.acq.state ∧ (writePoint s).acq.lastTrig = s.acq.lastTrig ∧
    (writePoint s).acq.countDone = s.acq.countDone ∧ (writePoint s).acq.lastDone = s.acq.lastDone ∧
    (writePoint s).acq.prevLayout = s.acq.prevLayout ∧ (writePoint s).mon = s.mon ∧ (writePoint s).raster = s.raster ∧
    (writePoint s).compose = s.compose ∧ (writePoint s).panel = s.panel ∧ (writePoint s).store = s.store ∧
    (writePoint s).power = s.power ∧ (writePoint s).link = s.link ∧ (writePoint s).pins = s.pins ∧
    (writePoint s).pending = s.pending := by
  simp only [writePoint]
  (repeat' split) <;> simp

@[simp] theorem writeColumn_frame (s : State) :
    (writeColumn s).setup = s.setup ∧ (writeColumn s).gen = s.gen ∧ (writeColumn s).acq.timeTag = s.acq.timeTag ∧
    (writeColumn s).acq.wraps = s.acq.wraps ∧ (writeColumn s).acq.nsPhase = s.acq.nsPhase ∧
    (writeColumn s).acq.held = s.acq.held ∧ (writeColumn s).acq.waves = s.acq.waves ∧
    (writeColumn s).acq.selfRefresh = s.acq.selfRefresh ∧ (writeColumn s).acq.memEpoch = s.acq.memEpoch ∧
    (writeColumn s).acq.fresh = s.acq.fresh ∧ (writeColumn s).acq.serialCounter = s.acq.serialCounter ∧
    (writeColumn s).acq.single = s.acq.single ∧ (writeColumn s).acq.runKind = s.acq.runKind ∧
    (writeColumn s).acq.state = s.acq.state ∧ (writeColumn s).acq.lastTrig = s.acq.lastTrig ∧
    (writeColumn s).acq.countDone = s.acq.countDone ∧ (writeColumn s).acq.lastDone = s.acq.lastDone ∧
    (writeColumn s).acq.prevLayout = s.acq.prevLayout ∧ (writeColumn s).mon = s.mon ∧
    (writeColumn s).raster.list = s.raster.list ∧ (writeColumn s).raster.job = s.raster.job ∧
    (writeColumn s).raster.view = s.raster.view ∧ (writeColumn s).compose.frame = s.compose.frame ∧
    (writeColumn s).compose.palette = s.compose.palette ∧ (writeColumn s).compose.mode = s.compose.mode ∧
    (writeColumn s).compose.text = s.compose.text ∧ (writeColumn s).compose.cursor = s.compose.cursor ∧
    (writeColumn s).compose.mark = s.compose.mark ∧ (writeColumn s).compose.owned = s.compose.owned ∧
    (writeColumn s).compose.annot0 = s.compose.annot0 ∧ (writeColumn s).compose.annot29 = s.compose.annot29 ∧
    (writeColumn s).compose.duty = s.compose.duty ∧ (writeColumn s).compose.frameTimer = s.compose.frameTimer ∧
    (writeColumn s).panel = s.panel ∧ (writeColumn s).store = s.store ∧ (writeColumn s).power = s.power ∧
    (writeColumn s).link = s.link ∧ (writeColumn s).pins = s.pins ∧ (writeColumn s).pending = s.pending := by
  simp only [writeColumn]
  (repeat' split) <;> simp

@[simp] theorem becomeReady_frame (s : State) :
    (becomeReady s).setup = s.setup ∧ (becomeReady s).gen = s.gen ∧ (becomeReady s).acq.timeTag = s.acq.timeTag ∧
    (becomeReady s).acq.wraps = s.acq.wraps ∧ (becomeReady s).acq.nsPhase = s.acq.nsPhase ∧
    (becomeReady s).acq.held = s.acq.held ∧ (becomeReady s).acq.waves = s.acq.waves ∧
    (becomeReady s).acq.selfRefresh = s.acq.selfRefresh ∧ (becomeReady s).acq.memEpoch = s.acq.memEpoch ∧
    (becomeReady s).acq.mem = s.acq.mem ∧ (becomeReady s).acq.fresh = s.acq.fresh ∧
    (becomeReady s).raster.planes = s.raster.planes ∧ (becomeReady s).raster.job = s.raster.job ∧
    (becomeReady s).raster.view = s.raster.view ∧ (becomeReady s).raster.writeCol = s.raster.writeCol ∧
    (becomeReady s).raster.wrapped = s.raster.wrapped ∧ (becomeReady s).compose.frame = s.compose.frame ∧
    (becomeReady s).compose.palette = s.compose.palette ∧ (becomeReady s).compose.mode = s.compose.mode ∧
    (becomeReady s).compose.startCol = s.compose.startCol ∧ (becomeReady s).compose.cursor = s.compose.cursor ∧
    (becomeReady s).compose.mark = s.compose.mark ∧ (becomeReady s).compose.owned = s.compose.owned ∧
    (becomeReady s).compose.duty = s.compose.duty ∧ (becomeReady s).compose.frameTimer = s.compose.frameTimer ∧
    (becomeReady s).panel = s.panel ∧ (becomeReady s).store = s.store ∧ (becomeReady s).power = s.power ∧
    (becomeReady s).link.inbound = s.link.inbound ∧ (becomeReady s).link.answers = s.link.answers ∧
    (becomeReady s).link.inPeriod = s.link.inPeriod ∧ (becomeReady s).link.clocked = s.link.clocked ∧
    (becomeReady s).link.gathered = s.link.gathered ∧ (becomeReady s).link.ignoring = s.link.ignoring ∧
    (becomeReady s).link.sending = s.link.sending ∧ (becomeReady s).link.partly = s.link.partly ∧
    (becomeReady s).pins = s.pins ∧ (becomeReady s).pending = s.pending := by
  simp only [becomeReady]
  (repeat' split) <;> simp

@[simp] theorem fireAuto_frame (s : State) :
    (fireAuto s).setup = s.setup ∧ (fireAuto s).gen = s.gen ∧ (fireAuto s).acq.timeTag = s.acq.timeTag ∧
    (fireAuto s).acq.wraps = s.acq.wraps ∧ (fireAuto s).acq.nsPhase = s.acq.nsPhase ∧ (fireAuto s).acq.held = s.acq.held ∧
    (fireAuto s).acq.waves = s.acq.waves ∧ (fireAuto s).acq.selfRefresh = s.acq.selfRefresh ∧
    (fireAuto s).acq.memEpoch = s.acq.memEpoch ∧ (fireAuto s).acq.mem = s.acq.mem ∧ (fireAuto s).acq.fresh = s.acq.fresh ∧
    (fireAuto s).raster.planes = s.raster.planes ∧ (fireAuto s).raster.job = s.raster.job ∧
    (fireAuto s).raster.view = s.raster.view ∧ (fireAuto s).raster.writeCol = s.raster.writeCol ∧
    (fireAuto s).raster.wrapped = s.raster.wrapped ∧ (fireAuto s).compose.frame = s.compose.frame ∧
    (fireAuto s).compose.palette = s.compose.palette ∧ (fireAuto s).compose.mode = s.compose.mode ∧
    (fireAuto s).compose.startCol = s.compose.startCol ∧ (fireAuto s).compose.cursor = s.compose.cursor ∧
    (fireAuto s).compose.mark = s.compose.mark ∧ (fireAuto s).compose.owned = s.compose.owned ∧
    (fireAuto s).compose.duty = s.compose.duty ∧ (fireAuto s).compose.frameTimer = s.compose.frameTimer ∧
    (fireAuto s).panel = s.panel ∧ (fireAuto s).store = s.store ∧ (fireAuto s).power = s.power ∧
    (fireAuto s).link.inbound = s.link.inbound ∧ (fireAuto s).link.answers = s.link.answers ∧
    (fireAuto s).link.inPeriod = s.link.inPeriod ∧ (fireAuto s).link.clocked = s.link.clocked ∧
    (fireAuto s).link.gathered = s.link.gathered ∧ (fireAuto s).link.ignoring = s.link.ignoring ∧
    (fireAuto s).link.sending = s.link.sending ∧ (fireAuto s).link.partly = s.link.partly ∧ (fireAuto s).pins = s.pins ∧
    (fireAuto s).pending = s.pending := by
  simp only [fireAuto]
  (repeat' split) <;> simp

@[simp] theorem writeInterval_frame (s : State) :
    (writeInterval s).setup = s.setup ∧ (writeInterval s).gen = s.gen ∧ (writeInterval s).acq.timeTag = s.acq.timeTag ∧
    (writeInterval s).acq.wraps = s.acq.wraps ∧ (writeInterval s).acq.nsPhase = s.acq.nsPhase ∧
    (writeInterval s).acq.held = s.acq.held ∧ (writeInterval s).acq.waves = s.acq.waves ∧
    (writeInterval s).acq.selfRefresh = s.acq.selfRefresh ∧ (writeInterval s).acq.memEpoch = s.acq.memEpoch ∧
    (writeInterval s).acq.fresh = s.acq.fresh ∧ (writeInterval s).acq.serialCounter = s.acq.serialCounter ∧
    (writeInterval s).acq.single = s.acq.single ∧ (writeInterval s).acq.runKind = s.acq.runKind ∧
    (writeInterval s).acq.state = s.acq.state ∧ (writeInterval s).acq.lastTrig = s.acq.lastTrig ∧
    (writeInterval s).acq.countDone = s.acq.countDone ∧ (writeInterval s).acq.lastDone = s.acq.lastDone ∧
    (writeInterval s).acq.prevLayout = s.acq.prevLayout ∧ (writeInterval s).mon = s.mon ∧
    (writeInterval s).raster.list = s.raster.list ∧ (writeInterval s).raster.job = s.raster.job ∧
    (writeInterval s).raster.view = s.raster.view ∧ (writeInterval s).compose.frame = s.compose.frame ∧
    (writeInterval s).compose.palette = s.compose.palette ∧ (writeInterval s).compose.mode = s.compose.mode ∧
    (writeInterval s).compose.text = s.compose.text ∧ (writeInterval s).compose.cursor = s.compose.cursor ∧
    (writeInterval s).compose.mark = s.compose.mark ∧ (writeInterval s).compose.owned = s.compose.owned ∧
    (writeInterval s).compose.annot0 = s.compose.annot0 ∧ (writeInterval s).compose.annot29 = s.compose.annot29 ∧
    (writeInterval s).compose.duty = s.compose.duty ∧ (writeInterval s).compose.frameTimer = s.compose.frameTimer ∧
    (writeInterval s).panel = s.panel ∧ (writeInterval s).store = s.store ∧ (writeInterval s).power = s.power ∧
    (writeInterval s).link = s.link ∧ (writeInterval s).pins = s.pins ∧ (writeInterval s).pending = s.pending := by
  simp only [writeInterval]
  (repeat' split) <;> simp

@[simp] theorem endRoll_frame (s : State) :
    (endRoll s).setup = s.setup ∧ (endRoll s).gen = s.gen ∧ (endRoll s).acq.timeTag = s.acq.timeTag ∧
    (endRoll s).acq.wraps = s.acq.wraps ∧ (endRoll s).acq.nsPhase = s.acq.nsPhase ∧ (endRoll s).acq.held = s.acq.held ∧
    (endRoll s).acq.waves = s.acq.waves ∧ (endRoll s).acq.selfRefresh = s.acq.selfRefresh ∧
    (endRoll s).acq.memEpoch = s.acq.memEpoch ∧ (endRoll s).acq.mem = s.acq.mem ∧ (endRoll s).acq.fresh = s.acq.fresh ∧
    (endRoll s).acq.lastTrig = s.acq.lastTrig ∧ (endRoll s).acq.prevLayout = s.acq.prevLayout ∧
    (endRoll s).raster.list = s.raster.list ∧ (endRoll s).raster.job = s.raster.job ∧
    (endRoll s).compose.frame = s.compose.frame ∧ (endRoll s).compose.palette = s.compose.palette ∧
    (endRoll s).compose.mode = s.compose.mode ∧ (endRoll s).compose.cursor = s.compose.cursor ∧
    (endRoll s).compose.mark = s.compose.mark ∧ (endRoll s).compose.owned = s.compose.owned ∧
    (endRoll s).compose.duty = s.compose.duty ∧ (endRoll s).compose.frameTimer = s.compose.frameTimer ∧
    (endRoll s).panel = s.panel ∧ (endRoll s).store = s.store ∧ (endRoll s).power = s.power ∧
    (endRoll s).link.inbound = s.link.inbound ∧ (endRoll s).link.answers = s.link.answers ∧
    (endRoll s).link.inPeriod = s.link.inPeriod ∧ (endRoll s).link.clocked = s.link.clocked ∧
    (endRoll s).link.gathered = s.link.gathered ∧ (endRoll s).link.ignoring = s.link.ignoring ∧
    (endRoll s).link.sending = s.link.sending ∧ (endRoll s).link.partly = s.link.partly ∧ (endRoll s).pins = s.pins ∧
    (endRoll s).pending = s.pending := by
  simp only [endRoll]
  (repeat' split) <;> simp

@[simp] theorem accumulate_frame (c : PerChan Byte) (s : State) :
    (accumulate c s).setup = s.setup ∧ (accumulate c s).gen = s.gen ∧ (accumulate c s).acq.timeTag = s.acq.timeTag ∧
    (accumulate c s).acq.wraps = s.acq.wraps ∧ (accumulate c s).acq.nsPhase = s.acq.nsPhase ∧
    (accumulate c s).acq.held = s.acq.held ∧ (accumulate c s).acq.waves = s.acq.waves ∧
    (accumulate c s).acq.selfRefresh = s.acq.selfRefresh ∧ (accumulate c s).acq.memEpoch = s.acq.memEpoch ∧
    (accumulate c s).acq.mem = s.acq.mem ∧ (accumulate c s).acq.fresh = s.acq.fresh ∧
    (accumulate c s).acq.serialCounter = s.acq.serialCounter ∧ (accumulate c s).acq.single = s.acq.single ∧
    (accumulate c s).acq.runKind = s.acq.runKind ∧ (accumulate c s).acq.state = s.acq.state ∧
    (accumulate c s).acq.segs = s.acq.segs ∧ (accumulate c s).acq.lastTrig = s.acq.lastTrig ∧
    (accumulate c s).acq.countDone = s.acq.countDone ∧ (accumulate c s).acq.lastDone = s.acq.lastDone ∧
    (accumulate c s).acq.prevLayout = s.acq.prevLayout ∧ (accumulate c s).mon = s.mon ∧
    (accumulate c s).raster = s.raster ∧ (accumulate c s).compose = s.compose ∧ (accumulate c s).panel = s.panel ∧
    (accumulate c s).store = s.store ∧ (accumulate c s).power = s.power ∧ (accumulate c s).link = s.link ∧
    (accumulate c s).pins = s.pins ∧ (accumulate c s).pending = s.pending := by
  simp only [accumulate]
  (repeat' split) <;> simp

@[simp] theorem advanceNs_frame (s : State) :
    (advanceNs s).setup = s.setup ∧ (advanceNs s).gen = s.gen ∧ (advanceNs s).acq.held = s.acq.held ∧
    (advanceNs s).acq.waves = s.acq.waves ∧ (advanceNs s).acq.selfRefresh = s.acq.selfRefresh ∧
    (advanceNs s).acq.memEpoch = s.acq.memEpoch ∧ (advanceNs s).acq.mem = s.acq.mem ∧ (advanceNs s).acq.fresh = s.acq.fresh ∧
    (advanceNs s).acq.serialCounter = s.acq.serialCounter ∧ (advanceNs s).acq.single = s.acq.single ∧
    (advanceNs s).acq.runKind = s.acq.runKind ∧ (advanceNs s).acq.state = s.acq.state ∧ (advanceNs s).acq.segs = s.acq.segs ∧
    (advanceNs s).acq.lastTrig = s.acq.lastTrig ∧ (advanceNs s).acq.countDone = s.acq.countDone ∧
    (advanceNs s).acq.lastDone = s.acq.lastDone ∧ (advanceNs s).acq.prevLayout = s.acq.prevLayout ∧
    (advanceNs s).mon = s.mon ∧ (advanceNs s).raster = s.raster ∧ (advanceNs s).compose = s.compose ∧
    (advanceNs s).panel = s.panel ∧ (advanceNs s).store = s.store ∧ (advanceNs s).power = s.power ∧
    (advanceNs s).link = s.link ∧ (advanceNs s).pins = s.pins ∧ (advanceNs s).pending = s.pending := by
  simp only [advanceNs]
  (repeat' split) <;> simp

@[simp] theorem detect_frame (c : PerChan Byte) (e : Bool) (t : Tick) (s : State) :
    (detect c e t s).setup = s.setup ∧ (detect c e t s).gen = s.gen ∧ (detect c e t s).acq.timeTag = s.acq.timeTag ∧
    (detect c e t s).acq.wraps = s.acq.wraps ∧ (detect c e t s).acq.nsPhase = s.acq.nsPhase ∧
    (detect c e t s).acq.held = s.acq.held ∧ (detect c e t s).acq.waves = s.acq.waves ∧
    (detect c e t s).acq.selfRefresh = s.acq.selfRefresh ∧ (detect c e t s).acq.memEpoch = s.acq.memEpoch ∧
    (detect c e t s).acq.mem = s.acq.mem ∧ (detect c e t s).acq.fresh = s.acq.fresh ∧
    (detect c e t s).raster.planes = s.raster.planes ∧ (detect c e t s).raster.job = s.raster.job ∧
    (detect c e t s).raster.view = s.raster.view ∧ (detect c e t s).raster.writeCol = s.raster.writeCol ∧
    (detect c e t s).raster.wrapped = s.raster.wrapped ∧ (detect c e t s).compose.frame = s.compose.frame ∧
    (detect c e t s).compose.palette = s.compose.palette ∧ (detect c e t s).compose.mode = s.compose.mode ∧
    (detect c e t s).compose.startCol = s.compose.startCol ∧ (detect c e t s).compose.cursor = s.compose.cursor ∧
    (detect c e t s).compose.mark = s.compose.mark ∧ (detect c e t s).compose.owned = s.compose.owned ∧
    (detect c e t s).compose.duty = s.compose.duty ∧ (detect c e t s).compose.frameTimer = s.compose.frameTimer ∧
    (detect c e t s).panel = s.panel ∧ (detect c e t s).store = s.store ∧ (detect c e t s).power = s.power ∧
    (detect c e t s).link.inbound = s.link.inbound ∧ (detect c e t s).link.answers = s.link.answers ∧
    (detect c e t s).link.inPeriod = s.link.inPeriod ∧ (detect c e t s).link.clocked = s.link.clocked ∧
    (detect c e t s).link.gathered = s.link.gathered ∧ (detect c e t s).link.ignoring = s.link.ignoring ∧
    (detect c e t s).link.sending = s.link.sending ∧ (detect c e t s).link.partly = s.link.partly ∧
    (detect c e t s).pins = s.pins ∧ (detect c e t s).pending = s.pending := by
  simp only [detect]
  (repeat' split) <;> simp

@[simp] theorem settle_frame (s : State) :
    (settle s).setup = s.setup ∧ (settle s).gen = s.gen ∧ (settle s).acq.timeTag = s.acq.timeTag ∧
    (settle s).acq.wraps = s.acq.wraps ∧ (settle s).acq.nsPhase = s.acq.nsPhase ∧ (settle s).acq.held = s.acq.held ∧
    (settle s).acq.waves = s.acq.waves ∧ (settle s).acq.selfRefresh = s.acq.selfRefresh ∧
    (settle s).acq.memEpoch = s.acq.memEpoch ∧ (settle s).compose.frame = s.compose.frame ∧
    (settle s).compose.palette = s.compose.palette ∧ (settle s).compose.mode = s.compose.mode ∧
    (settle s).compose.cursor = s.compose.cursor ∧ (settle s).compose.mark = s.compose.mark ∧
    (settle s).compose.owned = s.compose.owned ∧ (settle s).compose.duty = s.compose.duty ∧
    (settle s).compose.frameTimer = s.compose.frameTimer ∧ (settle s).panel = s.panel ∧ (settle s).store = s.store ∧
    (settle s).power = s.power ∧ (settle s).link.inbound = s.link.inbound ∧ (settle s).link.answers = s.link.answers ∧
    (settle s).link.inPeriod = s.link.inPeriod ∧ (settle s).link.clocked = s.link.clocked ∧
    (settle s).link.gathered = s.link.gathered ∧ (settle s).link.ignoring = s.link.ignoring ∧
    (settle s).link.sending = s.link.sending ∧ (settle s).link.partly = s.link.partly ∧ (settle s).pins = s.pins ∧
    (settle s).pending = s.pending := by
  simp only [settle, whenDue]
  (repeat' split) <;> simp

@[simp] theorem takeCode_frame (s : State) (x : Sample) :
    (takeCode s x).setup = s.setup ∧ (takeCode s x).gen = s.gen ∧ (takeCode s x).acq.waves = s.acq.waves ∧
    (takeCode s x).acq.selfRefresh = s.acq.selfRefresh ∧ (takeCode s x).acq.memEpoch = s.acq.memEpoch ∧
    (takeCode s x).compose.frame = s.compose.frame ∧ (takeCode s x).compose.palette = s.compose.palette ∧
    (takeCode s x).compose.mode = s.compose.mode ∧ (takeCode s x).compose.cursor = s.compose.cursor ∧
    (takeCode s x).compose.mark = s.compose.mark ∧ (takeCode s x).compose.owned = s.compose.owned ∧
    (takeCode s x).compose.duty = s.compose.duty ∧ (takeCode s x).compose.frameTimer = s.compose.frameTimer ∧
    (takeCode s x).panel = s.panel ∧ (takeCode s x).store = s.store ∧ (takeCode s x).power = s.power ∧
    (takeCode s x).link.inbound = s.link.inbound ∧ (takeCode s x).link.answers = s.link.answers ∧
    (takeCode s x).link.inPeriod = s.link.inPeriod ∧ (takeCode s x).link.clocked = s.link.clocked ∧
    (takeCode s x).link.gathered = s.link.gathered ∧ (takeCode s x).link.ignoring = s.link.ignoring ∧
    (takeCode s x).link.sending = s.link.sending ∧ (takeCode s x).link.partly = s.link.partly ∧
    (takeCode s x).pins.lock = s.pins.lock ∧ (takeCode s x).pins.keys = s.pins.keys ∧
    (takeCode s x).pins.encA = s.pins.encA ∧ (takeCode s x).pins.encB = s.pins.encB ∧
    (takeCode s x).pins.linkSelLow = s.pins.linkSelLow ∧ (takeCode s x).pins.resetLow = s.pins.resetLow ∧
    (takeCode s x).pending = s.pending := by
  simp only [takeCode]
  (repeat' split) <;> simp

@[simp] theorem abandon_frame (s : State) :
    (abandon s).setup = s.setup ∧ (abandon s).gen = s.gen ∧ (abandon s).acq.timeTag = s.acq.timeTag ∧
    (abandon s).acq.wraps = s.acq.wraps ∧ (abandon s).acq.nsPhase = s.acq.nsPhase ∧ (abandon s).acq.held = s.acq.held ∧
    (abandon s).acq.waves = s.acq.waves ∧ (abandon s).acq.selfRefresh = s.acq.selfRefresh ∧
    (abandon s).acq.memEpoch = s.acq.memEpoch ∧ (abandon s).acq.mem = s.acq.mem ∧ (abandon s).acq.fresh = s.acq.fresh ∧
    (abandon s).acq.serialCounter = s.acq.serialCounter ∧ (abandon s).acq.single = s.acq.single ∧
    (abandon s).acq.runKind = s.acq.runKind ∧ (abandon s).acq.state = s.acq.state ∧
    (abandon s).acq.lastTrig = s.acq.lastTrig ∧ (abandon s).acq.countDone = s.acq.countDone ∧
    (abandon s).acq.lastDone = s.acq.lastDone ∧ (abandon s).acq.prevLayout = s.acq.prevLayout ∧ (abandon s).mon = s.mon ∧
    (abandon s).raster.list = s.raster.list ∧ (abandon s).raster.job = s.raster.job ∧
    (abandon s).compose.frame = s.compose.frame ∧ (abandon s).compose.palette = s.compose.palette ∧
    (abandon s).compose.mode = s.compose.mode ∧ (abandon s).compose.text = s.compose.text ∧
    (abandon s).compose.cursor = s.compose.cursor ∧ (abandon s).compose.mark = s.compose.mark ∧
    (abandon s).compose.owned = s.compose.owned ∧ (abandon s).compose.annot0 = s.compose.annot0 ∧
    (abandon s).compose.annot29 = s.compose.annot29 ∧ (abandon s).compose.duty = s.compose.duty ∧
    (abandon s).compose.frameTimer = s.compose.frameTimer ∧ (abandon s).panel = s.panel ∧ (abandon s).store = s.store ∧
    (abandon s).power = s.power ∧ (abandon s).link = s.link ∧ (abandon s).pins = s.pins ∧ (abandon s).pending = s.pending := by
  simp only [abandon]
  (repeat' split) <;> simp

@[simp] theorem acqChange_frame (s : State) :
    (acqChange s).setup = s.setup ∧ (acqChange s).gen = s.gen ∧ (acqChange s).acq.timeTag = s.acq.timeTag ∧
    (acqChange s).acq.wraps = s.acq.wraps ∧ (acqChange s).acq.nsPhase = s.acq.nsPhase ∧
    (acqChange s).acq.held = s.acq.held ∧ (acqChange s).acq.waves = s.acq.waves ∧
    (acqChange s).acq.selfRefresh = s.acq.selfRefresh ∧ (acqChange s).acq.memEpoch = s.acq.memEpoch ∧
    (acqChange s).acq.serialCounter = s.acq.serialCounter ∧ (acqChange s).acq.single = s.acq.single ∧
    (acqChange s).mon = s.mon ∧ (acqChange s).compose.frame = s.compose.frame ∧
    (acqChange s).compose.palette = s.compose.palette ∧ (acqChange s).compose.mode = s.compose.mode ∧
    (acqChange s).compose.cursor = s.compose.cursor ∧ (acqChange s).compose.mark = s.compose.mark ∧
    (acqChange s).compose.owned = s.compose.owned ∧ (acqChange s).compose.duty = s.compose.duty ∧
    (acqChange s).compose.frameTimer = s.compose.frameTimer ∧ (acqChange s).panel = s.panel ∧
    (acqChange s).store = s.store ∧ (acqChange s).power = s.power ∧ (acqChange s).link.inbound = s.link.inbound ∧
    (acqChange s).link.answers = s.link.answers ∧ (acqChange s).link.inPeriod = s.link.inPeriod ∧
    (acqChange s).link.clocked = s.link.clocked ∧ (acqChange s).link.gathered = s.link.gathered ∧
    (acqChange s).link.ignoring = s.link.ignoring ∧ (acqChange s).link.sending = s.link.sending ∧
    (acqChange s).link.partly = s.link.partly ∧ (acqChange s).pins = s.pins ∧ (acqChange s).pending = s.pending := by
  simp only [acqChange]
  (repeat' split) <;> simp

@[simp] theorem trigChange_frame (u : Setup) (s : State) :
    (trigChange u s).setup = s.setup ∧ (trigChange u s).gen = s.gen ∧ (trigChange u s).acq.timeTag = s.acq.timeTag ∧
    (trigChange u s).acq.wraps = s.acq.wraps ∧ (trigChange u s).acq.nsPhase = s.acq.nsPhase ∧
    (trigChange u s).acq.held = s.acq.held ∧ (trigChange u s).acq.waves = s.acq.waves ∧
    (trigChange u s).acq.selfRefresh = s.acq.selfRefresh ∧ (trigChange u s).acq.memEpoch = s.acq.memEpoch ∧
    (trigChange u s).acq.mem = s.acq.mem ∧ (trigChange u s).acq.fresh = s.acq.fresh ∧
    (trigChange u s).raster.planes = s.raster.planes ∧ (trigChange u s).raster.job = s.raster.job ∧
    (trigChange u s).raster.view = s.raster.view ∧ (trigChange u s).raster.writeCol = s.raster.writeCol ∧
    (trigChange u s).raster.wrapped = s.raster.wrapped ∧ (trigChange u s).compose.frame = s.compose.frame ∧
    (trigChange u s).compose.palette = s.compose.palette ∧ (trigChange u s).compose.mode = s.compose.mode ∧
    (trigChange u s).compose.startCol = s.compose.startCol ∧ (trigChange u s).compose.cursor = s.compose.cursor ∧
    (trigChange u s).compose.mark = s.compose.mark ∧ (trigChange u s).compose.owned = s.compose.owned ∧
    (trigChange u s).compose.duty = s.compose.duty ∧ (trigChange u s).compose.frameTimer = s.compose.frameTimer ∧
    (trigChange u s).panel = s.panel ∧ (trigChange u s).store = s.store ∧ (trigChange u s).power = s.power ∧
    (trigChange u s).link.inbound = s.link.inbound ∧ (trigChange u s).link.answers = s.link.answers ∧
    (trigChange u s).link.inPeriod = s.link.inPeriod ∧ (trigChange u s).link.clocked = s.link.clocked ∧
    (trigChange u s).link.gathered = s.link.gathered ∧ (trigChange u s).link.ignoring = s.link.ignoring ∧
    (trigChange u s).link.sending = s.link.sending ∧ (trigChange u s).link.partly = s.link.partly ∧
    (trigChange u s).pins = s.pins ∧ (trigChange u s).pending = s.pending := by
  simp only [trigChange]
  (repeat' split) <;> simp

@[simp] theorem stopAcq_frame (s : State) :
    (stopAcq s).setup = s.setup ∧ (stopAcq s).gen = s.gen ∧ (stopAcq s).acq.timeTag = s.acq.timeTag ∧
    (stopAcq s).acq.wraps = s.acq.wraps ∧ (stopAcq s).acq.nsPhase = s.acq.nsPhase ∧ (stopAcq s).acq.held = s.acq.held ∧
    (stopAcq s).acq.waves = s.acq.waves ∧ (stopAcq s).acq.selfRefresh = s.acq.selfRefresh ∧
    (stopAcq s).acq.memEpoch = s.acq.memEpoch ∧ (stopAcq s).acq.mem = s.acq.mem ∧ (stopAcq s).acq.fresh = s.acq.fresh ∧
    (stopAcq s).acq.lastTrig = s.acq.lastTrig ∧ (stopAcq s).acq.prevLayout = s.acq.prevLayout ∧
    (stopAcq s).raster.list = s.raster.list ∧ (stopAcq s).raster.job = s.raster.job ∧
    (stopAcq s).compose.frame = s.compose.frame ∧ (stopAcq s).compose.palette = s.compose.palette ∧
    (stopAcq s).compose.mode = s.compose.mode ∧ (stopAcq s).compose.cursor = s.compose.cursor ∧
    (stopAcq s).compose.mark = s.compose.mark ∧ (stopAcq s).compose.owned = s.compose.owned ∧
    (stopAcq s).compose.duty = s.compose.duty ∧ (stopAcq s).compose.frameTimer = s.compose.frameTimer ∧
    (stopAcq s).panel = s.panel ∧ (stopAcq s).store = s.store ∧ (stopAcq s).power = s.power ∧
    (stopAcq s).link.inbound = s.link.inbound ∧ (stopAcq s).link.answers = s.link.answers ∧
    (stopAcq s).link.inPeriod = s.link.inPeriod ∧ (stopAcq s).link.clocked = s.link.clocked ∧
    (stopAcq s).link.gathered = s.link.gathered ∧ (stopAcq s).link.ignoring = s.link.ignoring ∧
    (stopAcq s).link.sending = s.link.sending ∧ (stopAcq s).link.partly = s.link.partly ∧ (stopAcq s).pins = s.pins ∧
    (stopAcq s).pending = s.pending := by
  simp only [stopAcq]
  (repeat' split) <;> simp

@[simp] theorem runAcq_frame (s : State) :
    (runAcq s).setup = s.setup ∧ (runAcq s).gen = s.gen ∧ (runAcq s).acq.timeTag = s.acq.timeTag ∧
    (runAcq s).acq.wraps = s.acq.wraps ∧ (runAcq s).acq.nsPhase = s.acq.nsPhase ∧ (runAcq s).acq.held = s.acq.held ∧
    (runAcq s).acq.waves = s.acq.waves ∧ (runAcq s).acq.selfRefresh = s.acq.selfRefresh ∧
    (runAcq s).acq.memEpoch = s.acq.memEpoch ∧ (runAcq s).acq.serialCounter = s.acq.serialCounter ∧
    (runAcq s).mon = s.mon ∧ (runAcq s).compose.frame = s.compose.frame ∧ (runAcq s).compose.palette = s.compose.palette ∧
    (runAcq s).compose.mode = s.compose.mode ∧ (runAcq s).compose.cursor = s.compose.cursor ∧
    (runAcq s).compose.mark = s.compose.mark ∧ (runAcq s).compose.owned = s.compose.owned ∧
    (runAcq s).compose.duty = s.compose.duty ∧ (runAcq s).compose.frameTimer = s.compose.frameTimer ∧
    (runAcq s).panel = s.panel ∧ (runAcq s).store = s.store ∧ (runAcq s).power = s.power ∧
    (runAcq s).link.inbound = s.link.inbound ∧ (runAcq s).link.answers = s.link.answers ∧
    (runAcq s).link.inPeriod = s.link.inPeriod ∧ (runAcq s).link.clocked = s.link.clocked ∧
    (runAcq s).link.gathered = s.link.gathered ∧ (runAcq s).link.ignoring = s.link.ignoring ∧
    (runAcq s).link.sending = s.link.sending ∧ (runAcq s).link.partly = s.link.partly ∧ (runAcq s).pins = s.pins ∧
    (runAcq s).pending = s.pending := by
  simp only [runAcq]
  (repeat' split) <;> simp

@[simp] theorem singleAcq_frame (s : State) :
    (singleAcq s).setup = s.setup ∧ (singleAcq s).gen = s.gen ∧ (singleAcq s).acq.timeTag = s.acq.timeTag ∧
    (singleAcq s).acq.wraps = s.acq.wraps ∧ (singleAcq s).acq.nsPhase = s.acq.nsPhase ∧
    (singleAcq s).acq.held = s.acq.held ∧ (singleAcq s).acq.waves = s.acq.waves ∧
    (singleAcq s).acq.selfRefresh = s.acq.selfRefresh ∧ (singleAcq s).acq.memEpoch = s.acq.memEpoch ∧
    (singleAcq s).acq.serialCounter = s.acq.serialCounter ∧ (singleAcq s).mon = s.mon ∧
    (singleAcq s).compose.frame = s.compose.frame ∧ (singleAcq s).compose.palette = s.compose.palette ∧
    (singleAcq s).compose.mode = s.compose.mode ∧ (singleAcq s).compose.cursor = s.compose.cursor ∧
    (singleAcq s).compose.mark = s.compose.mark ∧ (singleAcq s).compose.owned = s.compose.owned ∧
    (singleAcq s).compose.duty = s.compose.duty ∧ (singleAcq s).compose.frameTimer = s.compose.frameTimer ∧
    (singleAcq s).panel = s.panel ∧ (singleAcq s).store = s.store ∧ (singleAcq s).power = s.power ∧
    (singleAcq s).link.inbound = s.link.inbound ∧ (singleAcq s).link.answers = s.link.answers ∧
    (singleAcq s).link.inPeriod = s.link.inPeriod ∧ (singleAcq s).link.clocked = s.link.clocked ∧
    (singleAcq s).link.gathered = s.link.gathered ∧ (singleAcq s).link.ignoring = s.link.ignoring ∧
    (singleAcq s).link.sending = s.link.sending ∧ (singleAcq s).link.partly = s.link.partly ∧ (singleAcq s).pins = s.pins ∧
    (singleAcq s).pending = s.pending := by
  simp only [singleAcq]
  (repeat' split) <;> simp

@[simp] theorem forceAcq_frame (s : State) :
    (forceAcq s).setup = s.setup ∧ (forceAcq s).gen = s.gen ∧ (forceAcq s).acq.timeTag = s.acq.timeTag ∧
    (forceAcq s).acq.wraps = s.acq.wraps ∧ (forceAcq s).acq.nsPhase = s.acq.nsPhase ∧ (forceAcq s).acq.held = s.acq.held ∧
    (forceAcq s).acq.waves = s.acq.waves ∧ (forceAcq s).acq.selfRefresh = s.acq.selfRefresh ∧
    (forceAcq s).acq.memEpoch = s.acq.memEpoch ∧ (forceAcq s).acq.mem = s.acq.mem ∧ (forceAcq s).acq.fresh = s.acq.fresh ∧
    (forceAcq s).raster.planes = s.raster.planes ∧ (forceAcq s).raster.job = s.raster.job ∧
    (forceAcq s).raster.view = s.raster.view ∧ (forceAcq s).raster.writeCol = s.raster.writeCol ∧
    (forceAcq s).raster.wrapped = s.raster.wrapped ∧ (forceAcq s).compose.frame = s.compose.frame ∧
    (forceAcq s).compose.palette = s.compose.palette ∧ (forceAcq s).compose.mode = s.compose.mode ∧
    (forceAcq s).compose.startCol = s.compose.startCol ∧ (forceAcq s).compose.cursor = s.compose.cursor ∧
    (forceAcq s).compose.mark = s.compose.mark ∧ (forceAcq s).compose.owned = s.compose.owned ∧
    (forceAcq s).compose.duty = s.compose.duty ∧ (forceAcq s).compose.frameTimer = s.compose.frameTimer ∧
    (forceAcq s).panel = s.panel ∧ (forceAcq s).store = s.store ∧ (forceAcq s).power = s.power ∧
    (forceAcq s).link.inbound = s.link.inbound ∧ (forceAcq s).link.answers = s.link.answers ∧
    (forceAcq s).link.inPeriod = s.link.inPeriod ∧ (forceAcq s).link.clocked = s.link.clocked ∧
    (forceAcq s).link.gathered = s.link.gathered ∧ (forceAcq s).link.ignoring = s.link.ignoring ∧
    (forceAcq s).link.sending = s.link.sending ∧ (forceAcq s).link.partly = s.link.partly ∧ (forceAcq s).pins = s.pins ∧
    (forceAcq s).pending = s.pending := by
  simp only [forceAcq]
  (repeat' split) <;> simp

/-- The answers that end the WAVE.READs, in the order of the reads. -/
theorem foldl_answer (k : Byte) (st : Status) (ws : List WaveRead) (s : State) :
    ws.foldl (fun acc w => answer k w.tag st [] acc) s =
      { s with link := { s.link with
          answers := s.link.answers ++ ws.map (fun w => (⟨k + 0x80, w.tag, [st.code]⟩ : Frame)) } } := by
  induction ws generalizing s with
  | nil => simp
  | cons w r ih => rw [List.foldl_cons, ih]; simp [answer, pushAnswer]

/-- R65, R67: everything that ending the WAVE.READs does. -/
theorem endWaves_eq (st : Status) (s : State) : endWaves st s =
    { s with
      acq := { s.acq with waves := [] }
      link := { s.link with
        answers := s.link.answers ++ s.acq.waves.map (fun w => (⟨0x15 + 0x80, w.tag, [st.code]⟩ : Frame)) } } := by
  simp [endWaves, foldl_answer]

@[simp] theorem endWaves_frame (st : Status) (s : State) :
    (endWaves st s).setup = s.setup ∧ (endWaves st s).gen = s.gen ∧ (endWaves st s).acq.timeTag = s.acq.timeTag ∧
    (endWaves st s).acq.wraps = s.acq.wraps ∧ (endWaves st s).acq.nsPhase = s.acq.nsPhase ∧
    (endWaves st s).acq.held = s.acq.held ∧ (endWaves st s).acq.selfRefresh = s.acq.selfRefresh ∧
    (endWaves st s).acq.memEpoch = s.acq.memEpoch ∧ (endWaves st s).acq.mem = s.acq.mem ∧
    (endWaves st s).acq.fresh = s.acq.fresh ∧ (endWaves st s).acq.serialCounter = s.acq.serialCounter ∧
    (endWaves st s).acq.single = s.acq.single ∧ (endWaves st s).acq.runKind = s.acq.runKind ∧
    (endWaves st s).acq.state = s.acq.state ∧ (endWaves st s).acq.segs = s.acq.segs ∧
    (endWaves st s).acq.lastTrig = s.acq.lastTrig ∧ (endWaves st s).acq.countDone = s.acq.countDone ∧
    (endWaves st s).acq.lastDone = s.acq.lastDone ∧ (endWaves st s).acq.prevLayout = s.acq.prevLayout ∧
    (endWaves st s).mon = s.mon ∧ (endWaves st s).raster = s.raster ∧ (endWaves st s).compose = s.compose ∧
    (endWaves st s).panel = s.panel ∧ (endWaves st s).store = s.store ∧ (endWaves st s).power = s.power ∧
    (endWaves st s).link.inbound = s.link.inbound ∧ (endWaves st s).link.notes = s.link.notes ∧
    (endWaves st s).link.inPeriod = s.link.inPeriod ∧ (endWaves st s).link.clocked = s.link.clocked ∧
    (endWaves st s).link.gathered = s.link.gathered ∧ (endWaves st s).link.ignoring = s.link.ignoring ∧
    (endWaves st s).link.sending = s.link.sending ∧ (endWaves st s).link.partly = s.link.partly ∧
    (endWaves st s).pins = s.pins ∧ (endWaves st s).pending = s.pending := by
  simp [endWaves_eq]

@[simp] theorem acqStandby_frame (s : State) :
    (acqStandby s).setup = s.setup ∧ (acqStandby s).gen = s.gen ∧ (acqStandby s).acq.timeTag = s.acq.timeTag ∧
    (acqStandby s).acq.wraps = s.acq.wraps ∧ (acqStandby s).acq.nsPhase = s.acq.nsPhase ∧
    (acqStandby s).acq.held = s.acq.held ∧ (acqStandby s).acq.memEpoch = s.acq.memEpoch ∧
    (acqStandby s).acq.mem = s.acq.mem ∧ (acqStandby s).acq.fresh = s.acq.fresh ∧
    (acqStandby s).acq.serialCounter = s.acq.serialCounter ∧ (acqStandby s).acq.lastTrig = s.acq.lastTrig ∧
    (acqStandby s).acq.countDone = s.acq.countDone ∧ (acqStandby s).acq.lastDone = s.acq.lastDone ∧
    (acqStandby s).acq.prevLayout = s.acq.prevLayout ∧ (acqStandby s).mon = s.mon ∧
    (acqStandby s).raster.list = s.raster.list ∧ (acqStandby s).raster.job = s.raster.job ∧
    (acqStandby s).compose.frame = s.compose.frame ∧ (acqStandby s).compose.palette = s.compose.palette ∧
    (acqStandby s).compose.mode = s.compose.mode ∧ (acqStandby s).compose.cursor = s.compose.cursor ∧
    (acqStandby s).compose.mark = s.compose.mark ∧ (acqStandby s).compose.owned = s.compose.owned ∧
    (acqStandby s).compose.duty = s.compose.duty ∧ (acqStandby s).compose.frameTimer = s.compose.frameTimer ∧
    (acqStandby s).panel = s.panel ∧ (acqStandby s).store = s.store ∧ (acqStandby s).power = s.power ∧
    (acqStandby s).link.inbound = s.link.inbound ∧ (acqStandby s).link.inPeriod = s.link.inPeriod ∧
    (acqStandby s).link.clocked = s.link.clocked ∧ (acqStandby s).link.gathered = s.link.gathered ∧
    (acqStandby s).link.ignoring = s.link.ignoring ∧ (acqStandby s).link.sending = s.link.sending ∧
    (acqStandby s).link.partly = s.link.partly ∧ (acqStandby s).pins = s.pins ∧ (acqStandby s).pending = s.pending := by
  simp only [acqStandby]
  (repeat' split) <;> simp

@[simp] theorem acqWake_frame (b : Bool) (s : State) :
    (acqWake b s).setup = s.setup ∧ (acqWake b s).gen = s.gen ∧ (acqWake b s).acq.timeTag = s.acq.timeTag ∧
    (acqWake b s).acq.wraps = s.acq.wraps ∧ (acqWake b s).acq.nsPhase = s.acq.nsPhase ∧
    (acqWake b s).acq.held = s.acq.held ∧ (acqWake b s).acq.waves = s.acq.waves ∧
    (acqWake b s).acq.memEpoch = s.acq.memEpoch ∧ (acqWake b s).acq.serialCounter = s.acq.serialCounter ∧
    (acqWake b s).mon = s.mon ∧ (acqWake b s).compose.frame = s.compose.frame ∧
    (acqWake b s).compose.palette = s.compose.palette ∧ (acqWake b s).compose.mode = s.compose.mode ∧
    (acqWake b s).compose.cursor = s.compose.cursor ∧ (acqWake b s).compose.mark = s.compose.mark ∧
    (acqWake b s).compose.owned = s.compose.owned ∧ (acqWake b s).compose.duty = s.compose.duty ∧
    (acqWake b s).compose.frameTimer = s.compose.frameTimer ∧ (acqWake b s).panel = s.panel ∧
    (acqWake b s).store = s.store ∧ (acqWake b s).power = s.power ∧ (acqWake b s).link.inbound = s.link.inbound ∧
    (acqWake b s).link.answers = s.link.answers ∧ (acqWake b s).link.inPeriod = s.link.inPeriod ∧
    (acqWake b s).link.clocked = s.link.clocked ∧ (acqWake b s).link.gathered = s.link.gathered ∧
    (acqWake b s).link.ignoring = s.link.ignoring ∧ (acqWake b s).link.sending = s.link.sending ∧
    (acqWake b s).link.partly = s.link.partly ∧ (acqWake b s).pins = s.pins ∧ (acqWake b s).pending = s.pending := by
  simp only [acqWake]
  (repeat' split) <;> simp


/-! ## The depth of a geometry -/

/-- R35: the effective depth index is at most DEPTH. -/
theorem reduceDepth_le (u : Setup) (d : Nat) : u.reduceDepth d ≤ d := by
  induction d with
  | zero => exact Nat.le_refl 0
  | succ d ih => simp only [Setup.reduceDepth]; split <;> omega

/-- R35: no greater depth index up to DEPTH fits. -/
theorem reduceDepth_largest (u : Setup) (d k : Nat) (h : u.reduceDepth d < k) (hk : k ≤ d) :
    memSize < u.floorCount * u.segSize k := by
  induction d with
  | zero => omega
  | succ d ih =>
    simp only [Setup.reduceDepth] at h
    split at h
    · rename_i hc
      rcases Nat.lt_or_ge d k with hd | hd
      · obtain rfl : k = d + 1 := by omega
        exact hc
      · exact ih h hd
    · omega

/-- R35: the floor count of segments fits at the effective depth index, where it fits at index 0. -/
theorem reduceDepth_fits (u : Setup) (d : Nat) (h : u.floorCount * u.segSize 0 ≤ memSize) :
    u.floorCount * u.segSize (u.reduceDepth d) ≤ memSize := by
  induction d with
  | zero => exact h
  | succ d ih =>
    simp only [Setup.reduceDepth]
    split
    · exact ih
    · exact Nat.le_of_not_lt (by assumption)

end Sys2Proof.Machine
end

