-- ==== Sys2Proof/Laws/Memory.lean ====
section
/-! SUPPORT. Sparse tables and the acquisition memory: what a key holds after a write, and that every write keeps the canonical form. -/

namespace Sys2Proof.Machine

/-! ## Tables -/

/-- Every key of a table is above a number. -/
def tabAbove {α : Type} (a : Nat) (t : List (Nat × α)) : Prop := ∀ e ∈ t, a < e.1

theorem tabRising_cons {α : Type} (a : Nat) (x : α) (t : List (Nat × α)) :
    tabRising ((a, x) :: t) = true ↔ tabAbove a t ∧ tabRising t = true := by
  induction t generalizing a x with
  | nil => simp [tabRising, tabAbove]
  | cons e r ih =>
    obtain ⟨b, y⟩ := e
    have hb := ih b y
    simp only [tabRising, Bool.and_eq_true, decide_eq_true_eq]
    constructor
    · rintro ⟨hab, hr⟩
      refine ⟨?_, hr⟩
      intro e he
      rcases List.mem_cons.mp he with rfl | he
      · exact hab
      · exact lt_trans hab ((hb.mp hr).1 e he)
    · rintro ⟨hall, hr⟩
      exact ⟨hall (b, y) (by simp), hr⟩

theorem mem_tabPut {α : Type} {t : List (Nat × α)} {k : Nat} {x : α} {e : Nat × α} (h : e ∈ tabPut t k x) :
    e = (k, x) ∨ e ∈ t := by
  induction t with
  | nil => simp [tabPut] at h; exact Or.inl h
  | cons b r ih =>
    obtain ⟨c, y⟩ := b
    simp only [tabPut] at h
    split at h
    · rcases List.mem_cons.mp h with h | h
      · exact Or.inl h
      · exact Or.inr h
    · split at h
      · rcases List.mem_cons.mp h with h | h
        · exact Or.inl h
        · exact Or.inr (List.mem_cons_of_mem _ h)
      · rcases List.mem_cons.mp h with h | h
        · exact Or.inr (by simp [h])
        · rcases ih h with h | h
          · exact Or.inl h
          · exact Or.inr (List.mem_cons_of_mem _ h)

/-- A write into a table keeps its keys rising. -/
theorem tabRising_tabPut {α : Type} (t : List (Nat × α)) (k : Nat) (x : α) (h : tabRising t = true) :
    tabRising (tabPut t k x) = true := by
  induction t with
  | nil => simp [tabPut, tabRising]
  | cons b r ih =>
    obtain ⟨c, y⟩ := b
    have hc := (tabRising_cons c y r).mp h
    simp only [tabPut]
    split
    · rename_i hlt
      refine (tabRising_cons _ _ _).mpr ⟨?_, h⟩
      intro e he
      rcases List.mem_cons.mp he with rfl | he
      · exact hlt
      · exact lt_trans hlt (hc.1 e he)
    · split
      · rename_i heq
        subst heq
        exact (tabRising_cons _ _ _).mpr hc
      · rename_i h1 h2
        refine (tabRising_cons _ _ _).mpr ⟨?_, ih hc.2⟩
        intro e he
        rcases mem_tabPut he with rfl | he
        · simp only; omega
        · exact hc.1 e he

/-- Filtering a table keeps its keys rising. -/
theorem tabRising_filter {α : Type} (p : Nat × α → Bool) (t : List (Nat × α)) (h : tabRising t = true) :
    tabRising (t.filter p) = true := by
  induction t with
  | nil => simp [tabRising]
  | cons b r ih =>
    obtain ⟨c, y⟩ := b
    have hc := (tabRising_cons c y r).mp h
    rw [List.filter_cons]
    split
    · exact (tabRising_cons _ _ _).mpr ⟨fun e he => hc.1 e (List.mem_of_mem_filter he), ih hc.2⟩
    · exact ih hc.2

/-- The key just written holds what was written. -/
@[simp] theorem tabGet?_tabPut_same {α : Type} (t : List (Nat × α)) (k : Nat) (x : α) :
    tabGet? (tabPut t k x) k = some x := by
  induction t with
  | nil => simp [tabPut, tabGet?]
  | cons b r ih =>
    obtain ⟨c, y⟩ := b
    simp only [tabPut]
    split
    · simp [tabGet?]
    · split
      · simp [tabGet?]
      · rename_i h1 h2
        have : ¬ c = k := fun h => h2 h.symm
        simp [tabGet?, this, ih]

/-- Every other key holds what it held. -/
theorem tabGet?_tabPut_other {α : Type} (t : List (Nat × α)) (k j : Nat) (x : α) (h : j ≠ k) :
    tabGet? (tabPut t k x) j = tabGet? t j := by
  induction t with
  | nil => simp [tabPut, tabGet?, Ne.symm h]
  | cons b r ih =>
    obtain ⟨c, y⟩ := b
    simp only [tabPut]
    split
    · simp [tabGet?, Ne.symm h]
    · split
      · rename_i h1 h2
        subst h2
        simp [tabGet?, Ne.symm h]
      · simp only [tabGet?, ih]

/-- Removing a key leaves every other key as it was. -/
theorem tabGet?_tabDel_other {α : Type} (t : List (Nat × α)) (k j : Nat) (h : j ≠ k) :
    tabGet? (tabDel t k) j = tabGet? t j := by
  induction t with
  | nil => rfl
  | cons b r ih =>
    obtain ⟨c, y⟩ := b
    by_cases hc : c = k
    · subst hc
      have hd : tabDel ((c, y) :: r) c = tabDel r c := by simp [tabDel]
      rw [hd, ih]
      simp [tabGet?, Ne.symm h]
    · have hd : tabDel ((c, y) :: r) k = (c, y) :: tabDel r k := by simp [tabDel, hc]
      rw [hd]
      simp only [tabGet?, ih]

/-- A removed key is not listed. -/
@[simp] theorem tabGet?_tabDel_same {α : Type} (t : List (Nat × α)) (k : Nat) : tabGet? (tabDel t k) k = none := by
  induction t with
  | nil => rfl
  | cons b r ih =>
    obtain ⟨c, y⟩ := b
    by_cases hc : c = k
    · subst hc
      have hd : tabDel ((c, y) :: r) c = tabDel r c := by simp [tabDel]
      rw [hd, ih]
    · have hd : tabDel ((c, y) :: r) k = (c, y) :: tabDel r k := by simp [tabDel, hc]
      rw [hd]
      simp [tabGet?, hc, ih]

/-- A table set at a key holds that there. -/
@[simp] theorem tabGet_tabSet_same {α : Type} [DecidableEq α] (d : α) (t : List (Nat × α)) (k : Nat) (x : α) :
    tabGet d (tabSet d t k x) k = x := by
  unfold tabGet tabSet
  split
  · rename_i h; simp [h]
  · simp

/-- A table set at a key holds what it held at every other. -/
theorem tabGet_tabSet_other {α : Type} [DecidableEq α] (d : α) (t : List (Nat × α)) (k j : Nat) (x : α) (h : j ≠ k) :
    tabGet d (tabSet d t k x) j = tabGet d t j := by
  unfold tabGet tabSet
  split
  · rw [tabGet?_tabDel_other _ _ _ h]
  · rw [tabGet?_tabPut_other _ _ _ _ h]

/-- Setting a key keeps the keys rising. -/
theorem tabRising_tabSet {α : Type} [DecidableEq α] (d : α) (t : List (Nat × α)) (k : Nat) (x : α)
    (h : tabRising t = true) : tabRising (tabSet d t k x) = true := by
  unfold tabSet
  split
  · exact tabRising_filter _ _ h
  · exact tabRising_tabPut _ _ _ h

/-- A table in which no entry has a key lists nothing under it. -/
theorem tabGet?_none {α : Type} (t : List (Nat × α)) (k : Nat) (h : ∀ e ∈ t, e.1 ≠ k) : tabGet? t k = none := by
  induction t with
  | nil => rfl
  | cons e r ih =>
    obtain ⟨a, x⟩ := e
    simp only [tabGet?]
    rw [if_neg (h (a, x) List.mem_cons_self)]
    exact ih (fun e he => h e (List.mem_cons_of_mem _ he))

/-- What two tables one after the other list under a key. -/
theorem tabGet?_append {α : Type} (t u : List (Nat × α)) (k : Nat) :
    tabGet? (t ++ u) k = (tabGet? t k).or (tabGet? u k) := by
  induction t with
  | nil => simp [tabGet?]
  | cons e r ih => obtain ⟨j, x⟩ := e; simp only [List.cons_append, tabGet?]; split <;> simp [ih]

/-- What a table lists once it has lost the keys that fail a test. -/
theorem tabGet?_filterKey {α : Type} (p : Nat → Bool) (t : List (Nat × α)) (k : Nat) :
    tabGet? (t.filter (fun e => p e.1)) k = if p k then tabGet? t k else none := by
  induction t with
  | nil => simp [tabGet?]
  | cons e r ih =>
    obtain ⟨j, x⟩ := e
    by_cases hj : j = k
    · subst hj
      by_cases hp : p j = true
      · simp [hp, tabGet?]
      · simp [hp, ih]
    · by_cases hp : p j = true <;> simp [hp, hj, tabGet?, ih]

/-- What a table lists once the keys of a range have been replaced. -/
theorem tabGet?_tabSplice {α : Type} (t mid : List (Nat × α)) (lo hi k : Nat) (h : lo ≤ hi)
    (hm : ∀ j, j < lo ∨ hi ≤ j → tabGet? mid j = none) :
    tabGet? (tabSplice t lo hi mid) k = if lo ≤ k ∧ k < hi then tabGet? mid k else tabGet? t k := by
  simp only [tabSplice, tabGet?_append]
  rw [tabGet?_filterKey (fun j => decide (j < lo)), tabGet?_filterKey (fun j => decide (hi ≤ j))]
  by_cases h1 : k < lo
  · have : ¬ (lo ≤ k ∧ k < hi) := by omega
    have h2 : ¬ hi ≤ k := by omega
    simp [h1, this, hm k (Or.inl h1), h2]
  · by_cases h2 : hi ≤ k
    · have : ¬ (lo ≤ k ∧ k < hi) := by omega
      simp [h1, h2, hm k (Or.inr h2), this]
    · have : lo ≤ k ∧ k < hi := by omega
      simp [h1, h2, this]

/-- What a table made of a function's values holds. -/
theorem tabGet_range {α : Type} [DecidableEq α] (d : α) (f : Nat → α) (n k : Nat) (h : k < n) :
    tabGet d ((List.range n).filterMap (fun i => if f i = d then none else some (i, f i))) k = f k := by
  have out : ∀ m, m ≤ k → tabGet? ((List.range m).filterMap (fun i => if f i = d then none else some (i, f i))) k = none := by
    intro m
    induction m with
    | zero => simp [tabGet?]
    | succ m ih =>
      intro hm
      rw [List.range_succ, List.filterMap_append, tabGet?_append, ih (by omega)]
      by_cases hd : f m = d
      · simp [hd, tabGet?]
      · have : m ≠ k := by omega
        simp [hd, tabGet?, this]
  induction n with
  | zero => omega
  | succ n ih =>
    simp only [tabGet, List.range_succ, List.filterMap_append, tabGet?_append]
    by_cases hk : k = n
    · subst hk
      rw [out k (Nat.le_refl k)]
      by_cases hd : f k = d
      · simp [hd, tabGet?]
      · simp [hd, tabGet?]
    · have := ih (by omega)
      simp only [tabGet] at this
      by_cases hd : f n = d
      · simpa [hd, tabGet?] using this
      · have hn : n ≠ k := by omega
        simpa [hd, tabGet?, hn] using this

/-! ## The acquisition memory -/

/-- What the canonical form says. -/
theorem Memory.wf_iff (m : List Host.Cell) :
    Memory.wf m = true ↔ tabRising m = true ∧ ∀ e ∈ m, e.1 < memSize := by
  simp [Memory.wf]

/-- A byte stored inside the memory keeps the canonical form. -/
theorem Memory.wf_tabPut (m : List Host.Cell) (a : Nat) (b : Byte) (ha : a < memSize) (h : Memory.wf m = true) :
    Memory.wf (tabPut m a b) = true := by
  obtain ⟨h1, h2⟩ := (Memory.wf_iff m).mp h
  refine (Memory.wf_iff _).mpr ⟨tabRising_tabPut _ _ _ h1, fun e he => ?_⟩
  rcases mem_tabPut he with rfl | he
  · exact ha
  · exact h2 e he

/-- Bytes stored inside the memory keep the canonical form. -/
theorem Memory.wf_memStore (bs : List Byte) (m : List Host.Cell) (a : Nat) (ha : a + bs.length ≤ memSize)
    (h : Memory.wf m = true) : Memory.wf (memStore m a bs) = true := by
  induction bs generalizing m a with
  | nil => exact h
  | cons b r ih =>
    simp only [List.length_cons] at ha
    exact ih _ _ (by omega) (Memory.wf_tabPut m a b (by omega) h)

/-- Every store through the memory port keeps the canonical form. -/
theorem Memory.wf_portStore (m : List Host.Cell) (a : Nat) (bs : List Byte) (h : Memory.wf m = true) :
    Memory.wf (portStore m a bs) = true := by
  unfold portStore
  split
  · rename_i ha; exact Memory.wf_memStore bs m a ha h
  · exact h

theorem tabRising_zipIdx (n : Nat) (bs : List Byte) :
    tabRising ((bs.zipIdx n).map (fun p => (p.2, p.1))) = true ∧
      ∀ e ∈ (bs.zipIdx n).map (fun p => (p.2, p.1)), n ≤ e.1 ∧ e.1 < n + bs.length := by
  induction bs generalizing n with
  | nil => simp [tabRising]
  | cons b r ih =>
    obtain ⟨h1, h2⟩ := ih (n + 1)
    simp only [List.zipIdx_cons, List.map_cons]
    constructor
    · exact (tabRising_cons _ _ _).mpr ⟨fun e he => by have := h2 e he; omega, h1⟩
    · intro e he
      rcases List.mem_cons.mp he with rfl | he
      · simp
      · have := h2 e he
        simp only [List.length_cons]
        omega

theorem tabRising_append {α : Type} (t u : List (Nat × α)) (ht : tabRising t = true) (hu : tabRising u = true)
    (h : ∀ e ∈ t, ∀ f ∈ u, e.1 < f.1) : tabRising (t ++ u) = true := by
  induction t with
  | nil => exact hu
  | cons b r ih =>
    obtain ⟨c, y⟩ := b
    have hc := (tabRising_cons c y r).mp ht
    rw [List.cons_append]
    refine (tabRising_cons _ _ _).mpr ⟨?_, ih hc.2 (fun e he => h e (List.mem_cons_of_mem _ he))⟩
    intro e he
    rcases List.mem_append.mp he with he | he
    · exact hc.1 e he
    · exact h (c, y) (by simp) e he

/-- Replacing the keys of [lo, hi) by rising entries inside it keeps the keys rising. -/
theorem tabRising_tabSplice {α : Type} (t mid : List (Nat × α)) (lo hi : Nat) (ht : tabRising t = true)
    (hm : tabRising mid = true) (hin : ∀ e ∈ mid, lo ≤ e.1 ∧ e.1 < hi) (hlo : lo ≤ hi) :
    tabRising (tabSplice t lo hi mid) = true := by
  unfold tabSplice
  have h1 := tabRising_filter (fun e => decide (e.1 < lo)) t ht
  have h3 := tabRising_filter (fun e => decide (hi ≤ e.1)) t ht
  refine tabRising_append _ _ (tabRising_append _ _ h1 hm ?_) h3 ?_
  · intro e he f hf
    have h := (List.mem_filter.mp he).2
    have := (hin f hf).1
    simp only [decide_eq_true_eq] at h
    omega
  · intro e he f hf
    have hf' := (List.mem_filter.mp hf).2
    simp only [decide_eq_true_eq] at hf'
    rcases List.mem_append.mp he with he | he
    · have h := (List.mem_filter.mp he).2
      simp only [decide_eq_true_eq] at h
      omega
    · have := (hin e he).2
      omega

theorem rollFill_length (g : Geometry) : (rollFill g).length ≤ 4000 := by
  have h : g.enabled.members.length ≤ 4 := by
    unfold PerChan.members Chan.all
    exact le_trans (List.length_filter_le _ _) (by simp)
  simp only [rollFill, List.length_replicate]
  omega

/-- The roll region's fill keeps the canonical form. -/
theorem Memory.wf_fillRoll (g : Geometry) (m : List Host.Cell) (h : Memory.wf m = true) :
    Memory.wf (fillRoll g m) = true := by
  obtain ⟨h1, h2⟩ := (Memory.wf_iff m).mp h
  obtain ⟨r1, r2⟩ := tabRising_zipIdx 0 (rollFill g)
  have hl := rollFill_length g
  refine (Memory.wf_iff _).mpr ⟨tabRising_tabSplice _ _ _ _ h1 r1 (fun e he => by have := r2 e he; omega) (by omega), ?_⟩
  intro e he
  unfold fillRoll tabSplice at he
  rcases List.mem_append.mp he with he | he
  · rcases List.mem_append.mp he with he | he
    · exact h2 e (List.mem_of_mem_filter he)
    · have := (r2 e he).2
      simp only [memSize]
      omega
  · exact h2 e (List.mem_of_mem_filter he)

/-- A store through the port leaves every byte outside it as it was. -/
theorem memByte_memStore_outside (bs : List Byte) (ep : Nat) (m : List Host.Cell) (a x : Nat)
    (h : x < a ∨ a + bs.length ≤ x) : memByte ep (memStore m a bs) x = memByte ep m x := by
  induction bs generalizing m a with
  | nil => rfl
  | cons b r ih =>
    simp only [List.length_cons] at h
    simp only [memStore]
    rw [ih _ _ (by omega)]
    unfold memByte tabGet
    rw [tabGet?_tabPut_other _ _ _ _ (by omega)]

/-- A store writes its bytes. -/
theorem memByte_memStore_inside (bs : List Byte) (ep : Nat) (m : List Host.Cell) (a i : Nat) (h : i < bs.length) :
    memByte ep (memStore m a bs) (a + i) = bs.getD i 0 := by
  induction bs generalizing m a i with
  | nil => simp at h
  | cons b r ih =>
    cases i with
    | zero =>
      simp only [memStore]
      rw [memByte_memStore_outside _ _ _ _ _ (by omega)]
      simp [memByte, tabGet]
    | succ j =>
      simp only [List.length_cons] at h
      simp only [memStore]
      have := ih (tabPut m a b) (a + 1) j (by omega)
      rw [show a + (j + 1) = a + 1 + j by omega, this]
      simp

end Sys2Proof.Machine
end

