-- ==== Sys2Proof/Laws/Arms.lean ====
section
/-! SUPPORT. What an arm, an entry into ROLLING and the start of a run leave, in the words of Safety: one lemma for each operation. -/

namespace Sys2Proof.Machine

/-! ## Freed records -/

theorem tabGet_refilled {α : Type} [DecidableEq α] (d : α) (f : Nat × α → α) (t : List (Nat × α)) (k : Nat)
    (h : tabRising t = true) :
    tabGet d (t.filterMap (fun e => if f e = d then none else some (e.1, f e))) k =
      match tabGet? t k with | some x => f (k, x) | none => d := by
  induction t with
  | nil => rfl
  | cons e r ih =>
    obtain ⟨a, x⟩ := e
    obtain ⟨ha, hr⟩ := (tabRising_cons a x r).mp h
    have hmem : ∀ y ∈ r.filterMap (fun e => if f e = d then none else some (e.1, f e)), ∃ z ∈ r, y.1 = z.1 := by
      intro y hy
      obtain ⟨z, hz, he⟩ := List.mem_filterMap.mp hy
      refine ⟨z, hz, ?_⟩
      split at he
      · simp at he
      · simp only [Option.some.injEq] at he; rw [← he]
    have hout : a = k → tabGet? (r.filterMap (fun e => if f e = d then none else some (e.1, f e))) k = none := by
      rintro rfl
      refine tabGet?_none _ _ (fun y hy => ?_)
      obtain ⟨z, hz, he⟩ := hmem y hy
      rw [he]; exact Nat.ne_of_gt (ha z hz)
    simp only [List.filterMap_cons, tabGet?]
    by_cases hak : a = k
    · rw [if_pos hak]
      by_cases hf : f (a, x) = d
      · rw [if_pos hf]
        simp only [tabGet, hout hak, Option.getD_none]
        rw [← hak, hf]
      · rw [if_neg hf]
        simp only [tabGet, tabGet?, if_pos hak, Option.getD_some]
        rw [hak]
    · rw [if_neg hak]
      have := ih hr
      by_cases hf : f (a, x) = d
      · rw [if_pos hf]; exact this
      · rw [if_neg hf]
        simp only [tabGet, tabGet?, if_neg hak] at this ⊢
        exact this

theorem pinnedSeg_iff (s : State) (j : Nat) : pinnedSeg s j = true ↔ PinnedRecord j s := by
  unfold pinnedSeg PinnedRecord doneWith
  cases s.raster.job <;> simp

/-- R37, R57: the record of a segment after the freeing of DONE segments. -/
theorem segAt_freeDone (which : Nat → SegRecord → Bool) (s : State) (k : Nat) (hs : SegTableOk s) :
    segAt (freeDone which s) k =
      if (segAt s k).state = .done ∧ which k (segAt s k) = true ∧ pinnedSeg s k = false then ⟨.free, (segAt s k).serial, none⟩
      else segAt s k := by
  unfold segAt freeDone
  rw [tabGet_refilled _ _ _ _ hs]
  unfold tabGet
  cases hx : tabGet? s.acq.segs k with
  | none => simp [SegRecord.free]
  | some r =>
    simp only [Option.getD_some, SegRecord.free]
    cases pinnedSeg s k <;> simp

theorem pinnedRecord_freeDone (which : Nat → SegRecord → Bool) (s : State) (k : Nat) (hs : SegTableOk s) :
    PinnedRecord k (freeDone which s) ↔ PinnedRecord k s := by
  unfold PinnedRecord
  rw [segAt_freeDone which s k hs]
  constructor
  · rintro ⟨d, h1, h2, h3, h4⟩
    split at h3
    · simp at h3
    · rename_i h
      rw [if_neg h] at h4
      exact ⟨d, by simpa using h1, h2, h3, h4⟩
  · rintro ⟨d, h1, h2, h3, h4⟩
    rw [if_neg (fun h => by rw [(pinnedSeg_iff s k).mpr ⟨d, h1, h2, h3, h4⟩] at h; simp at h)]
    exact ⟨d, by simpa using h1, h2, h3, h4⟩

/-- R37: the freeing at an arm. -/
theorem freeForArm_record (k : Nat) (g : Geometry) (s : State) (j : Nat) (hs : SegTableOk s) :
    FreedOrKept (FreedByArm k g s) s (freeForArm k g s) j := by
  have hw : (newLayout s g || recordMeets j (segAt s j) (regionOf k g)) = true ↔
      (∃ l, s.acq.prevLayout = some l ∧ l ≠ ⟨g.len, g.interval, g.enabled, pointBytes g.mode⟩) ∨
      ∃ i, (segAt s j).info = some i ∧ j * i.geo.size < (k + 1) * g.size ∧ k * g.size < (j + 1) * i.geo.size := by
    rw [Bool.or_eq_true]
    refine or_congr ?_ ?_
    · unfold newLayout Geometry.layout
      cases s.acq.prevLayout <;> simp
    · unfold recordMeets
      cases (segAt s j).info with
      | none => simp
      | some i =>
        have h0 : ∀ a b c : Nat, a < (b + 1) * c → b * c < (b + 1) * c := by
          intro a b c h
          rcases Nat.eq_zero_or_pos c with h' | h'
          · rw [h', Nat.mul_zero] at h; omega
          · rw [Nat.add_mul, Nat.one_mul]; omega
        simp only [overlaps, regionOf, Bool.and_eq_true, Option.some.injEq, exists_eq_left']
        constructor
        · rintro ⟨⟨⟨h1, h2⟩, _⟩, _⟩
          exact ⟨of_decide_eq_true h1, of_decide_eq_true h2⟩
        · rintro ⟨h1, h2⟩
          exact ⟨⟨⟨decide_eq_true h1, decide_eq_true h2⟩, decide_eq_true (h0 _ _ _ h2)⟩, decide_eq_true (h0 _ _ _ h1)⟩
  have hp : pinnedSeg s j = false ↔ ¬ PinnedRecord j s := by rw [← pinnedSeg_iff, Bool.not_eq_true]
  unfold freeForArm FreedOrKept FreedByArm
  rw [segAt_freeDone _ s j hs, ← hp, ← hw]
  exact ⟨fun h => if_pos ⟨h.1, h.2.2, h.2.1⟩, fun h => if_neg (fun h' => h ⟨h'.1, h'.2.2, h'.2.1⟩)⟩

theorem armWaits_freeDone (which : Nat → SegRecord → Bool) (k : Nat) (g : Geometry) (s : State) (hs : SegTableOk s) :
    armWaits k g (freeDone which s) = true ↔ MeetsPin k g.size s := by
  unfold armWaits MeetsPin
  rw [Bool.or_eq_true, pinnedSeg_iff, pinnedRecord_freeDone _ _ _ hs, or_comm]
  refine or_congr Iff.rfl ?_
  simp only [pinMeets, pinRegion, freeDone_frame, regionOf]
  cases s.raster.job with
  | none => simp
  | some d =>
    simp only [Option.map_some, overlaps, Bool.and_eq_true, decide_eq_true_eq, Option.some.injEq, exists_eq_left']
    constructor
    · rintro ⟨⟨⟨h1, h2⟩, h3⟩, _⟩; exact ⟨h1, h2, h3⟩
    · rintro ⟨h1, h2, h3⟩
      refine ⟨⟨⟨h1, h2⟩, h3⟩, ?_⟩
      rw [Nat.add_mul, Nat.one_mul] at *
      rcases Nat.eq_zero_or_pos g.size with h | h
      · simp [h] at h1
      · omega

/-! ## Arms -/

@[simp] theorem segAt_setSeg_same (k : Nat) (r : SegRecord) (s : State) : segAt (setSeg k r s) k = r := by
  simp [segAt, setSeg]

theorem segAt_setSeg_other (k j : Nat) (r : SegRecord) (s : State) (h : j ≠ k) : segAt (setSeg k r s) j = segAt s j := by
  simp only [segAt, setSeg]
  exact tabGet_tabSet_other _ _ _ _ _ h

/-- The state with another list of segment records and nothing else of it changed. -/
def State.withSegs (l : List (Nat × SegRecord)) (s : State) : State := { s with acq := { s.acq with segs := l } }

/-- R47: a capture that begins into index k under g, once the DONE records have been freed, is what Armed says. -/
theorem beginCapture_armed (freed : Nat → Prop) (k : Nat) (g : Geometry) (s : State) (l : List (Nat × SegRecord))
    (hf : ∀ j, FreedOrKept freed s (s.withSegs l) j) (ho : g.origin = 0) :
    Armed freed k g s (beginCapture k (armInfo g (s.withSegs l))
      { s.withSegs l with acq := { (s.withSegs l).acq with prevLayout := some g.layout } }) := by
  have hl : ∀ j, segAt (s.withSegs l) j = tabGet (.free 0) l j := fun _ => rfl
  simp only [FreedOrKept, hl] at hf
  obtain ⟨d, iv, len, pre, size, n, orig, mode, en, rg, roll⟩ := g
  simp only at ho
  subst ho
  by_cases hp : pre = 0
  · subst hp
    cases hb : s.acq.forcePending with
    | false =>
      refine ⟨false, by simp [hb], ?_⟩
      simp only [beginCapture, armInfo, freshInfo, readyAtOnce, setAcqState, rebuildAnnotation, clearPrimes, discardPoints,
        Geometry.layout, segAt, setSeg, FreedOrKept, State.withSegs, hb]
      simp
      intro j hj
      rw [tabGet_tabSet_other _ _ _ _ _ hj]
      exact hf j
    | true =>
      refine ⟨true, by simp [hb], ?_⟩
      simp only [beginCapture, armInfo, freshInfo, readyAtOnce, setAcqState, rebuildAnnotation, clearPrimes, discardPoints,
        Geometry.layout, segAt, setSeg, FreedOrKept, State.withSegs, hb, enterCapturing, markTrigger, curSeg, originFor]
      simp
      intro j hj
      rw [tabGet_tabSet_other _ _ _ _ _ hj, tabGet_tabSet_other _ _ _ _ _ hj, tabGet_tabSet_other _ _ _ _ _ hj]
      exact hf j
  · refine ⟨false, by simp [hp], ?_⟩
    simp only [beginCapture, armInfo, freshInfo, setAcqState, rebuildAnnotation, clearPrimes, discardPoints,
      Geometry.layout, segAt, setSeg, FreedOrKept, State.withSegs, hp]
    simp
    intro j hj
    rw [tabGet_tabSet_other _ _ _ _ _ hj]
    exact hf j

/-- R205: an entered note stands in the note list. -/
theorem mem_enterNote (src : NoteSource) (s : State) : ∃ e ∈ (enterNote src s).link.notes, e.src = src := by
  simp only [enterNote, noteEnter]
  split
  · rename_i h
    rw [List.any_eq_true] at h
    obtain ⟨e, h1, h2⟩ := h
    refine ⟨_, List.mem_map_of_mem h1, ?_⟩
    split <;> simpa using h2
  · exact ⟨⟨src, none, false⟩, by simp, rfl⟩

theorem enterHeld_held (freed : Nat → Prop) (s : State) (l : List (Nat × SegRecord))
    (hf : ∀ j, FreedOrKept freed s (s.withSegs l) j) : HeldForPin freed s (enterHeld (s.withSegs l)) :=
  ⟨rfl, rfl, hf, mem_enterNote _ _, rfl, rfl, rfl, rfl, rfl, rfl, rfl⟩

/-- R38, R47: an arm. -/
theorem arm_spec (k : Nat) (s : State) (hs : SegTableOk s) : ArmedOrHeld k s (arm k s) := by
  have hw := armWaits_freeDone (fun j r => newLayout s s.setup.geometry || recordMeets j r (regionOf k s.setup.geometry)) k
    s.setup.geometry s hs
  have hf := fun j => freeForArm_record k s.setup.geometry s j hs
  obtain ⟨l, hl⟩ : ∃ l, freeForArm k s.setup.geometry s = s.withSegs l := ⟨_, rfl⟩
  rw [show freeDone _ s = s.withSegs l from hl] at hw
  unfold arm
  simp only [hl] at hf ⊢
  refine ⟨fun h => ?_, fun h => ?_⟩
  · rw [if_neg (fun h' => h (hw.mp h'))]
    exact beginCapture_armed _ k _ s l hf rfl
  · rw [if_pos (hw.mpr h)]
    exact enterHeld_held _ s l hf

/-! ## Roll -/

theorem memByte_fillRoll (g : Geometry) (ep : Nat) (m : List Host.Cell) (x : Nat) :
    memByte ep (fillRoll g m) x = if x < 500 * (2 * g.enabled.members.length) then 128 else memByte ep m x := by
  obtain ⟨_, r2⟩ := tabRising_zipIdx 0 (rollFill g)
  have hlen : (rollFill g).length = 500 * (2 * g.enabled.members.length) := by simp [rollFill]
  unfold memByte tabGet fillRoll
  rw [tabGet?_tabSplice _ _ _ _ _ (Nat.zero_le _) (fun j hj => tabGet?_none _ _ (fun e he => by have := r2 e he; omega)), hlen]
  by_cases h : x < 500 * (2 * g.enabled.members.length)
  · have hx : tabGet? ((rollFill g).zipIdx.map (fun p => (p.2, p.1))) x = some 128 := by
      have : ∀ (n : Nat) (o y : Nat), o ≤ y → y < o + n →
          tabGet? (((List.replicate n (128 : Byte)).zipIdx o).map (fun p => (p.2, p.1))) y = some 128 := by
        intro n
        induction n with
        | zero => intro o y h1 h2; omega
        | succ n ih =>
          intro o y h1 h2
          simp only [List.replicate_succ, List.zipIdx_cons, List.map_cons, tabGet?]
          by_cases hoy : o = y
          · rw [if_pos hoy]
          · rw [if_neg hoy]; exact ih _ _ (by omega) (by omega)
      exact this _ 0 x (by omega) (by omega)
    simp [h, hx]
  · simp [h]

/-- R38, R60: an entry into ROLLING. -/
theorem enterRoll_spec (s : State) (hs : SegTableOk s) : ∃ g, IsRollGeometry s.setup g ∧
    (¬ MeetsPin 0 g.size s → RollEntered g s (enterRoll s)) ∧
    (MeetsPin 0 g.size s → HeldForPin (FreedByArm 0 g s) s (enterRoll s) ∧
      (enterRoll s).acq.runKind = s.acq.runKind) := by
  refine ⟨s.setup.rollGeometry s.acq.fresh, ⟨rfl, rfl, rfl, rfl, rfl, rfl, rfl, rfl⟩, ?_⟩
  generalize hg : s.setup.rollGeometry s.acq.fresh = g
  obtain ⟨v, hv⟩ : ∃ v : State, v = { s with acq := { s.acq with fresh := s.acq.fresh + 1 } } := ⟨_, rfl⟩
  have hs' : SegTableOk v := by subst hv; exact hs
  have hw := armWaits_freeDone (fun j r => newLayout v g || recordMeets j r (regionOf 0 g)) 0 g v hs'
  have hf := fun j => freeForArm_record 0 g v j hs'
  obtain ⟨l, hl⟩ : ∃ l, freeForArm 0 g v = v.withSegs l := ⟨_, rfl⟩
  rw [show freeDone _ v = v.withSegs l from hl] at hw
  have hm : MeetsPin 0 g.size v ↔ MeetsPin 0 g.size s := by subst hv; exact Iff.rfl
  have hfr : FreedByArm 0 g v = FreedByArm 0 g s := by subst hv; rfl
  rw [hm] at hw
  unfold enterRoll
  simp only [hg, ← hv, hl] at hf ⊢
  have hf' : ∀ j, FreedOrKept (FreedByArm 0 g s) s (v.withSegs l) j := by
    intro j
    have := hf j
    rw [hfr] at this
    subst hv
    exact this
  refine ⟨fun h => ?_, fun h => ?_⟩
  · rw [if_neg (fun h' => h (hw.mp h'))]
    have hgs : g.enabled = s.setup.enabled ∧ g.layout = ⟨500, 10 * timePerDiv s.setup.tbase / 500, s.setup.enabled, 2⟩ := by
      subst hg; exact ⟨rfl, rfl⟩
    subst hv
    refine ⟨rfl, rfl, ?_, ?_, ?_, rfl, rfl, rfl, rfl, rfl, rfl, rfl, rfl, rfl, ?_, rfl, mem_enterNote _ _⟩
    · simp only [beginRoll, enterNote, setAcqState, rebuildAnnotation, rasterEnterRoll, setSeg, segAt]
      rw [tabGet_tabSet_same]
      rfl
    · intro j hj
      have : ∀ m : State, segAt m j = tabGet (.free 0) m.acq.segs j := fun _ => rfl
      have h2 := hf' j
      simp only [FreedOrKept, this] at h2 ⊢
      simp only [beginRoll, enterNote, setAcqState, rebuildAnnotation, rasterEnterRoll, setSeg, discardPoints, State.withSegs]
      rw [tabGet_tabSet_other _ _ _ _ _ hj]
      exact h2
    · intro x
      rw [← hgs.1]
      exact memByte_fillRoll g _ _ x
    · rw [← hgs.2]; rfl
  · rw [if_pos (hw.mpr h)]
    subst hv
    exact ⟨⟨rfl, rfl, hf', mem_enterNote _ _, rfl, rfl, rfl, rfl, rfl, rfl, rfl⟩, rfl⟩

/-! ## Runs -/

theorem arm_run (k : Nat) (s : State) : (arm k s).acq.runIndex = s.acq.runIndex := by
  simp only [arm]
  split
  · rfl
  · simp only [beginCapture]
    split
    · simp only [readyAtOnce]
      split
      · simp only [enterCapturing, setAcqState, rebuildAnnotation, setSeg, markTrigger]
        split <;> rfl
      · rfl
    · rfl

theorem enterRoll_run (s : State) : (enterRoll s).acq.runIndex = s.acq.runIndex := by
  simp only [enterRoll]
  split <;> rfl

/-- R57, R58, R60: the arm of a REPEAT run at a start, a re-arm or a release. -/
theorem armRepeatOrRoll_spec (s : State) (hs : SegTableOk s) : RepeatArmed s (armRepeatOrRoll s) := by
  obtain ⟨v, hv⟩ : ∃ v : State, v = { s with acq := { s.acq with runKind := .repeats } } := ⟨_, rfl⟩
  have hs' : SegTableOk v := by subst hv; exact hs
  have hc : s.setup.rollConditions = true ↔ s.setup.roll = true ∧ s.setup.runmode = .repeats ∧ 21 ≤ s.setup.tbase := by
    simp [Setup.rollConditions, and_assoc]
  have hvs : v.setup = s.setup := by subst hv; rfl
  unfold armRepeatOrRoll
  simp only [← hv]
  unfold RepeatArmed
  rw [← hc]
  by_cases h : s.setup.rollConditions = true
  · rw [if_pos h]
    refine ⟨?_, ?_, ?_, fun _ => ?_, fun h' => absurd h h'⟩
    · subst hv; simp
    · subst hv; simp
    · rw [enterRoll_run]; subst hv; rfl
    · obtain ⟨g, h1, h2, h3⟩ := enterRoll_spec v hs'
      refine ⟨g, hvs ▸ h1, fun hp => ?_, fun hp => ?_⟩
      · have := h2 (by subst hv; exact hp)
        subst hv; exact this
      · have := h3 (by subst hv; exact hp)
        subst hv; exact this
  · rw [if_neg h]
    refine ⟨?_, ?_, ?_, fun h' => absurd h' h, fun _ => ⟨?_, ?_⟩⟩
    · subst hv; simp
    · subst hv; simp
    · rw [armRepeat, arm_run]; subst hv; rfl
    · subst hv; simp
    · have := arm_spec (bufferChoice v) v hs'
      subst hv; exact this

theorem freedByRun_start (s : State) (l : List (Nat × SegRecord)) (m : State) (hm : ∀ j, segAt m j = segAt (s.withSegs l) j)
    (hr : m.raster = s.raster) (hf : ∀ j, FreedOrKept (FreedByRun s) s (s.withSegs l) j) (g : Geometry) (j : Nat) :
    ¬ FreedByArm 0 g m j := by
  rintro ⟨h1, h2, _⟩
  have h3 := hf j
  unfold FreedOrKept at h3
  rw [← hm j] at h3
  by_cases hq : FreedByRun s j
  · rw [h3.1 hq] at h1; simp at h1
  · rw [h3.2 hq] at h1
    have : PinnedRecord j s := by
      by_contra hc; exact hq ⟨h1, hc⟩
    obtain ⟨d, d1, d2, d3, d4⟩ := this
    exact h2 ⟨d, by rw [hr]; exact d1, d2, by rw [h3.2 hq]; exact d3, by rw [h3.2 hq]; exact d4⟩

theorem freeDone_run_record (s : State) (j : Nat) (hs : SegTableOk s) :
    FreedOrKept (FreedByRun s) s (freeDone (fun _ _ => true) s) j := by
  have hp : pinnedSeg s j = false ↔ ¬ PinnedRecord j s := by rw [← pinnedSeg_iff, Bool.not_eq_true]
  unfold FreedOrKept FreedByRun
  rw [segAt_freeDone _ s j hs, ← hp]
  exact ⟨fun h => if_pos ⟨h.1, rfl, h.2⟩, fun h => if_neg (fun h' => h ⟨h'.1, h'.2.2⟩)⟩

/-- R44: a list of records whose indices rise still does once DONE records have become FREE. -/
theorem segTableOk_freeDone (which : Nat → SegRecord → Bool) (s : State) (hs : SegTableOk s) : SegTableOk (freeDone which s) := by
  have h : ∀ (f : Nat × SegRecord → SegRecord) (t : List (Nat × SegRecord)), tabRising t = true →
      tabRising (t.filterMap (fun e => if f e = .free 0 then none else some (e.1, f e))) = true := by
    intro f t
    induction t with
    | nil => intro _; rfl
    | cons e r ih =>
      obtain ⟨a, x⟩ := e
      intro hr
      obtain ⟨ha, hr⟩ := (tabRising_cons a x r).mp hr
      simp only [List.filterMap_cons]
      by_cases hf : f (a, x) = .free 0
      · rw [if_pos hf]; exact ih hr
      · rw [if_neg hf]
        refine (tabRising_cons _ _ _).mpr ⟨fun y hy => ?_, ih hr⟩
        obtain ⟨z, hz, he⟩ := List.mem_filterMap.mp hy
        split at he
        · simp at he
        · simp only [Option.some.injEq] at he
          rw [← he]; exact ha z hz
  exact h _ _ hs

/-- R57, R63: the start of a SEGMENTED run. -/
theorem startSegmented_spec (s : State) (hs : SegTableOk s) :
    (startSegmented s).acq.runKind = .segmented ∧ (startSegmented s).acq.runIndex = 0 ∧ (startSegmented s).acq.countDone = 0 ∧
    (startSegmented s).acq.lastDone = none ∧
    (¬ MeetsPin 0 s.setup.geometry.size s → Armed (FreedByRun s) 0 s.setup.geometry s (startSegmented s)) ∧
    (MeetsPin 0 s.setup.geometry.size s → HeldForPin (FreedByRun s) s (startSegmented s)) := by
  have hf := fun j => freeDone_run_record s j hs
  have hs' := segTableOk_freeDone (fun _ _ => true) s hs
  have hpin := fun j => pinnedRecord_freeDone (fun _ _ => true) s j hs
  obtain ⟨l, hl⟩ : ∃ l, freeDone (fun _ _ => true) s = s.withSegs l := ⟨_, rfl⟩
  obtain ⟨v, hv⟩ : ∃ v : State, v = { s.withSegs l with
      acq := { (s.withSegs l).acq with runKind := .segmented, runIndex := 0, countDone := 0, lastDone := none } } := ⟨_, rfl⟩
  simp only [hl] at hf hs' hpin
  have hvs : SegTableOk v := by subst hv; exact hs'
  have hst : startSegmented s = arm 0 v := by simp only [startSegmented, hl, hv]
  have hseg : ∀ j, segAt v j = segAt (s.withSegs l) j := by subst hv; exact fun _ => rfl
  have hno := freedByRun_start s l v hseg (by subst hv; rfl) hf v.setup.geometry
  have hfv : ∀ (m : State) j, FreedOrKept (FreedByArm 0 v.setup.geometry v) v m j → FreedOrKept (FreedByRun s) s m j := by
    intro m j h
    have h1 := h.2 (hno j)
    have h2 := hf j
    unfold FreedOrKept at *
    rw [h1, hseg j]
    exact h2
  have hm : MeetsPin 0 v.setup.geometry.size v ↔ MeetsPin 0 s.setup.geometry.size s := by
    unfold MeetsPin
    refine or_congr ?_ ?_
    · rw [← hpin 0]; subst hv; exact Iff.rfl
    · subst hv; exact Iff.rfl
  have ha := arm_spec 0 v hvs
  rw [hst]
  refine ⟨by subst hv; simp, by rw [arm_run]; subst hv; rfl, by subst hv; simp, by subst hv; simp, fun h => ?_, fun h => ?_⟩
  · obtain ⟨b, b1, b2, b3, b4, b5, b6⟩ := ha.1 (fun h' => h (hm.mp h'))
    refine ⟨b, ?_, ?_, b3, ?_, fun j hj => hfv _ j (b5 j hj), ?_⟩
    · subst hv; exact b1
    · subst hv; exact b2
    · subst hv; exact b4
    · subst hv; exact b6
  · obtain ⟨b1, b2, b3, b4, b5⟩ := ha.2 (hm.mpr h)
    refine ⟨b1, b2, fun j => hfv _ j (b3 j), b4, ?_⟩
    subst hv; exact b5

/-- R57, R63: a start under the run mode as it stands. -/
theorem launch_spec (s : State) (hs : SegTableOk s) : RunStarted s (launch s) := by
  refine ⟨fun h => ?_, fun h => ?_⟩
  · simp only [launch, h]; exact armRepeatOrRoll_spec s hs
  · simp only [launch, h]; exact startSegmented_spec s hs

/-- R38, R64: the arm at a release, in HELD. -/
theorem armHeld_spec (s : State) (hs : SegTableOk s) :
    (s.acq.runKind = .segmented → ArmedOrHeld s.acq.runIndex s (armHeld s) ∧ (armHeld s).acq.runKind = .segmented ∧
      (armHeld s).acq.runIndex = s.acq.runIndex ∧ (armHeld s).acq.countDone = s.acq.countDone ∧
      (armHeld s).acq.lastDone = s.acq.lastDone) ∧
    (s.acq.runKind ≠ .segmented → RepeatArmed s (armHeld s)) := by
  refine ⟨fun h => ?_, fun h => ?_⟩
  · simp only [armHeld, h]
    exact ⟨arm_spec _ s hs, by simp [h], arm_run _ s, by simp, by simp⟩
  · unfold armHeld
    split
    · rename_i h'; exact absurd h' h
    all_goals exact armRepeatOrRoll_spec s hs

/-! ## What a started run depends on -/

/-- A started run depends on these fields of the state it started from. -/
theorem RunStarted.congr {v s t : State} (h : RunStarted v t) (h1 : s.setup = v.setup) (h2 : s.gen = v.gen)
    (h3 : s.raster.job = v.raster.job) (h4 : s.raster.list = v.raster.list) (h5 : s.acq.segs = v.acq.segs)
    (h6 : s.acq.timeTag = v.acq.timeTag ∧ s.acq.forcePending = v.acq.forcePending ∧ s.acq.prevLayout = v.acq.prevLayout ∧
      s.acq.lastTrig = v.acq.lastTrig ∧ s.acq.mem = v.acq.mem ∧ s.acq.memEpoch = v.acq.memEpoch ∧
      s.acq.single = v.acq.single ∧ s.acq.serialCounter = v.acq.serialCounter ∧ s.acq.points = v.acq.points ∧
      s.acq.columnsLeft = v.acq.columnsLeft ∧ s.acq.countDone = v.acq.countDone ∧ s.acq.lastDone = v.acq.lastDone ∧
      s.acq.runIndex = v.acq.runIndex) : RunStarted s t := by
  obtain ⟨a1, a2, a3, a4, a5, a6, a7, a8, a9, a10, a11, a12, a13⟩ := h6
  have hseg : ∀ j, segAt s j = segAt v j := fun j => by simp only [segAt, h5]
  have hpin : ∀ j, PinnedRecord j s = PinnedRecord j v := fun j => by simp only [PinnedRecord, h3, hseg]
  have hmeet : ∀ k n, MeetsPin k n s = MeetsPin k n v := fun k n => by simp only [MeetsPin, hpin, h3]
  have hfree : ∀ k g, FreedByArm k g s = FreedByArm k g v := fun k g => by funext j; simp only [FreedByArm, hpin, hseg, a3]
  have hrun : FreedByRun s = FreedByRun v := by funext j; simp only [FreedByRun, hpin, hseg]
  have hkept : ∀ p j, FreedOrKept p s t j = FreedOrKept p v t j := fun p j => by simp only [FreedOrKept, hseg]
  have hinfo : ∀ g, freshInfo g s = freshInfo g v := fun g => by simp only [freshInfo, h2, a1]
  have harm : ∀ p k g, Armed p k g s t = Armed p k g v t := fun p k g => by
    simp only [Armed, hkept, hinfo, a1, a2, a4, a5, a7, a8]
  have hheld : ∀ p, HeldForPin p s t = HeldForPin p v t := fun p => by
    simp only [HeldForPin, hkept, a2, a3, a4, a5, a7, a8, a9]
  have hroll : ∀ g, RollEntered g s t = RollEntered g v t := fun g => by
    simp only [RollEntered, hkept, hinfo, hfree, h1, a4, a5, a6, a7, a8, a10]
  have hpinned : ∀ k, pinnedSeg s k = pinnedSeg v k := fun k => by simp only [pinnedSeg, doneWith, hseg, h3]
  have hpending : ∀ k, pendingSeg s k = pendingSeg v k := fun k => by simp only [pendingSeg, doneWith, autoEntry, hseg, h4]
  have hbuf : bufferChoice s = bufferChoice v := by
    unfold bufferChoice
    simp only [hpinned, hpending, a12]
  simpa only [RunStarted, RepeatArmed, ArmedOrHeld, h1, hmeet, hfree, hrun, harm, hheld, hroll, hbuf, a11, a12, a13] using h

/-- A started run stands in every later state with the same ACQ (primes cleared or not), with the notes entered and, in ROLLING,
the same RASTER. -/
theorem RunStarted.carry {s t t' : State} (h : RunStarted s t)
    (ha : t'.acq = t.acq ∨ t'.acq = { t.acq with risePrime := false, fallPrime := false })
    (hn : (∃ e ∈ t.link.notes, e.src = .acq) → ∃ e ∈ t'.link.notes, e.src = .acq)
    (hr : t.acq.state = .rolling → t'.raster = t.raster) : RunStarted s t' := by
  have hacq : t'.acq = { t.acq with risePrime := t'.acq.risePrime, fallPrime := t'.acq.fallPrime } := by
    rcases ha with ha | ha <;> rw [ha]
  have hp : t.acq.risePrime = false → t'.acq.risePrime = false := by rcases ha with ha | ha <;> rw [ha] <;> simp
  have hq : t.acq.fallPrime = false → t'.acq.fallPrime = false := by rcases ha with ha | ha <;> rw [ha] <;> simp
  have hseg : ∀ j, segAt t' j = segAt t j := fun j => by simp only [segAt]; rw [hacq]
  have hkept : ∀ p j, FreedOrKept p s t j → FreedOrKept p s t' j := fun p j h => by
    simpa only [FreedOrKept, hseg] using h
  have harm : ∀ p k g, Armed p k g s t → Armed p k g s t' := by
    rintro p k g ⟨b, b1, b2, b3, b4, b5, b6, b7, b8⟩
    refine ⟨b, b1, ?_, ?_, by rw [hseg]; exact b4, fun j hj => hkept _ _ (b5 j hj), hp b6, hq b7, ?_⟩
    · rw [hacq]; exact b2
    · rw [hacq]; exact b3
    · rw [hacq]; exact b8
  have hheld : ∀ p, HeldForPin p s t → HeldForPin p s t' := by
    rintro p ⟨b1, b2, b3, b4, b5⟩
    refine ⟨?_, ?_, fun j => hkept _ _ (b3 j), hn b4, ?_⟩
    · rw [hacq]; exact b1
    · rw [hacq]; exact b2
    · rw [hacq]; exact b5
  have hroll : ∀ g, RollEntered g s t → RollEntered g s t' := by
    rintro g ⟨b1, b2, b3, b4, b5, b6, b7, b8, b9, b10, b11, b12, b13, b14, b15, b16, b17⟩
    refine ⟨?_, ?_, by rw [hseg]; exact b3, fun j hj => hkept _ _ (b4 j hj), ?_, ?_, ?_, ?_, ?_, ?_, ?_, ?_, ?_, ?_, ?_,
      (hr b1).trans b16, hn b17⟩ <;> rw [hacq] <;> assumption
  refine ⟨fun hm => ?_, fun hm => ?_⟩
  · obtain ⟨c1, c2, c3, c4, c5⟩ := h.1 hm
    refine ⟨by rw [hacq]; exact c1, by rw [hacq]; exact c2, by rw [hacq]; exact c3, fun hc => ?_, fun hc => ?_⟩
    · obtain ⟨g, d1, d2, d3⟩ := c4 hc
      exact ⟨g, d1, fun hp => hroll _ (d2 hp), fun hp => ⟨hheld _ (d3 hp).1, by rw [hacq]; exact (d3 hp).2⟩⟩
    · obtain ⟨d1, d2⟩ := c5 hc
      exact ⟨by rw [hacq]; exact d1, fun hp => harm _ _ _ (d2.1 hp), fun hp => hheld _ (d2.2 hp)⟩
  · obtain ⟨c1, c2, c3, c4, c5, c6⟩ := h.2 hm
    exact ⟨by rw [hacq]; exact c1, by rw [hacq]; exact c2, by rw [hacq]; exact c3, by rw [hacq]; exact c4,
      fun hp => harm _ _ _ (c5 hp), fun hp => hheld _ (c6 hp)⟩

/-! ## What a start leaves of the screen and the notes -/

/-- R205: a source that stands in the note list stands in it after another has entered. -/
theorem noteEnter_mem (src src' : NoteSource) (l : List NoteEntry) (h : ∃ e ∈ l, e.src = src') :
    ∃ e ∈ noteEnter src l, e.src = src' := by
  obtain ⟨e, h1, h2⟩ := h
  simp only [noteEnter]
  split
  · exact ⟨_, List.mem_map_of_mem h1, by split <;> exact h2⟩
  · exact ⟨e, List.mem_append_left _ h1, h2⟩

theorem arm_notes (k : Nat) (s : State) :
    (arm k s).link.notes = s.link.notes ∨ (arm k s).link.notes = noteEnter .acq s.link.notes := by
  simp only [arm]
  split
  · right; simp [enterHeld, enterNote]
  · left; simp

theorem enterRoll_notes (s : State) : (enterRoll s).link.notes = noteEnter .acq s.link.notes := by
  simp only [enterRoll]
  split
  · simp [enterHeld, enterNote]
  · simp [enterNote, beginRoll]

/-- The start of a run leaves the note list as it was, or enters the ACQ note. -/
theorem launch_notes (s : State) :
    (launch s).link.notes = s.link.notes ∨ (launch s).link.notes = noteEnter .acq s.link.notes := by
  simp only [launch]
  split
  · simp only [armRepeatOrRoll]
    split
    · exact .inr (enterRoll_notes _)
    · exact arm_notes _ _
  · simp only [startSegmented]
    refine (arm_notes 0 _).imp (fun h => h.trans ?_) (fun h => h.trans ?_) <;> simp

/-- R111: the start of a run changes RASTER only by an entry into ROLLING. -/
theorem launch_raster (s : State) (h : (launch s).acq.state ≠ .rolling) : (launch s).raster = s.raster := by
  simp only [launch] at h ⊢
  split at h
  · simp only [armRepeatOrRoll] at h ⊢
    split at h
    · rename_i hc
      rw [if_pos hc]
      simp only [enterRoll] at h ⊢
      split at h
      · rename_i hw; rw [if_pos hw]; simp
      · exact absurd rfl h
    · rename_i hc; rw [if_neg hc]; simp [armRepeat]
  · simp [startSegmented]

theorem Armed.not_rolling {p : Nat → Prop} {k : Nat} {g : Geometry} {s t : State} (h : Armed p k g s t) :
    t.acq.state ≠ .rolling := by
  obtain ⟨b, _, h2, _⟩ := h
  rw [h2]
  cases b <;> by_cases hp : g.pre = 0 <;> simp [hp]

/-- R111: a started run that stands in ROLLING has cleared RASTER. -/
theorem RunStarted.rolling_raster {s t : State} (h : RunStarted s t) (hr : t.acq.state = .rolling) :
    t.raster = ⟨.const [], [], none, none, 0, false⟩ := by
  have held : ∀ p, ¬ HeldForPin p s t := fun p h => by rw [h.1] at hr; cases hr
  rcases hm : s.setup.runmode with _ | _
  · obtain ⟨_, _, _, c4, c5⟩ := h.1 hm
    by_cases hc : s.setup.roll = true ∧ s.setup.runmode = .repeats ∧ 21 ≤ s.setup.tbase
    · obtain ⟨g, _, d2, d3⟩ := c4 hc
      by_cases hp : MeetsPin 0 g.size s
      · exact absurd (d3 hp).1 (held _)
      · exact (d2 hp).2.2.2.2.2.2.2.2.2.2.2.2.2.2.2.1
    · obtain ⟨_, d1, d2⟩ := c5 hc
      by_cases hp : MeetsPin (bufferChoice s) s.setup.geometry.size s
      · exact absurd (d2 hp) (held _)
      · exact absurd hr (d1 hp).not_rolling
  · obtain ⟨_, _, _, _, c5, c6⟩ := h.2 hm
    by_cases hp : MeetsPin 0 s.setup.geometry.size s
    · exact absurd (c6 hp) (held _)
    · exact absurd hr (c5 hp).not_rolling

end Sys2Proof.Machine
end

