-- ==== Sys2Proof/Laws/Blocks.lean ====
section
/-! SUPPORT. One lemma for each operation of SETUP, STORE, PANEL, POWER, MON and LINK: what it leaves as it was. -/

namespace Sys2Proof.Machine

@[simp] theorem laneAfterChange_frame (a b : Setup) (s : State) :
    (laneAfterChange a b s).setup = s.setup ∧ (laneAfterChange a b s).gen = s.gen ∧ (laneAfterChange a b s).acq = s.acq ∧
    (laneAfterChange a b s).raster = s.raster ∧ (laneAfterChange a b s).compose = s.compose ∧
    (laneAfterChange a b s).panel = s.panel ∧ (laneAfterChange a b s).store = s.store ∧
    (laneAfterChange a b s).power = s.power ∧ (laneAfterChange a b s).link.inbound = s.link.inbound ∧
    (laneAfterChange a b s).link.answers = s.link.answers ∧ (laneAfterChange a b s).link.inPeriod = s.link.inPeriod ∧
    (laneAfterChange a b s).link.clocked = s.link.clocked ∧ (laneAfterChange a b s).link.gathered = s.link.gathered ∧
    (laneAfterChange a b s).link.ignoring = s.link.ignoring ∧ (laneAfterChange a b s).link.sending = s.link.sending ∧
    (laneAfterChange a b s).link.partly = s.link.partly ∧ (laneAfterChange a b s).pins = s.pins ∧
    (laneAfterChange a b s).pending = s.pending := by
  simp only [laneAfterChange, Chan.all, List.foldl]
  (repeat' split) <;> simp

@[simp] theorem tellAcq_frame (a b : Setup) (s : State) :
    (tellAcq a b s).setup = s.setup ∧ (tellAcq a b s).gen = s.gen ∧ (tellAcq a b s).acq.timeTag = s.acq.timeTag ∧
    (tellAcq a b s).acq.wraps = s.acq.wraps ∧ (tellAcq a b s).acq.nsPhase = s.acq.nsPhase ∧
    (tellAcq a b s).acq.held = s.acq.held ∧ (tellAcq a b s).acq.waves = s.acq.waves ∧
    (tellAcq a b s).acq.selfRefresh = s.acq.selfRefresh ∧ (tellAcq a b s).acq.memEpoch = s.acq.memEpoch ∧
    (tellAcq a b s).acq.serialCounter = s.acq.serialCounter ∧ (tellAcq a b s).acq.single = s.acq.single ∧
    (tellAcq a b s).mon = s.mon ∧ (tellAcq a b s).compose.frame = s.compose.frame ∧
    (tellAcq a b s).compose.palette = s.compose.palette ∧ (tellAcq a b s).compose.mode = s.compose.mode ∧
    (tellAcq a b s).compose.cursor = s.compose.cursor ∧ (tellAcq a b s).compose.mark = s.compose.mark ∧
    (tellAcq a b s).compose.owned = s.compose.owned ∧ (tellAcq a b s).compose.duty = s.compose.duty ∧
    (tellAcq a b s).compose.frameTimer = s.compose.frameTimer ∧ (tellAcq a b s).panel = s.panel ∧
    (tellAcq a b s).store = s.store ∧ (tellAcq a b s).power = s.power ∧ (tellAcq a b s).link.inbound = s.link.inbound ∧
    (tellAcq a b s).link.answers = s.link.answers ∧ (tellAcq a b s).link.inPeriod = s.link.inPeriod ∧
    (tellAcq a b s).link.clocked = s.link.clocked ∧ (tellAcq a b s).link.gathered = s.link.gathered ∧
    (tellAcq a b s).link.ignoring = s.link.ignoring ∧ (tellAcq a b s).link.sending = s.link.sending ∧
    (tellAcq a b s).link.partly = s.link.partly ∧ (tellAcq a b s).pins = s.pins ∧ (tellAcq a b s).pending = s.pending := by
  simp only [tellAcq]
  (repeat' split) <;> simp

@[simp] theorem tellTrig_frame (a b : Setup) (s : State) :
    (tellTrig a b s).setup = s.setup ∧ (tellTrig a b s).gen = s.gen ∧ (tellTrig a b s).acq.timeTag = s.acq.timeTag ∧
    (tellTrig a b s).acq.wraps = s.acq.wraps ∧ (tellTrig a b s).acq.nsPhase = s.acq.nsPhase ∧
    (tellTrig a b s).acq.held = s.acq.held ∧ (tellTrig a b s).acq.waves = s.acq.waves ∧
    (tellTrig a b s).acq.selfRefresh = s.acq.selfRefresh ∧ (tellTrig a b s).acq.memEpoch = s.acq.memEpoch ∧
    (tellTrig a b s).acq.mem = s.acq.mem ∧ (tellTrig a b s).acq.fresh = s.acq.fresh ∧
    (tellTrig a b s).raster.planes = s.raster.planes ∧ (tellTrig a b s).raster.job = s.raster.job ∧
    (tellTrig a b s).raster.view = s.raster.view ∧ (tellTrig a b s).raster.writeCol = s.raster.writeCol ∧
    (tellTrig a b s).raster.wrapped = s.raster.wrapped ∧ (tellTrig a b s).compose.frame = s.compose.frame ∧
    (tellTrig a b s).compose.palette = s.compose.palette ∧ (tellTrig a b s).compose.mode = s.compose.mode ∧
    (tellTrig a b s).compose.startCol = s.compose.startCol ∧ (tellTrig a b s).compose.cursor = s.compose.cursor ∧
    (tellTrig a b s).compose.mark = s.compose.mark ∧ (tellTrig a b s).compose.owned = s.compose.owned ∧
    (tellTrig a b s).compose.duty = s.compose.duty ∧ (tellTrig a b s).compose.frameTimer = s.compose.frameTimer ∧
    (tellTrig a b s).panel = s.panel ∧ (tellTrig a b s).store = s.store ∧ (tellTrig a b s).power = s.power ∧
    (tellTrig a b s).link.inbound = s.link.inbound ∧ (tellTrig a b s).link.answers = s.link.answers ∧
    (tellTrig a b s).link.inPeriod = s.link.inPeriod ∧ (tellTrig a b s).link.clocked = s.link.clocked ∧
    (tellTrig a b s).link.gathered = s.link.gathered ∧ (tellTrig a b s).link.ignoring = s.link.ignoring ∧
    (tellTrig a b s).link.sending = s.link.sending ∧ (tellTrig a b s).link.partly = s.link.partly ∧
    (tellTrig a b s).pins = s.pins ∧ (tellTrig a b s).pending = s.pending := by
  simp only [tellTrig]
  (repeat' split) <;> simp

@[simp] theorem tellMap_frame (a b : Setup) (s : State) :
    (tellMap a b s).setup = s.setup ∧ (tellMap a b s).gen = s.gen ∧ (tellMap a b s).acq = s.acq ∧
    (tellMap a b s).mon = s.mon ∧ (tellMap a b s).raster.view = s.raster.view ∧
    (tellMap a b s).raster.writeCol = s.raster.writeCol ∧ (tellMap a b s).raster.wrapped = s.raster.wrapped ∧
    (tellMap a b s).compose = s.compose ∧ (tellMap a b s).panel = s.panel ∧ (tellMap a b s).store = s.store ∧
    (tellMap a b s).power = s.power ∧ (tellMap a b s).link = s.link ∧ (tellMap a b s).pins = s.pins ∧
    (tellMap a b s).pending = s.pending := by
  simp only [tellMap]
  (repeat' split) <;> simp

@[simp] theorem tellAnnotation_frame (a b : Setup) (s : State) :
    (tellAnnotation a b s).setup = s.setup ∧ (tellAnnotation a b s).gen = s.gen ∧ (tellAnnotation a b s).acq = s.acq ∧
    (tellAnnotation a b s).mon = s.mon ∧ (tellAnnotation a b s).raster = s.raster ∧
    (tellAnnotation a b s).compose.frame = s.compose.frame ∧ (tellAnnotation a b s).compose.palette = s.compose.palette ∧
    (tellAnnotation a b s).compose.mode = s.compose.mode ∧ (tellAnnotation a b s).compose.startCol = s.compose.startCol ∧
    (tellAnnotation a b s).compose.cursor = s.compose.cursor ∧ (tellAnnotation a b s).compose.mark = s.compose.mark ∧
    (tellAnnotation a b s).compose.owned = s.compose.owned ∧ (tellAnnotation a b s).compose.duty = s.compose.duty ∧
    (tellAnnotation a b s).compose.frameTimer = s.compose.frameTimer ∧ (tellAnnotation a b s).panel = s.panel ∧
    (tellAnnotation a b s).store = s.store ∧ (tellAnnotation a b s).power = s.power ∧ (tellAnnotation a b s).link = s.link ∧
    (tellAnnotation a b s).pins = s.pins ∧ (tellAnnotation a b s).pending = s.pending := by
  simp only [tellAnnotation]
  (repeat' split) <;> simp

@[simp] theorem tellBlocks_frame (a b : Setup) (s : State) :
    (tellBlocks a b s).setup = s.setup ∧ (tellBlocks a b s).gen = s.gen ∧ (tellBlocks a b s).acq.timeTag = s.acq.timeTag ∧
    (tellBlocks a b s).acq.wraps = s.acq.wraps ∧ (tellBlocks a b s).acq.nsPhase = s.acq.nsPhase ∧
    (tellBlocks a b s).acq.held = s.acq.held ∧ (tellBlocks a b s).acq.waves = s.acq.waves ∧
    (tellBlocks a b s).acq.selfRefresh = s.acq.selfRefresh ∧ (tellBlocks a b s).acq.memEpoch = s.acq.memEpoch ∧
    (tellBlocks a b s).compose.frame = s.compose.frame ∧ (tellBlocks a b s).compose.palette = s.compose.palette ∧
    (tellBlocks a b s).compose.mode = s.compose.mode ∧ (tellBlocks a b s).compose.cursor = s.compose.cursor ∧
    (tellBlocks a b s).compose.mark = s.compose.mark ∧ (tellBlocks a b s).compose.owned = s.compose.owned ∧
    (tellBlocks a b s).compose.duty = s.compose.duty ∧ (tellBlocks a b s).compose.frameTimer = s.compose.frameTimer ∧
    (tellBlocks a b s).panel = s.panel ∧ (tellBlocks a b s).store = s.store ∧ (tellBlocks a b s).power = s.power ∧
    (tellBlocks a b s).link.inbound = s.link.inbound ∧ (tellBlocks a b s).link.answers = s.link.answers ∧
    (tellBlocks a b s).link.inPeriod = s.link.inPeriod ∧ (tellBlocks a b s).link.clocked = s.link.clocked ∧
    (tellBlocks a b s).link.gathered = s.link.gathered ∧ (tellBlocks a b s).link.ignoring = s.link.ignoring ∧
    (tellBlocks a b s).link.sending = s.link.sending ∧ (tellBlocks a b s).link.partly = s.link.partly ∧
    (tellBlocks a b s).pins = s.pins ∧ (tellBlocks a b s).pending = s.pending := by
  simp only [tellBlocks]
  (repeat' split) <;> simp

@[simp] theorem adopt_frame (u : Setup) (s : State) :
    (adopt u s).acq.timeTag = s.acq.timeTag ∧ (adopt u s).acq.wraps = s.acq.wraps ∧
    (adopt u s).acq.nsPhase = s.acq.nsPhase ∧ (adopt u s).acq.held = s.acq.held ∧ (adopt u s).acq.waves = s.acq.waves ∧
    (adopt u s).acq.selfRefresh = s.acq.selfRefresh ∧ (adopt u s).acq.memEpoch = s.acq.memEpoch ∧
    (adopt u s).compose.frame = s.compose.frame ∧ (adopt u s).compose.palette = s.compose.palette ∧
    (adopt u s).compose.mode = s.compose.mode ∧ (adopt u s).compose.cursor = s.compose.cursor ∧
    (adopt u s).compose.mark = s.compose.mark ∧ (adopt u s).compose.owned = s.compose.owned ∧
    (adopt u s).compose.duty = s.compose.duty ∧ (adopt u s).compose.frameTimer = s.compose.frameTimer ∧
    (adopt u s).panel = s.panel ∧ (adopt u s).store = s.store ∧ (adopt u s).power = s.power ∧
    (adopt u s).link.inbound = s.link.inbound ∧ (adopt u s).link.answers = s.link.answers ∧
    (adopt u s).link.inPeriod = s.link.inPeriod ∧ (adopt u s).link.clocked = s.link.clocked ∧
    (adopt u s).link.gathered = s.link.gathered ∧ (adopt u s).link.ignoring = s.link.ignoring ∧
    (adopt u s).link.sending = s.link.sending ∧ (adopt u s).link.partly = s.link.partly ∧ (adopt u s).pins = s.pins ∧
    (adopt u s).pending = s.pending := by
  simp only [adopt]
  (repeat' split) <;> simp

/-- R11, R12: the record and G after a change. -/
theorem adopt_record (u : Setup) (s : State) :
    (adopt u s).setup = u ∧ (adopt u s).gen = if u = s.setup then s.gen else s.gen + 1 := by
  simp only [adopt]
  split <;> simp_all

@[simp] theorem setDir_frame (k : Nat) (e : DirEntry) (s : State) :
    (setDir k e s).setup = s.setup ∧ (setDir k e s).gen = s.gen ∧ (setDir k e s).acq = s.acq ∧ (setDir k e s).mon = s.mon ∧
    (setDir k e s).raster = s.raster ∧ (setDir k e s).compose = s.compose ∧ (setDir k e s).panel = s.panel ∧
    (setDir k e s).store.queue = s.store.queue ∧ (setDir k e s).store.running = s.store.running ∧
    (setDir k e s).store.scan = s.store.scan ∧ (setDir k e s).store.step = s.store.step ∧
    (setDir k e s).store.bus = s.store.bus ∧ (setDir k e s).store.withheld = s.store.withheld ∧
    (setDir k e s).store.autosaves = s.store.autosaves ∧
    (setDir k e s).store.last = s.store.last ∧ (setDir k e s).power = s.power ∧ (setDir k e s).link = s.link ∧
    (setDir k e s).pins = s.pins ∧ (setDir k e s).pending = s.pending := by
  simp only [setDir]
  (repeat' split) <;> simp

@[simp] theorem startStep_frame (s : State) :
    (startStep s).setup = s.setup ∧ (startStep s).gen = s.gen ∧ (startStep s).acq = s.acq ∧ (startStep s).mon = s.mon ∧
    (startStep s).raster = s.raster ∧ (startStep s).compose = s.compose ∧ (startStep s).panel = s.panel ∧
    (startStep s).store.dir = s.store.dir ∧ (startStep s).store.queue = s.store.queue ∧
    (startStep s).store.running = s.store.running ∧ (startStep s).store.scan = s.store.scan ∧
    (startStep s).store.bus = s.store.bus ∧ (startStep s).store.withheld = s.store.withheld ∧
    (startStep s).store.autosaves = s.store.autosaves ∧
    (startStep s).store.last = s.store.last ∧ (startStep s).power = s.power ∧ (startStep s).link = s.link ∧
    (startStep s).pins = s.pins ∧ (startStep s).pending = s.pending := by
  simp only [startStep]
  (repeat' split) <;> simp

@[simp] theorem endJob_frame (r : JobResult) (s : State) :
    (endJob r s).setup = s.setup ∧ (endJob r s).gen = s.gen ∧ (endJob r s).acq = s.acq ∧ (endJob r s).raster = s.raster ∧
    (endJob r s).compose = s.compose ∧ (endJob r s).panel = s.panel ∧ (endJob r s).store.dir = s.store.dir ∧
    (endJob r s).store.scan = s.store.scan ∧ (endJob r s).store.step = s.store.step ∧
    (endJob r s).store.bus = s.store.bus ∧ (endJob r s).store.withheld = s.store.withheld ∧
    (endJob r s).store.autosaves = s.store.autosaves ∧ (endJob r s).power = s.power ∧
    (endJob r s).link.inbound = s.link.inbound ∧ (endJob r s).link.answers = s.link.answers ∧
    (endJob r s).link.inPeriod = s.link.inPeriod ∧ (endJob r s).link.clocked = s.link.clocked ∧
    (endJob r s).link.gathered = s.link.gathered ∧ (endJob r s).link.ignoring = s.link.ignoring ∧
    (endJob r s).link.sending = s.link.sending ∧ (endJob r s).link.partly = s.link.partly ∧ (endJob r s).pins = s.pins ∧
    (endJob r s).pending = s.pending := by
  simp only [endJob]
  (repeat' split) <;> simp

@[simp] theorem setPhase_frame (p : JobPhase) (s : State) :
    (setPhase p s).setup = s.setup ∧ (setPhase p s).gen = s.gen ∧ (setPhase p s).acq = s.acq ∧ (setPhase p s).mon = s.mon ∧
    (setPhase p s).raster = s.raster ∧ (setPhase p s).compose = s.compose ∧ (setPhase p s).panel = s.panel ∧
    (setPhase p s).store.dir = s.store.dir ∧ (setPhase p s).store.queue = s.store.queue ∧
    (setPhase p s).store.scan = s.store.scan ∧ (setPhase p s).store.step = s.store.step ∧
    (setPhase p s).store.bus = s.store.bus ∧ (setPhase p s).store.withheld = s.store.withheld ∧
    (setPhase p s).store.autosaves = s.store.autosaves ∧
    (setPhase p s).store.last = s.store.last ∧ (setPhase p s).power = s.power ∧ (setPhase p s).link = s.link ∧
    (setPhase p s).pins = s.pins ∧ (setPhase p s).pending = s.pending := by
  simp only [setPhase]
  (repeat' split) <;> simp

@[simp] theorem setAltered_frame (s : State) :
    (setAltered s).setup = s.setup ∧ (setAltered s).gen = s.gen ∧ (setAltered s).acq = s.acq ∧ (setAltered s).mon = s.mon ∧
    (setAltered s).raster = s.raster ∧ (setAltered s).compose = s.compose ∧ (setAltered s).panel = s.panel ∧
    (setAltered s).store.dir = s.store.dir ∧ (setAltered s).store.queue = s.store.queue ∧
    (setAltered s).store.scan = s.store.scan ∧ (setAltered s).store.step = s.store.step ∧
    (setAltered s).store.bus = s.store.bus ∧ (setAltered s).store.withheld = s.store.withheld ∧
    (setAltered s).store.autosaves = s.store.autosaves ∧
    (setAltered s).store.last = s.store.last ∧ (setAltered s).power = s.power ∧ (setAltered s).link = s.link ∧
    (setAltered s).pins = s.pins ∧ (setAltered s).pending = s.pending := by
  simp only [setAltered]
  (repeat' split) <;> simp

@[simp] theorem finishAbandoned_frame (r : Running) (s : State) :
    (finishAbandoned r s).setup = s.setup ∧ (finishAbandoned r s).gen = s.gen ∧ (finishAbandoned r s).acq = s.acq ∧
    (finishAbandoned r s).raster = s.raster ∧ (finishAbandoned r s).compose = s.compose ∧
    (finishAbandoned r s).panel = s.panel ∧ (finishAbandoned r s).store.dir = s.store.dir ∧
    (finishAbandoned r s).store.scan = s.store.scan ∧ (finishAbandoned r s).store.step = s.store.step ∧
    (finishAbandoned r s).store.bus = s.store.bus ∧ (finishAbandoned r s).store.withheld = s.store.withheld ∧
    (finishAbandoned r s).store.autosaves = s.store.autosaves ∧
    (finishAbandoned r s).power = s.power ∧ (finishAbandoned r s).link.inbound = s.link.inbound ∧
    (finishAbandoned r s).link.answers = s.link.answers ∧ (finishAbandoned r s).link.inPeriod = s.link.inPeriod ∧
    (finishAbandoned r s).link.clocked = s.link.clocked ∧ (finishAbandoned r s).link.gathered = s.link.gathered ∧
    (finishAbandoned r s).link.ignoring = s.link.ignoring ∧ (finishAbandoned r s).link.sending = s.link.sending ∧
    (finishAbandoned r s).link.partly = s.link.partly ∧ (finishAbandoned r s).pins = s.pins ∧
    (finishAbandoned r s).pending = s.pending := by
  simp only [finishAbandoned]
  (repeat' split) <;> simp

@[simp] theorem applyDecision_frame (d : Except JobResult JobPhase) (s : State) :
    (applyDecision d s).setup = s.setup ∧ (applyDecision d s).gen = s.gen ∧ (applyDecision d s).acq = s.acq ∧
    (applyDecision d s).raster = s.raster ∧ (applyDecision d s).compose = s.compose ∧ (applyDecision d s).panel = s.panel ∧
    (applyDecision d s).store.dir = s.store.dir ∧ (applyDecision d s).store.scan = s.store.scan ∧
    (applyDecision d s).store.step = s.store.step ∧ (applyDecision d s).store.bus = s.store.bus ∧
    (applyDecision d s).store.withheld = s.store.withheld ∧
    (applyDecision d s).store.autosaves = s.store.autosaves ∧ (applyDecision d s).power = s.power ∧
    (applyDecision d s).link.inbound = s.link.inbound ∧ (applyDecision d s).link.answers = s.link.answers ∧
    (applyDecision d s).link.inPeriod = s.link.inPeriod ∧ (applyDecision d s).link.clocked = s.link.clocked ∧
    (applyDecision d s).link.gathered = s.link.gathered ∧ (applyDecision d s).link.ignoring = s.link.ignoring ∧
    (applyDecision d s).link.sending = s.link.sending ∧ (applyDecision d s).link.partly = s.link.partly ∧
    (applyDecision d s).pins = s.pins ∧ (applyDecision d s).pending = s.pending := by
  simp only [applyDecision]
  (repeat' split) <;> simp

@[simp] theorem endScan_frame (b : Bool) (s : State) :
    (endScan b s).setup = s.setup ∧ (endScan b s).gen = s.gen ∧ (endScan b s).acq = s.acq ∧ (endScan b s).mon = s.mon ∧
    (endScan b s).raster = s.raster ∧ (endScan b s).compose = s.compose ∧ (endScan b s).panel = s.panel ∧
    (endScan b s).store.dir = s.store.dir ∧ (endScan b s).store.running = s.store.running ∧
    (endScan b s).store.step = s.store.step ∧ (endScan b s).store.bus = s.store.bus ∧
    (endScan b s).store.withheld = s.store.withheld ∧
    (endScan b s).store.autosaves = s.store.autosaves ∧ (endScan b s).power = s.power ∧
    (endScan b s).link.inbound = s.link.inbound ∧ (endScan b s).link.answers = s.link.answers ∧
    (endScan b s).link.inPeriod = s.link.inPeriod ∧ (endScan b s).link.clocked = s.link.clocked ∧
    (endScan b s).link.gathered = s.link.gathered ∧ (endScan b s).link.ignoring = s.link.ignoring ∧
    (endScan b s).link.sending = s.link.sending ∧ (endScan b s).link.partly = s.link.partly ∧ (endScan b s).pins = s.pins ∧
    (endScan b s).pending = s.pending := by
  simp only [endScan]
  (repeat' split) <;> simp

@[simp] theorem scanOn_frame (sc : Scan) (b : Bool) (s : State) :
    (scanOn sc b s).setup = s.setup ∧ (scanOn sc b s).gen = s.gen ∧ (scanOn sc b s).acq = s.acq ∧
    (scanOn sc b s).mon = s.mon ∧ (scanOn sc b s).raster = s.raster ∧ (scanOn sc b s).compose = s.compose ∧
    (scanOn sc b s).panel = s.panel ∧ (scanOn sc b s).store.dir = s.store.dir ∧
    (scanOn sc b s).store.running = s.store.running ∧ (scanOn sc b s).store.step = s.store.step ∧
    (scanOn sc b s).store.bus = s.store.bus ∧ (scanOn sc b s).store.withheld = s.store.withheld ∧
    (scanOn sc b s).store.autosaves = s.store.autosaves ∧
    (scanOn sc b s).power = s.power ∧ (scanOn sc b s).link.inbound = s.link.inbound ∧
    (scanOn sc b s).link.answers = s.link.answers ∧ (scanOn sc b s).link.inPeriod = s.link.inPeriod ∧
    (scanOn sc b s).link.clocked = s.link.clocked ∧ (scanOn sc b s).link.gathered = s.link.gathered ∧
    (scanOn sc b s).link.ignoring = s.link.ignoring ∧ (scanOn sc b s).link.sending = s.link.sending ∧
    (scanOn sc b s).link.partly = s.link.partly ∧ (scanOn sc b s).pins = s.pins ∧ (scanOn sc b s).pending = s.pending := by
  simp only [scanOn]
  (repeat' split) <;> simp

@[simp] theorem noteWanted_frame (s : State) :
    (noteWanted s).setup = s.setup ∧ (noteWanted s).gen = s.gen ∧ (noteWanted s).acq = s.acq ∧ (noteWanted s).mon = s.mon ∧
    (noteWanted s).raster = s.raster ∧ (noteWanted s).compose = s.compose ∧ (noteWanted s).panel = s.panel ∧
    (noteWanted s).store = s.store ∧ (noteWanted s).power = s.power ∧ (noteWanted s).link.inbound = s.link.inbound ∧
    (noteWanted s).link.answers = s.link.answers ∧ (noteWanted s).link.inPeriod = s.link.inPeriod ∧
    (noteWanted s).link.clocked = s.link.clocked ∧ (noteWanted s).link.gathered = s.link.gathered ∧
    (noteWanted s).link.ignoring = s.link.ignoring ∧ (noteWanted s).link.sending = s.link.sending ∧
    (noteWanted s).link.partly = s.link.partly ∧ (noteWanted s).pins = s.pins ∧ (noteWanted s).pending = s.pending := by
  simp only [noteWanted]
  (repeat' split) <;> simp

@[simp] theorem lendIfAsked_frame (s : State) :
    (lendIfAsked s).setup = s.setup ∧ (lendIfAsked s).gen = s.gen ∧ (lendIfAsked s).acq = s.acq ∧
    (lendIfAsked s).mon = s.mon ∧ (lendIfAsked s).raster = s.raster ∧ (lendIfAsked s).compose = s.compose ∧
    (lendIfAsked s).panel = s.panel ∧ (lendIfAsked s).store.dir = s.store.dir ∧
    (lendIfAsked s).store.queue = s.store.queue ∧ (lendIfAsked s).store.running = s.store.running ∧
    (lendIfAsked s).store.scan = s.store.scan ∧ (lendIfAsked s).store.step = s.store.step ∧
    (lendIfAsked s).store.last = s.store.last ∧ (lendIfAsked s).power = s.power ∧
    (lendIfAsked s).link.inbound = s.link.inbound ∧ (lendIfAsked s).link.inPeriod = s.link.inPeriod ∧
    (lendIfAsked s).link.clocked = s.link.clocked ∧ (lendIfAsked s).link.gathered = s.link.gathered ∧
    (lendIfAsked s).link.ignoring = s.link.ignoring ∧ (lendIfAsked s).link.sending = s.link.sending ∧
    (lendIfAsked s).link.partly = s.link.partly ∧ (lendIfAsked s).pins = s.pins ∧ (lendIfAsked s).pending = s.pending := by
  simp only [lendIfAsked]
  (repeat' split) <;> simp

@[simp] theorem scanRead_frame (sc : Scan) (p : List Byte) (s : State) :
    (scanRead sc p s).setup = s.setup ∧ (scanRead sc p s).gen = s.gen ∧ (scanRead sc p s).acq = s.acq ∧
    (scanRead sc p s).mon = s.mon ∧ (scanRead sc p s).raster = s.raster ∧ (scanRead sc p s).compose = s.compose ∧
    (scanRead sc p s).panel = s.panel ∧ (scanRead sc p s).store.running = s.store.running ∧
    (scanRead sc p s).store.step = s.store.step ∧ (scanRead sc p s).store.bus = s.store.bus ∧
    (scanRead sc p s).store.withheld = s.store.withheld ∧
    (scanRead sc p s).store.autosaves = s.store.autosaves ∧ (scanRead sc p s).power = s.power ∧
    (scanRead sc p s).link.inbound = s.link.inbound ∧ (scanRead sc p s).link.answers = s.link.answers ∧
    (scanRead sc p s).link.inPeriod = s.link.inPeriod ∧ (scanRead sc p s).link.clocked = s.link.clocked ∧
    (scanRead sc p s).link.gathered = s.link.gathered ∧ (scanRead sc p s).link.ignoring = s.link.ignoring ∧
    (scanRead sc p s).link.sending = s.link.sending ∧ (scanRead sc p s).link.partly = s.link.partly ∧
    (scanRead sc p s).pins = s.pins ∧ (scanRead sc p s).pending = s.pending := by
  simp only [scanRead]
  (repeat' split) <;> simp

@[simp] theorem jobProgrammed_frame (j : StoreJob) (p : JobPhase) (d : List Byte) (s : State) :
    (jobProgrammed j p d s).setup = s.setup ∧ (jobProgrammed j p d s).gen = s.gen ∧ (jobProgrammed j p d s).acq = s.acq ∧
    (jobProgrammed j p d s).raster = s.raster ∧ (jobProgrammed j p d s).compose = s.compose ∧
    (jobProgrammed j p d s).panel = s.panel ∧ (jobProgrammed j p d s).store.scan = s.store.scan ∧
    (jobProgrammed j p d s).store.step = s.store.step ∧ (jobProgrammed j p d s).store.bus = s.store.bus ∧
    (jobProgrammed j p d s).store.withheld = s.store.withheld ∧
    (jobProgrammed j p d s).store.autosaves = s.store.autosaves ∧ (jobProgrammed j p d s).power = s.power ∧
    (jobProgrammed j p d s).link.inbound = s.link.inbound ∧ (jobProgrammed j p d s).link.answers = s.link.answers ∧
    (jobProgrammed j p d s).link.inPeriod = s.link.inPeriod ∧ (jobProgrammed j p d s).link.clocked = s.link.clocked ∧
    (jobProgrammed j p d s).link.gathered = s.link.gathered ∧ (jobProgrammed j p d s).link.ignoring = s.link.ignoring ∧
    (jobProgrammed j p d s).link.sending = s.link.sending ∧ (jobProgrammed j p d s).link.partly = s.link.partly ∧
    (jobProgrammed j p d s).pins = s.pins ∧ (jobProgrammed j p d s).pending = s.pending := by
  simp only [jobProgrammed]
  (repeat' split) <;> simp

@[simp] theorem jobErased_frame (j : StoreJob) (p : JobPhase) (s : State) :
    (jobErased j p s).setup = s.setup ∧ (jobErased j p s).gen = s.gen ∧ (jobErased j p s).acq = s.acq ∧
    (jobErased j p s).raster = s.raster ∧ (jobErased j p s).compose = s.compose ∧ (jobErased j p s).panel = s.panel ∧
    (jobErased j p s).store.scan = s.store.scan ∧ (jobErased j p s).store.step = s.store.step ∧
    (jobErased j p s).store.bus = s.store.bus ∧ (jobErased j p s).store.withheld = s.store.withheld ∧
    (jobErased j p s).store.autosaves = s.store.autosaves ∧
    (jobErased j p s).power = s.power ∧ (jobErased j p s).link.inbound = s.link.inbound ∧
    (jobErased j p s).link.answers = s.link.answers ∧ (jobErased j p s).link.inPeriod = s.link.inPeriod ∧
    (jobErased j p s).link.clocked = s.link.clocked ∧ (jobErased j p s).link.gathered = s.link.gathered ∧
    (jobErased j p s).link.ignoring = s.link.ignoring ∧ (jobErased j p s).link.sending = s.link.sending ∧
    (jobErased j p s).link.partly = s.link.partly ∧ (jobErased j p s).pins = s.pins ∧ (jobErased j p s).pending = s.pending := by
  simp only [jobErased]
  (repeat' split) <;> simp

@[simp] theorem jobTimeout_frame (j : StoreJob) (r : Running) (s : State) :
    (jobTimeout j r s).setup = s.setup ∧ (jobTimeout j r s).gen = s.gen ∧ (jobTimeout j r s).acq = s.acq ∧
    (jobTimeout j r s).raster = s.raster ∧ (jobTimeout j r s).compose = s.compose ∧ (jobTimeout j r s).panel = s.panel ∧
    (jobTimeout j r s).store.scan = s.store.scan ∧ (jobTimeout j r s).store.step = s.store.step ∧
    (jobTimeout j r s).store.bus = s.store.bus ∧ (jobTimeout j r s).store.withheld = s.store.withheld ∧
    (jobTimeout j r s).store.autosaves = s.store.autosaves ∧
    (jobTimeout j r s).power = s.power ∧ (jobTimeout j r s).link.inbound = s.link.inbound ∧
    (jobTimeout j r s).link.answers = s.link.answers ∧ (jobTimeout j r s).link.inPeriod = s.link.inPeriod ∧
    (jobTimeout j r s).link.clocked = s.link.clocked ∧ (jobTimeout j r s).link.gathered = s.link.gathered ∧
    (jobTimeout j r s).link.ignoring = s.link.ignoring ∧ (jobTimeout j r s).link.sending = s.link.sending ∧
    (jobTimeout j r s).link.partly = s.link.partly ∧ (jobTimeout j r s).pins = s.pins ∧
    (jobTimeout j r s).pending = s.pending := by
  simp only [jobTimeout]
  (repeat' split) <;> simp

@[simp] theorem stepTimeout_frame (s : State) :
    (stepTimeout s).setup = s.setup ∧ (stepTimeout s).gen = s.gen ∧ (stepTimeout s).acq = s.acq ∧
    (stepTimeout s).raster = s.raster ∧ (stepTimeout s).compose = s.compose ∧ (stepTimeout s).panel = s.panel ∧
    (stepTimeout s).store.step = s.store.step ∧ (stepTimeout s).store.bus = s.store.bus ∧
    (stepTimeout s).store.withheld = s.store.withheld ∧
    (stepTimeout s).store.autosaves = s.store.autosaves ∧ (stepTimeout s).power = s.power ∧
    (stepTimeout s).link.inbound = s.link.inbound ∧ (stepTimeout s).link.answers = s.link.answers ∧
    (stepTimeout s).link.inPeriod = s.link.inPeriod ∧ (stepTimeout s).link.clocked = s.link.clocked ∧
    (stepTimeout s).link.gathered = s.link.gathered ∧ (stepTimeout s).link.ignoring = s.link.ignoring ∧
    (stepTimeout s).link.sending = s.link.sending ∧ (stepTimeout s).link.partly = s.link.partly ∧
    (stepTimeout s).pins = s.pins ∧ (stepTimeout s).pending = s.pending := by
  simp only [stepTimeout]
  (repeat' split) <;> simp

@[simp] theorem startJobNow_frame (s : State) :
    (startJobNow s).setup = s.setup ∧ (startJobNow s).gen = s.gen ∧ (startJobNow s).acq = s.acq ∧
    (startJobNow s).raster = s.raster ∧ (startJobNow s).compose = s.compose ∧ (startJobNow s).panel = s.panel ∧
    (startJobNow s).store.dir = s.store.dir ∧ (startJobNow s).store.scan = s.store.scan ∧
    (startJobNow s).store.bus = s.store.bus ∧ (startJobNow s).store.withheld = s.store.withheld ∧
    (startJobNow s).store.autosaves = s.store.autosaves ∧
    (startJobNow s).power = s.power ∧ (startJobNow s).link.inbound = s.link.inbound ∧
    (startJobNow s).link.answers = s.link.answers ∧ (startJobNow s).link.inPeriod = s.link.inPeriod ∧
    (startJobNow s).link.clocked = s.link.clocked ∧ (startJobNow s).link.gathered = s.link.gathered ∧
    (startJobNow s).link.ignoring = s.link.ignoring ∧ (startJobNow s).link.sending = s.link.sending ∧
    (startJobNow s).link.partly = s.link.partly ∧ (startJobNow s).pins = s.pins ∧ (startJobNow s).pending = s.pending := by
  simp only [startJobNow]
  (repeat' split) <;> simp

@[simp] theorem enqueueJob_frame (j : StoreJob) (s : State) :
    (enqueueJob j s).setup = s.setup ∧ (enqueueJob j s).gen = s.gen ∧ (enqueueJob j s).acq = s.acq ∧
    (enqueueJob j s).mon = s.mon ∧ (enqueueJob j s).raster = s.raster ∧ (enqueueJob j s).compose = s.compose ∧
    (enqueueJob j s).panel = s.panel ∧ (enqueueJob j s).store.dir = s.store.dir ∧
    (enqueueJob j s).store.running = s.store.running ∧ (enqueueJob j s).store.scan = s.store.scan ∧
    (enqueueJob j s).store.step = s.store.step ∧ (enqueueJob j s).store.bus = s.store.bus ∧
    (enqueueJob j s).store.withheld = s.store.withheld ∧
    (enqueueJob j s).store.autosaves = s.store.autosaves ∧ (enqueueJob j s).store.last = s.store.last ∧
    (enqueueJob j s).power = s.power ∧ (enqueueJob j s).link.inbound = s.link.inbound ∧
    (enqueueJob j s).link.answers = s.link.answers ∧ (enqueueJob j s).link.inPeriod = s.link.inPeriod ∧
    (enqueueJob j s).link.clocked = s.link.clocked ∧ (enqueueJob j s).link.gathered = s.link.gathered ∧
    (enqueueJob j s).link.ignoring = s.link.ignoring ∧ (enqueueJob j s).link.sending = s.link.sending ∧
    (enqueueJob j s).link.partly = s.link.partly ∧ (enqueueJob j s).pins = s.pins ∧ (enqueueJob j s).pending = s.pending := by
  simp only [enqueueJob]
  (repeat' split) <;> simp

@[simp] theorem autosaveActs_frame (b : Bool) (j : StoreJob) (s : State) :
    (autosaveActs b s j).setup = s.setup ∧ (autosaveActs b s j).gen = s.gen ∧ (autosaveActs b s j).acq = s.acq ∧
    (autosaveActs b s j).mon = s.mon ∧
    (autosaveActs b s j).raster = s.raster ∧ (autosaveActs b s j).compose = s.compose ∧ (autosaveActs b s j).panel = s.panel ∧
    (autosaveActs b s j).store.dir = s.store.dir ∧ (autosaveActs b s j).store.running = s.store.running ∧
    (autosaveActs b s j).store.scan = s.store.scan ∧ (autosaveActs b s j).store.step = s.store.step ∧
    (autosaveActs b s j).store.bus = s.store.bus ∧ (autosaveActs b s j).store.withheld = s.store.withheld ∧
    (autosaveActs b s j).store.autosaves = s.store.autosaves ∧ (autosaveActs b s j).power = s.power ∧
    (autosaveActs b s j).link.inbound = s.link.inbound ∧ (autosaveActs b s j).link.answers = s.link.answers ∧
    (autosaveActs b s j).link.inPeriod = s.link.inPeriod ∧ (autosaveActs b s j).link.clocked = s.link.clocked ∧
    (autosaveActs b s j).link.gathered = s.link.gathered ∧ (autosaveActs b s j).link.ignoring = s.link.ignoring ∧
    (autosaveActs b s j).link.sending = s.link.sending ∧ (autosaveActs b s j).link.partly = s.link.partly ∧ (autosaveActs b s j).pins = s.pins ∧
    (autosaveActs b s j).pending = s.pending := by
  simp only [autosaveActs]
  (repeat' split) <;> simp

@[simp] theorem autosave_frame (s : State) :
    (autosave s).setup = s.setup ∧ (autosave s).gen = s.gen ∧ (autosave s).acq = s.acq ∧ (autosave s).mon = s.mon ∧
    (autosave s).raster = s.raster ∧ (autosave s).compose = s.compose ∧ (autosave s).panel = s.panel ∧
    (autosave s).store.dir = s.store.dir ∧ (autosave s).store.running = s.store.running ∧
    (autosave s).store.scan = s.store.scan ∧ (autosave s).store.step = s.store.step ∧
    (autosave s).store.bus = s.store.bus ∧ (autosave s).store.withheld = s.store.withheld ∧ (autosave s).power = s.power ∧
    (autosave s).link.inbound = s.link.inbound ∧ (autosave s).link.answers = s.link.answers ∧
    (autosave s).link.inPeriod = s.link.inPeriod ∧ (autosave s).link.clocked = s.link.clocked ∧
    (autosave s).link.gathered = s.link.gathered ∧ (autosave s).link.ignoring = s.link.ignoring ∧
    (autosave s).link.sending = s.link.sending ∧ (autosave s).link.partly = s.link.partly ∧ (autosave s).pins = s.pins ∧
    (autosave s).pending = s.pending := by
  simp only [autosave]
  (repeat' split) <;> simp

@[simp] theorem storeRestart_frame (s : State) :
    (storeRestart s).setup = s.setup ∧ (storeRestart s).gen = s.gen ∧ (storeRestart s).acq = s.acq ∧
    (storeRestart s).mon = s.mon ∧ (storeRestart s).raster = s.raster ∧ (storeRestart s).compose = s.compose ∧
    (storeRestart s).panel = s.panel ∧ (storeRestart s).store.dir = s.store.dir ∧
    (storeRestart s).store.running = s.store.running ∧ (storeRestart s).store.scan = s.store.scan ∧
    (storeRestart s).store.step = s.store.step ∧ (storeRestart s).store.bus = s.store.bus ∧
    (storeRestart s).store.withheld = s.store.withheld ∧ (storeRestart s).store.last = s.store.last ∧
    (storeRestart s).power = s.power ∧ (storeRestart s).link = s.link ∧ (storeRestart s).pins = s.pins ∧
    (storeRestart s).pending = s.pending := by
  simp only [storeRestart]
  (repeat' split) <;> simp

@[simp] theorem storeAbandon_frame (s : State) :
    (storeAbandon s).setup = s.setup ∧ (storeAbandon s).gen = s.gen ∧ (storeAbandon s).acq = s.acq ∧
    (storeAbandon s).raster = s.raster ∧ (storeAbandon s).compose = s.compose ∧ (storeAbandon s).panel = s.panel ∧
    (storeAbandon s).store.dir = s.store.dir ∧ (storeAbandon s).store.scan = s.store.scan ∧
    (storeAbandon s).store.bus = s.store.bus ∧ (storeAbandon s).store.withheld = s.store.withheld ∧
    (storeAbandon s).store.autosaves = s.store.autosaves ∧
    (storeAbandon s).power = s.power ∧ (storeAbandon s).link.inbound = s.link.inbound ∧
    (storeAbandon s).link.answers = s.link.answers ∧ (storeAbandon s).link.inPeriod = s.link.inPeriod ∧
    (storeAbandon s).link.clocked = s.link.clocked ∧ (storeAbandon s).link.gathered = s.link.gathered ∧
    (storeAbandon s).link.ignoring = s.link.ignoring ∧ (storeAbandon s).link.sending = s.link.sending ∧
    (storeAbandon s).link.partly = s.link.partly ∧ (storeAbandon s).pins = s.pins ∧ (storeAbandon s).pending = s.pending := by
  simp only [storeAbandon]
  (repeat' split) <;> simp

@[simp] theorem answerJob_frame (kind tag : Byte) (st : Status) (j : StoreJob) (s : State) :
    (answerJob kind tag st j s).setup = s.setup ∧ (answerJob kind tag st j s).gen = s.gen ∧
    (answerJob kind tag st j s).acq = s.acq ∧ (answerJob kind tag st j s).mon = s.mon ∧
    (answerJob kind tag st j s).raster = s.raster ∧ (answerJob kind tag st j s).compose = s.compose ∧
    (answerJob kind tag st j s).panel = s.panel ∧ (answerJob kind tag st j s).store.dir = s.store.dir ∧
    (answerJob kind tag st j s).store.running = s.store.running ∧ (answerJob kind tag st j s).store.scan = s.store.scan ∧
    (answerJob kind tag st j s).store.step = s.store.step ∧ (answerJob kind tag st j s).store.bus = s.store.bus ∧
    (answerJob kind tag st j s).store.withheld = s.store.withheld ∧
    (answerJob kind tag st j s).store.autosaves = s.store.autosaves ∧ (answerJob kind tag st j s).store.last = s.store.last ∧
    (answerJob kind tag st j s).power = s.power ∧ (answerJob kind tag st j s).link.inbound = s.link.inbound ∧
    (answerJob kind tag st j s).link.inPeriod = s.link.inPeriod ∧ (answerJob kind tag st j s).link.clocked = s.link.clocked ∧
    (answerJob kind tag st j s).link.gathered = s.link.gathered ∧
    (answerJob kind tag st j s).link.ignoring = s.link.ignoring ∧ (answerJob kind tag st j s).link.sending = s.link.sending ∧
    (answerJob kind tag st j s).link.partly = s.link.partly ∧ (answerJob kind tag st j s).pins = s.pins ∧
    (answerJob kind tag st j s).pending = s.pending := by
  simp only [answerJob]
  (repeat' split) <;> simp

@[simp] theorem restartIdle_frame (s : State) :
    (restartIdle s).setup = s.setup ∧ (restartIdle s).gen = s.gen ∧ (restartIdle s).acq = s.acq ∧
    (restartIdle s).mon = s.mon ∧ (restartIdle s).raster = s.raster ∧ (restartIdle s).compose = s.compose ∧
    (restartIdle s).panel.keys = s.panel.keys ∧ (restartIdle s).panel.fifo = s.panel.fifo ∧
    (restartIdle s).panel.bindings = s.panel.bindings ∧ (restartIdle s).panel.knobs = s.panel.knobs ∧
    (restartIdle s).panel.lamps = s.panel.lamps ∧ (restartIdle s).panel.standbyMode = s.panel.standbyMode ∧
    (restartIdle s).panel.lock = s.panel.lock ∧ (restartIdle s).panel.idleMinutes = s.panel.idleMinutes ∧
    (restartIdle s).store = s.store ∧ (restartIdle s).power = s.power ∧ (restartIdle s).link = s.link ∧
    (restartIdle s).pins = s.pins ∧ (restartIdle s).pending = s.pending := by
  simp only [restartIdle]
  (repeat' split) <;> simp

@[simp] theorem panelStandby_frame (s : State) :
    (panelStandby s).setup = s.setup ∧ (panelStandby s).gen = s.gen ∧ (panelStandby s).acq = s.acq ∧
    (panelStandby s).mon = s.mon ∧ (panelStandby s).raster = s.raster ∧ (panelStandby s).compose = s.compose ∧
    (panelStandby s).panel.fifo = s.panel.fifo ∧ (panelStandby s).panel.bindings = s.panel.bindings ∧
    (panelStandby s).panel.lamps = s.panel.lamps ∧ (panelStandby s).panel.standbyMode = s.panel.standbyMode ∧
    (panelStandby s).panel.lock = s.panel.lock ∧ (panelStandby s).panel.idleMinutes = s.panel.idleMinutes ∧
    (panelStandby s).panel.idleStart = s.panel.idleStart ∧ (panelStandby s).store = s.store ∧
    (panelStandby s).power = s.power ∧ (panelStandby s).link = s.link ∧ (panelStandby s).pins = s.pins ∧
    (panelStandby s).pending = s.pending := by
  simp only [panelStandby]
  (repeat' split) <;> simp

@[simp] theorem setPower_frame (p : PowerState) (c : MoveCause) (s : State) :
    (setPower p c s).setup = s.setup ∧ (setPower p c s).gen = s.gen ∧ (setPower p c s).acq = s.acq ∧
    (setPower p c s).mon = s.mon ∧ (setPower p c s).raster = s.raster ∧ (setPower p c s).compose = s.compose ∧
    (setPower p c s).panel = s.panel ∧ (setPower p c s).store = s.store ∧
    (setPower p c s).power.runAtWake = s.power.runAtWake ∧ (setPower p c s).link.inbound = s.link.inbound ∧
    (setPower p c s).link.answers = s.link.answers ∧ (setPower p c s).link.inPeriod = s.link.inPeriod ∧
    (setPower p c s).link.clocked = s.link.clocked ∧ (setPower p c s).link.gathered = s.link.gathered ∧
    (setPower p c s).link.ignoring = s.link.ignoring ∧ (setPower p c s).link.sending = s.link.sending ∧
    (setPower p c s).link.partly = s.link.partly ∧ (setPower p c s).pins = s.pins ∧ (setPower p c s).pending = s.pending := by
  simp only [setPower]
  (repeat' split) <;> simp

@[simp] theorem setKey_frame (k : Nat) (x : KeyState) (s : State) :
    (setKey k x s).setup = s.setup ∧ (setKey k x s).gen = s.gen ∧ (setKey k x s).acq = s.acq ∧ (setKey k x s).mon = s.mon ∧
    (setKey k x s).raster = s.raster ∧ (setKey k x s).compose = s.compose ∧ (setKey k x s).panel.fifo = s.panel.fifo ∧
    (setKey k x s).panel.bindings = s.panel.bindings ∧ (setKey k x s).panel.knobs = s.panel.knobs ∧
    (setKey k x s).panel.lamps = s.panel.lamps ∧ (setKey k x s).panel.standbyMode = s.panel.standbyMode ∧
    (setKey k x s).panel.lock = s.panel.lock ∧ (setKey k x s).panel.idleMinutes = s.panel.idleMinutes ∧
    (setKey k x s).panel.idleStart = s.panel.idleStart ∧ (setKey k x s).store = s.store ∧ (setKey k x s).power = s.power ∧
    (setKey k x s).link = s.link ∧ (setKey k x s).pins = s.pins ∧ (setKey k x s).pending = s.pending := by
  simp only [setKey]
  (repeat' split) <;> simp

@[simp] theorem produceEvent_frame (k : Nat) (e : KeyEventKind) (b : Bool) (s : State) :
    (produceEvent k e b s).setup = s.setup ∧ (produceEvent k e b s).gen = s.gen ∧ (produceEvent k e b s).acq = s.acq ∧
    (produceEvent k e b s).raster = s.raster ∧ (produceEvent k e b s).compose = s.compose ∧
    (produceEvent k e b s).panel.keys = s.panel.keys ∧ (produceEvent k e b s).panel.bindings = s.panel.bindings ∧
    (produceEvent k e b s).panel.knobs = s.panel.knobs ∧ (produceEvent k e b s).panel.lamps = s.panel.lamps ∧
    (produceEvent k e b s).panel.standbyMode = s.panel.standbyMode ∧ (produceEvent k e b s).panel.lock = s.panel.lock ∧
    (produceEvent k e b s).panel.idleMinutes = s.panel.idleMinutes ∧
    (produceEvent k e b s).panel.idleStart = s.panel.idleStart ∧ (produceEvent k e b s).store = s.store ∧
    (produceEvent k e b s).power = s.power ∧ (produceEvent k e b s).link.inbound = s.link.inbound ∧
    (produceEvent k e b s).link.answers = s.link.answers ∧ (produceEvent k e b s).link.inPeriod = s.link.inPeriod ∧
    (produceEvent k e b s).link.clocked = s.link.clocked ∧ (produceEvent k e b s).link.gathered = s.link.gathered ∧
    (produceEvent k e b s).link.ignoring = s.link.ignoring ∧ (produceEvent k e b s).link.sending = s.link.sending ∧
    (produceEvent k e b s).link.partly = s.link.partly ∧ (produceEvent k e b s).pins = s.pins ∧
    (produceEvent k e b s).pending = s.pending := by
  simp only [produceEvent]
  (repeat' split) <;> simp

@[simp] theorem reportPress_frame (k : Nat) (s : State) :
    (reportPress k s).setup = s.setup ∧ (reportPress k s).gen = s.gen ∧ (reportPress k s).acq = s.acq ∧
    (reportPress k s).mon = s.mon ∧ (reportPress k s).raster = s.raster ∧ (reportPress k s).compose = s.compose ∧
    (reportPress k s).panel.fifo = s.panel.fifo ∧ (reportPress k s).panel.bindings = s.panel.bindings ∧
    (reportPress k s).panel.knobs = s.panel.knobs ∧ (reportPress k s).panel.lamps = s.panel.lamps ∧
    (reportPress k s).panel.standbyMode = s.panel.standbyMode ∧ (reportPress k s).panel.lock = s.panel.lock ∧
    (reportPress k s).panel.idleMinutes = s.panel.idleMinutes ∧ (reportPress k s).panel.idleStart = s.panel.idleStart ∧
    (reportPress k s).store = s.store ∧ (reportPress k s).power = s.power ∧ (reportPress k s).link = s.link ∧
    (reportPress k s).pins = s.pins ∧ (reportPress k s).pending = s.pending := by
  simp only [reportPress]
  (repeat' split) <;> simp

@[simp] theorem activity_frame (s : State) :
    (activity s).setup = s.setup ∧ (activity s).gen = s.gen ∧ (activity s).acq = s.acq ∧ (activity s).mon = s.mon ∧
    (activity s).raster = s.raster ∧ (activity s).compose = s.compose ∧ (activity s).panel.keys = s.panel.keys ∧
    (activity s).panel.fifo = s.panel.fifo ∧ (activity s).panel.bindings = s.panel.bindings ∧
    (activity s).panel.knobs = s.panel.knobs ∧ (activity s).panel.lamps = s.panel.lamps ∧
    (activity s).panel.standbyMode = s.panel.standbyMode ∧ (activity s).panel.lock = s.panel.lock ∧
    (activity s).panel.idleMinutes = s.panel.idleMinutes ∧ (activity s).store = s.store ∧ (activity s).power = s.power ∧
    (activity s).link = s.link ∧ (activity s).pins = s.pins ∧ (activity s).pending = s.pending := by
  simp only [activity]
  (repeat' split) <;> simp

@[simp] theorem repeatKey_frame (k : Nat) (s : State) :
    (repeatKey k s).setup = s.setup ∧ (repeatKey k s).gen = s.gen ∧ (repeatKey k s).acq = s.acq ∧
    (repeatKey k s).raster = s.raster ∧ (repeatKey k s).compose = s.compose ∧
    (repeatKey k s).panel.bindings = s.panel.bindings ∧ (repeatKey k s).panel.knobs = s.panel.knobs ∧
    (repeatKey k s).panel.lamps = s.panel.lamps ∧ (repeatKey k s).panel.standbyMode = s.panel.standbyMode ∧
    (repeatKey k s).panel.lock = s.panel.lock ∧ (repeatKey k s).panel.idleMinutes = s.panel.idleMinutes ∧
    (repeatKey k s).panel.idleStart = s.panel.idleStart ∧ (repeatKey k s).store = s.store ∧
    (repeatKey k s).power = s.power ∧ (repeatKey k s).link.inbound = s.link.inbound ∧
    (repeatKey k s).link.answers = s.link.answers ∧ (repeatKey k s).link.inPeriod = s.link.inPeriod ∧
    (repeatKey k s).link.clocked = s.link.clocked ∧ (repeatKey k s).link.gathered = s.link.gathered ∧
    (repeatKey k s).link.ignoring = s.link.ignoring ∧ (repeatKey k s).link.sending = s.link.sending ∧
    (repeatKey k s).link.partly = s.link.partly ∧ (repeatKey k s).pins = s.pins ∧ (repeatKey k s).pending = s.pending := by
  simp only [repeatKey]
  (repeat' split) <;> simp

@[simp] theorem releaseKey_frame (k : Nat) (s : State) :
    (releaseKey k s).setup = s.setup ∧ (releaseKey k s).gen = s.gen ∧ (releaseKey k s).acq = s.acq ∧
    (releaseKey k s).raster = s.raster ∧ (releaseKey k s).compose = s.compose ∧
    (releaseKey k s).panel.bindings = s.panel.bindings ∧ (releaseKey k s).panel.knobs = s.panel.knobs ∧
    (releaseKey k s).panel.lamps = s.panel.lamps ∧ (releaseKey k s).panel.standbyMode = s.panel.standbyMode ∧
    (releaseKey k s).panel.lock = s.panel.lock ∧ (releaseKey k s).panel.idleMinutes = s.panel.idleMinutes ∧
    (releaseKey k s).store = s.store ∧ (releaseKey k s).power = s.power ∧ (releaseKey k s).link.inbound = s.link.inbound ∧
    (releaseKey k s).link.answers = s.link.answers ∧ (releaseKey k s).link.inPeriod = s.link.inPeriod ∧
    (releaseKey k s).link.clocked = s.link.clocked ∧ (releaseKey k s).link.gathered = s.link.gathered ∧
    (releaseKey k s).link.ignoring = s.link.ignoring ∧ (releaseKey k s).link.sending = s.link.sending ∧
    (releaseKey k s).link.partly = s.link.partly ∧ (releaseKey k s).pins = s.pins ∧ (releaseKey k s).pending = s.pending := by
  simp only [releaseKey]
  (repeat' split) <;> simp

@[simp] theorem setKnob_frame (n : Nat) (x : Knob) (s : State) :
    (setKnob n x s).setup = s.setup ∧ (setKnob n x s).gen = s.gen ∧ (setKnob n x s).acq = s.acq ∧
    (setKnob n x s).mon = s.mon ∧ (setKnob n x s).raster = s.raster ∧ (setKnob n x s).compose = s.compose ∧
    (setKnob n x s).panel.keys = s.panel.keys ∧ (setKnob n x s).panel.fifo = s.panel.fifo ∧
    (setKnob n x s).panel.bindings = s.panel.bindings ∧ (setKnob n x s).panel.lamps = s.panel.lamps ∧
    (setKnob n x s).panel.standbyMode = s.panel.standbyMode ∧ (setKnob n x s).panel.lock = s.panel.lock ∧
    (setKnob n x s).panel.idleMinutes = s.panel.idleMinutes ∧ (setKnob n x s).panel.idleStart = s.panel.idleStart ∧
    (setKnob n x s).store = s.store ∧ (setKnob n x s).power = s.power ∧ (setKnob n x s).link = s.link ∧
    (setKnob n x s).pins = s.pins ∧ (setKnob n x s).pending = s.pending := by
  simp only [setKnob]
  (repeat' split) <;> simp

@[simp] theorem unmarkKey_frame (k : Nat) (s : State) :
    (unmarkKey k s).setup = s.setup ∧ (unmarkKey k s).gen = s.gen ∧ (unmarkKey k s).acq = s.acq ∧
    (unmarkKey k s).mon = s.mon ∧ (unmarkKey k s).raster = s.raster ∧ (unmarkKey k s).compose = s.compose ∧
    (unmarkKey k s).panel.fifo = s.panel.fifo ∧ (unmarkKey k s).panel.bindings = s.panel.bindings ∧
    (unmarkKey k s).panel.knobs = s.panel.knobs ∧ (unmarkKey k s).panel.lamps = s.panel.lamps ∧
    (unmarkKey k s).panel.standbyMode = s.panel.standbyMode ∧ (unmarkKey k s).panel.lock = s.panel.lock ∧
    (unmarkKey k s).panel.idleMinutes = s.panel.idleMinutes ∧ (unmarkKey k s).panel.idleStart = s.panel.idleStart ∧
    (unmarkKey k s).store = s.store ∧ (unmarkKey k s).power = s.power ∧ (unmarkKey k s).link = s.link ∧
    (unmarkKey k s).pins = s.pins ∧ (unmarkKey k s).pending = s.pending := by
  simp only [unmarkKey]
  (repeat' split) <;> simp

@[simp] theorem bindKey_frame (k : Nat) (b : KeyBinding) (s : State) :
    (bindKey k b s).setup = s.setup ∧ (bindKey k b s).gen = s.gen ∧ (bindKey k b s).acq = s.acq ∧
    (bindKey k b s).mon = s.mon ∧ (bindKey k b s).raster = s.raster ∧ (bindKey k b s).compose = s.compose ∧
    (bindKey k b s).panel.fifo = s.panel.fifo ∧ (bindKey k b s).panel.knobs = s.panel.knobs ∧
    (bindKey k b s).panel.lamps = s.panel.lamps ∧ (bindKey k b s).panel.standbyMode = s.panel.standbyMode ∧
    (bindKey k b s).panel.lock = s.panel.lock ∧ (bindKey k b s).panel.idleMinutes = s.panel.idleMinutes ∧
    (bindKey k b s).panel.idleStart = s.panel.idleStart ∧ (bindKey k b s).store = s.store ∧ (bindKey k b s).power = s.power ∧
    (bindKey k b s).link = s.link ∧ (bindKey k b s).pins = s.pins ∧ (bindKey k b s).pending = s.pending := by
  simp only [bindKey]
  (repeat' split) <;> simp

@[simp] theorem unbindKey_frame (k : Nat) (s : State) :
    (unbindKey k s).setup = s.setup ∧ (unbindKey k s).gen = s.gen ∧ (unbindKey k s).acq = s.acq ∧
    (unbindKey k s).mon = s.mon ∧ (unbindKey k s).raster = s.raster ∧ (unbindKey k s).compose = s.compose ∧
    (unbindKey k s).panel.fifo = s.panel.fifo ∧ (unbindKey k s).panel.knobs = s.panel.knobs ∧
    (unbindKey k s).panel.lamps = s.panel.lamps ∧ (unbindKey k s).panel.standbyMode = s.panel.standbyMode ∧
    (unbindKey k s).panel.lock = s.panel.lock ∧ (unbindKey k s).panel.idleMinutes = s.panel.idleMinutes ∧
    (unbindKey k s).panel.idleStart = s.panel.idleStart ∧ (unbindKey k s).store = s.store ∧ (unbindKey k s).power = s.power ∧
    (unbindKey k s).link = s.link ∧ (unbindKey k s).pins = s.pins ∧ (unbindKey k s).pending = s.pending := by
  simp only [unbindKey]
  (repeat' split) <;> simp

@[simp] theorem answerKeybind_frame (tag : Byte) (s : State) :
    (answerKeybind tag s).setup = s.setup ∧ (answerKeybind tag s).gen = s.gen ∧ (answerKeybind tag s).acq = s.acq ∧
    (answerKeybind tag s).mon = s.mon ∧ (answerKeybind tag s).raster = s.raster ∧
    (answerKeybind tag s).compose = s.compose ∧ (answerKeybind tag s).panel = s.panel ∧
    (answerKeybind tag s).store = s.store ∧ (answerKeybind tag s).power = s.power ∧
    (answerKeybind tag s).link.inbound = s.link.inbound ∧ (answerKeybind tag s).link.notes = s.link.notes ∧
    (answerKeybind tag s).link.inPeriod = s.link.inPeriod ∧ (answerKeybind tag s).link.clocked = s.link.clocked ∧
    (answerKeybind tag s).link.gathered = s.link.gathered ∧ (answerKeybind tag s).link.ignoring = s.link.ignoring ∧
    (answerKeybind tag s).link.sending = s.link.sending ∧ (answerKeybind tag s).link.partly = s.link.partly ∧
    (answerKeybind tag s).pins = s.pins ∧ (answerKeybind tag s).pending = s.pending := by
  simp only [answerKeybind]
  (repeat' split) <;> simp

@[simp] theorem bindKnob_frame (n : Nat) (b : Option KnobBinding) (s : State) :
    (bindKnob n b s).setup = s.setup ∧ (bindKnob n b s).gen = s.gen ∧ (bindKnob n b s).acq = s.acq ∧
    (bindKnob n b s).mon = s.mon ∧ (bindKnob n b s).raster = s.raster ∧ (bindKnob n b s).compose = s.compose ∧
    (bindKnob n b s).panel.keys = s.panel.keys ∧ (bindKnob n b s).panel.fifo = s.panel.fifo ∧
    (bindKnob n b s).panel.bindings = s.panel.bindings ∧ (bindKnob n b s).panel.lamps = s.panel.lamps ∧
    (bindKnob n b s).panel.standbyMode = s.panel.standbyMode ∧ (bindKnob n b s).panel.lock = s.panel.lock ∧
    (bindKnob n b s).panel.idleMinutes = s.panel.idleMinutes ∧ (bindKnob n b s).panel.idleStart = s.panel.idleStart ∧
    (bindKnob n b s).store = s.store ∧ (bindKnob n b s).power = s.power ∧ (bindKnob n b s).link = s.link ∧
    (bindKnob n b s).pins = s.pins ∧ (bindKnob n b s).pending = s.pending := by
  simp only [bindKnob]
  (repeat' split) <;> simp

@[simp] theorem setLamp_frame (i : Nat) (m : LampMode) (s : State) :
    (setLamp i m s).setup = s.setup ∧ (setLamp i m s).gen = s.gen ∧ (setLamp i m s).acq = s.acq ∧
    (setLamp i m s).mon = s.mon ∧ (setLamp i m s).raster = s.raster ∧ (setLamp i m s).compose = s.compose ∧
    (setLamp i m s).panel.keys = s.panel.keys ∧ (setLamp i m s).panel.fifo = s.panel.fifo ∧
    (setLamp i m s).panel.bindings = s.panel.bindings ∧ (setLamp i m s).panel.knobs = s.panel.knobs ∧
    (setLamp i m s).panel.standbyMode = s.panel.standbyMode ∧ (setLamp i m s).panel.lock = s.panel.lock ∧
    (setLamp i m s).panel.idleMinutes = s.panel.idleMinutes ∧ (setLamp i m s).panel.idleStart = s.panel.idleStart ∧
    (setLamp i m s).store = s.store ∧ (setLamp i m s).power = s.power ∧ (setLamp i m s).link = s.link ∧
    (setLamp i m s).pins = s.pins ∧ (setLamp i m s).pending = s.pending := by
  simp only [setLamp]
  (repeat' split) <;> simp

@[simp] theorem lockOn_frame (s : State) :
    (lockOn s).setup = s.setup ∧ (lockOn s).gen = s.gen ∧ (lockOn s).acq = s.acq ∧ (lockOn s).mon = s.mon ∧
    (lockOn s).raster = s.raster ∧ (lockOn s).compose = s.compose ∧ (lockOn s).panel.keys = s.panel.keys ∧
    (lockOn s).panel.fifo = s.panel.fifo ∧ (lockOn s).panel.bindings = s.panel.bindings ∧
    (lockOn s).panel.lamps = s.panel.lamps ∧ (lockOn s).panel.standbyMode = s.panel.standbyMode ∧
    (lockOn s).panel.idleMinutes = s.panel.idleMinutes ∧ (lockOn s).panel.idleStart = s.panel.idleStart ∧
    (lockOn s).store = s.store ∧ (lockOn s).power = s.power ∧ (lockOn s).link = s.link ∧ (lockOn s).pins = s.pins ∧
    (lockOn s).pending = s.pending := by
  simp only [lockOn]
  (repeat' split) <;> simp

@[simp] theorem panelRestart_frame (s : State) :
    (panelRestart s).setup = s.setup ∧ (panelRestart s).gen = s.gen ∧ (panelRestart s).acq = s.acq ∧
    (panelRestart s).mon = s.mon ∧ (panelRestart s).raster = s.raster ∧ (panelRestart s).compose = s.compose ∧
    (panelRestart s).panel.bindings = s.panel.bindings ∧ (panelRestart s).panel.lamps = s.panel.lamps ∧
    (panelRestart s).panel.standbyMode = s.panel.standbyMode ∧ (panelRestart s).panel.lock = s.panel.lock ∧
    (panelRestart s).panel.idleMinutes = s.panel.idleMinutes ∧ (panelRestart s).store = s.store ∧
    (panelRestart s).power = s.power ∧ (panelRestart s).link = s.link ∧ (panelRestart s).pins = s.pins ∧
    (panelRestart s).pending = s.pending := by
  simp only [panelRestart]
  (repeat' split) <;> simp

@[simp] theorem writeMask_frame (m : BitVec 76) (s : State) :
    (writeMask m s).setup = s.setup ∧ (writeMask m s).gen = s.gen ∧ (writeMask m s).acq = s.acq ∧
    (writeMask m s).raster = s.raster ∧ (writeMask m s).compose = s.compose ∧ (writeMask m s).panel = s.panel ∧
    (writeMask m s).store = s.store ∧ (writeMask m s).power = s.power ∧ (writeMask m s).link.inbound = s.link.inbound ∧
    (writeMask m s).link.answers = s.link.answers ∧ (writeMask m s).link.inPeriod = s.link.inPeriod ∧
    (writeMask m s).link.clocked = s.link.clocked ∧ (writeMask m s).link.gathered = s.link.gathered ∧
    (writeMask m s).link.ignoring = s.link.ignoring ∧ (writeMask m s).link.sending = s.link.sending ∧
    (writeMask m s).link.partly = s.link.partly ∧ (writeMask m s).pins = s.pins ∧ (writeMask m s).pending = s.pending := by
  simp only [writeMask]
  (repeat' split) <;> simp

@[simp] theorem monRestart_frame (s : State) :
    (monRestart s).setup = s.setup ∧ (monRestart s).gen = s.gen ∧ (monRestart s).acq = s.acq ∧
    (monRestart s).raster = s.raster ∧ (monRestart s).compose = s.compose ∧ (monRestart s).panel = s.panel ∧
    (monRestart s).store = s.store ∧ (monRestart s).power = s.power ∧ (monRestart s).link = s.link ∧
    (monRestart s).pins = s.pins ∧ (monRestart s).pending = s.pending := by
  simp only [monRestart]
  (repeat' split) <;> simp

@[simp] theorem clearLatched_frame (s : State) :
    (clearLatched s).setup = s.setup ∧ (clearLatched s).gen = s.gen ∧ (clearLatched s).acq = s.acq ∧
    (clearLatched s).raster = s.raster ∧ (clearLatched s).compose = s.compose ∧ (clearLatched s).panel = s.panel ∧
    (clearLatched s).store = s.store ∧ (clearLatched s).power = s.power ∧ (clearLatched s).link = s.link ∧
    (clearLatched s).pins = s.pins ∧ (clearLatched s).pending = s.pending := by
  simp only [clearLatched]
  (repeat' split) <;> simp

@[simp] theorem ignoreRest_frame (s : State) :
    (ignoreRest s).setup = s.setup ∧ (ignoreRest s).gen = s.gen ∧ (ignoreRest s).acq = s.acq ∧ (ignoreRest s).mon = s.mon ∧
    (ignoreRest s).raster = s.raster ∧ (ignoreRest s).compose = s.compose ∧ (ignoreRest s).panel = s.panel ∧
    (ignoreRest s).store = s.store ∧ (ignoreRest s).power = s.power ∧ (ignoreRest s).link.inbound = s.link.inbound ∧
    (ignoreRest s).link.answers = s.link.answers ∧ (ignoreRest s).link.notes = s.link.notes ∧
    (ignoreRest s).link.inPeriod = s.link.inPeriod ∧ (ignoreRest s).link.clocked = s.link.clocked ∧
    (ignoreRest s).link.sending = s.link.sending ∧ (ignoreRest s).link.partly = s.link.partly ∧
    (ignoreRest s).pins = s.pins ∧ (ignoreRest s).pending = s.pending := by
  simp only [ignoreRest]
  (repeat' split) <;> simp

@[simp] theorem discardFrame_frame (s : State) :
    (discardFrame s).setup = s.setup ∧ (discardFrame s).gen = s.gen ∧ (discardFrame s).acq = s.acq ∧
    (discardFrame s).raster = s.raster ∧ (discardFrame s).compose = s.compose ∧ (discardFrame s).panel = s.panel ∧
    (discardFrame s).store = s.store ∧ (discardFrame s).power = s.power ∧ (discardFrame s).link.inbound = s.link.inbound ∧
    (discardFrame s).link.answers = s.link.answers ∧ (discardFrame s).link.inPeriod = s.link.inPeriod ∧
    (discardFrame s).link.clocked = s.link.clocked ∧ (discardFrame s).link.sending = s.link.sending ∧
    (discardFrame s).link.partly = s.link.partly ∧ (discardFrame s).pins = s.pins ∧ (discardFrame s).pending = s.pending := by
  simp only [discardFrame]
  (repeat' split) <;> simp

@[simp] theorem gather_frame (bs : List Byte) (s : State) :
    (gather bs s).setup = s.setup ∧ (gather bs s).gen = s.gen ∧ (gather bs s).acq = s.acq ∧
    (gather bs s).raster = s.raster ∧ (gather bs s).compose = s.compose ∧ (gather bs s).panel = s.panel ∧
    (gather bs s).store = s.store ∧ (gather bs s).power = s.power ∧ (gather bs s).link.inPeriod = s.link.inPeriod ∧
    (gather bs s).link.clocked = s.link.clocked ∧ (gather bs s).link.sending = s.link.sending ∧
    (gather bs s).link.partly = s.link.partly ∧ (gather bs s).pins = s.pins ∧ (gather bs s).pending = s.pending := by
  simp only [gather]
  (repeat' split) <;> simp

@[simp] theorem frameLeft_frame (o : Outgoing) (s : State) :
    (frameLeft o s).setup = s.setup ∧ (frameLeft o s).gen = s.gen ∧ (frameLeft o s).acq = s.acq ∧
    (frameLeft o s).mon = s.mon ∧ (frameLeft o s).raster = s.raster ∧ (frameLeft o s).compose = s.compose ∧
    (frameLeft o s).panel = s.panel ∧ (frameLeft o s).store = s.store ∧ (frameLeft o s).power = s.power ∧
    (frameLeft o s).link.inbound = s.link.inbound ∧ (frameLeft o s).link.inPeriod = s.link.inPeriod ∧
    (frameLeft o s).link.clocked = s.link.clocked ∧ (frameLeft o s).link.gathered = s.link.gathered ∧
    (frameLeft o s).link.ignoring = s.link.ignoring ∧ (frameLeft o s).link.partly = s.link.partly ∧
    (frameLeft o s).pins = s.pins ∧ (frameLeft o s).pending = s.pending := by
  simp only [frameLeft]
  (repeat' split) <;> simp

/-- R207: a frame that has left is no longer sent. -/
@[simp] theorem frameLeft_sending (o : Outgoing) (s : State) : (frameLeft o s).link.sending = none := by
  simp only [frameLeft]
  (repeat' split) <;> rfl

@[simp] theorem clockTo_frame (n : Nat) (s : State) :
    (clockTo n s).setup = s.setup ∧ (clockTo n s).gen = s.gen ∧ (clockTo n s).acq = s.acq ∧ (clockTo n s).mon = s.mon ∧
    (clockTo n s).raster = s.raster ∧ (clockTo n s).compose = s.compose ∧ (clockTo n s).panel = s.panel ∧
    (clockTo n s).store = s.store ∧ (clockTo n s).power = s.power ∧ (clockTo n s).link.inbound = s.link.inbound ∧
    (clockTo n s).link.inPeriod = s.link.inPeriod ∧ (clockTo n s).link.gathered = s.link.gathered ∧
    (clockTo n s).link.ignoring = s.link.ignoring ∧
    (clockTo n s).link.clocked = { s.link.clocked with bytes := Nat.max s.link.clocked.bytes n } ∧
    (clockTo n s).link.partly = s.link.partly ∧ (clockTo n s).pins = s.pins ∧ (clockTo n s).pending = s.pending := by
  simp only [clockTo]
  (repeat' split) <;> simp

/-- R207: the frame being sent after n bytes of the period: gone once its last byte is among them. -/
theorem clockTo_sending (n : Nat) (s : State) : (clockTo n s).link.sending =
    s.link.sending.filter (fun o => decide (Nat.max s.link.clocked.bytes n < sentLength o)) := by
  simp only [clockTo]
  cases h : s.link.sending with
  | none => simp
  | some o =>
    by_cases hl : sentLength o ≤ Nat.max s.link.clocked.bytes n
    · have hd : decide (Nat.max s.link.clocked.bytes n < sentLength o) = false := decide_eq_false (Nat.not_lt.mpr hl)
      simp only [hl, if_true, frameLeft_sending, Option.filter, hd, Bool.false_eq_true, if_false]
    · have hd : decide (Nat.max s.link.clocked.bytes n < sentLength o) = true := decide_eq_true (Nat.not_le.mp hl)
      simp only [hl, if_false, Option.filter, hd, if_true]

@[simp] theorem clockNext_frame (n : Nat) (s : State) :
    (clockNext n s).setup = s.setup ∧ (clockNext n s).gen = s.gen ∧ (clockNext n s).acq = s.acq ∧
    (clockNext n s).mon = s.mon ∧ (clockNext n s).raster = s.raster ∧ (clockNext n s).compose = s.compose ∧
    (clockNext n s).panel = s.panel ∧ (clockNext n s).store = s.store ∧ (clockNext n s).power = s.power ∧
    (clockNext n s).link.inbound = s.link.inbound ∧ (clockNext n s).link.inPeriod = s.link.inPeriod ∧
    (clockNext n s).link.gathered = s.link.gathered ∧ (clockNext n s).link.ignoring = s.link.ignoring ∧
    (clockNext n s).link.clocked =
      ⟨Nat.max s.link.clocked.bytes (s.link.clocked.taken + n), s.link.clocked.taken + n⟩ ∧
    (clockNext n s).link.partly = s.link.partly ∧ (clockNext n s).pins = s.pins ∧ (clockNext n s).pending = s.pending := by
  simp [clockNext]

/-- R207: the frame being sent after the next n inbound bytes. -/
theorem clockNext_sending (n : Nat) (s : State) : (clockNext n s).link.sending =
    s.link.sending.filter (fun o =>
      decide (Nat.max s.link.clocked.bytes (s.link.clocked.taken + n) < sentLength o)) := by
  simp only [clockNext, clockTo_sending]

/-- R198: inbound bytes clocked in two lots are clocked in one. -/
theorem clockNext_add (m n : Nat) (s : State) : clockNext n (clockNext m s) = clockNext (m + n) s := by
  have hmax : Nat.max (Nat.max s.link.clocked.bytes (s.link.clocked.taken + m)) (s.link.clocked.taken + (m + n)) =
      Nat.max s.link.clocked.bytes (s.link.clocked.taken + (m + n)) := by
    simp only [Nat.max_def]; (repeat' split) <;> omega
  simp only [clockNext, clockTo]
  cases h : s.link.sending with
  | none => simp only [Nat.add_assoc, hmax]
  | some o =>
    by_cases hm : sentLength o ≤ Nat.max s.link.clocked.bytes (s.link.clocked.taken + m)
    · have hmn : sentLength o ≤ Nat.max s.link.clocked.bytes (s.link.clocked.taken + (m + n)) := by
        rw [← hmax]; exact Nat.le_trans hm (Nat.le_max_left _ _)
      simp only [hm, hmn, if_true, frameLeft_sending, frameLeft_frame, Nat.add_assoc, hmax]
      simp only [frameLeft]
      (repeat' split) <;> simp_all
    · simp only [hm, if_false, Nat.add_assoc, hmax]

@[simp] theorem takeByte_frame (s : State) (b : Byte) :
    (takeByte s b).setup = s.setup ∧ (takeByte s b).gen = s.gen ∧ (takeByte s b).acq = s.acq ∧
    (takeByte s b).raster = s.raster ∧ (takeByte s b).compose = s.compose ∧ (takeByte s b).panel = s.panel ∧
    (takeByte s b).store = s.store ∧ (takeByte s b).power = s.power ∧ (takeByte s b).link.inPeriod = s.link.inPeriod ∧
    (takeByte s b).link.partly = s.link.partly ∧ (takeByte s b).pins = s.pins ∧ (takeByte s b).pending = s.pending := by
  simp only [takeByte]
  (repeat' split) <;> simp

@[simp] theorem takeBytes_frame (bs : List Byte) (s : State) :
    (takeBytes bs s).setup = s.setup ∧ (takeBytes bs s).gen = s.gen ∧ (takeBytes bs s).acq = s.acq ∧
    (takeBytes bs s).raster = s.raster ∧ (takeBytes bs s).compose = s.compose ∧ (takeBytes bs s).panel = s.panel ∧
    (takeBytes bs s).store = s.store ∧ (takeBytes bs s).power = s.power ∧ (takeBytes bs s).link.inPeriod = s.link.inPeriod ∧
    (takeBytes bs s).link.partly = s.link.partly ∧ (takeBytes bs s).pins = s.pins ∧ (takeBytes bs s).pending = s.pending := by
  induction bs generalizing s with
  | nil => simp [takeBytes]
  | cons x r ih => simpa [takeBytes] using ih (takeByte s x)

/-- R198: in a period an inbound byte brings the clocks that carry it. -/
theorem takeByte_out (s : State) (b : Byte) (h : s.link.inPeriod = true) :
    (takeByte s b).link.clocked = (clockNext 1 s).link.clocked ∧ (takeByte s b).link.sending = (clockNext 1 s).link.sending := by
  simp only [takeByte, h, if_true]
  (repeat' split) <;> simp

/-- R198, R207: in a period inbound bytes bring the clocks that carry them. -/
theorem takeBytes_out (bs : List Byte) (s : State) (h : s.link.inPeriod = true) (hb : bs ≠ []) :
    (takeBytes bs s).link.clocked = (clockNext bs.length s).link.clocked ∧
    (takeBytes bs s).link.sending = (clockNext bs.length s).link.sending := by
  induction bs generalizing s with
  | nil => exact absurd rfl hb
  | cons x r ih =>
    have h1 := takeByte_out s x h
    have h3 : takeBytes (x :: r) s = takeBytes r (takeByte s x) := rfl
    by_cases hr : r = []
    · subst hr; simpa [takeBytes] using h1
    · have h2 := ih (takeByte s x) (by simpa using h) hr
      have hl : (x :: r).length = 1 + r.length := by rw [List.length_cons, Nat.add_comm]
      have hc : ∀ u v : State, u.link.clocked = v.link.clocked → u.link.sending = v.link.sending →
          (clockNext r.length u).link.clocked = (clockNext r.length v).link.clocked ∧
          (clockNext r.length u).link.sending = (clockNext r.length v).link.sending := by
        intro u v e1 e2; simp [clockNext_sending, e1, e2]
      rw [h3, h2.1, h2.2, hl, ← clockNext_add]
      exact hc _ _ h1.1 h1.2

/-- R198: with the rest of the inbound side ignored, the bytes are only clocked. -/
theorem takeBytes_ignoring (bs : List Byte) (s : State) (h : s.link.inPeriod = true) (hi : s.link.ignoring = true)
    (hb : bs ≠ []) : takeBytes bs s = clockNext bs.length s := by
  induction bs generalizing s with
  | nil => exact absurd rfl hb
  | cons x r ih =>
    have h1 : takeByte s x = clockNext 1 s := by simp [takeByte, h, hi]
    have h3 : takeBytes (x :: r) s = takeBytes r (clockNext 1 s) := by rw [← h1]; rfl
    rw [h3]
    by_cases hr : r = []
    · subst hr; rfl
    · rw [ih (clockNext 1 s) (by simpa using h) (by simpa using hi) hr, clockNext_add, List.length_cons, Nat.add_comm]

/-- What the inbound side ignores does not matter to the clocks. -/
theorem clockNext_ignoring (n : Nat) (b : Bool) (s : State) :
    clockNext n { s with link := { s.link with ignoring := b } } =
      { clockNext n s with link := { (clockNext n s).link with ignoring := b } } := by
  simp only [clockNext, clockTo]
  cases s.link.sending with
  | none => rfl
  | some o =>
    by_cases hc : sentLength o ≤ Nat.max s.link.clocked.bytes (s.link.clocked.taken + n)
    · simp only [hc, if_true, frameLeft]; cases o.gone <;> cases o.note <;> rfl
    · simp only [hc, if_false]

/-- R198: bytes of a period whose byte 0 is 0x00 are only clocked. -/
theorem takeBytes_noFrame (bs : List Byte) (s : State) (h : s.link.inPeriod = true) (hi : s.link.ignoring = false)
    (hg : s.link.gathered = []) (hb : bs.head? = some 0) :
    takeBytes bs s = { clockNext bs.length s with link := { (clockNext bs.length s).link with ignoring := true } } := by
  cases bs with
  | nil => cases hb
  | cons x r =>
    obtain rfl : x = 0 := by simpa using hb
    have h1 : takeByte s 0 = { clockNext 1 s with link := { (clockNext 1 s).link with ignoring := true } } := by
      simp [takeByte, h, hi, hg, gather, byteAt, ignoreRest]
    show takeBytes r (takeByte s 0) = _
    rw [h1]
    by_cases hr : r = []
    · subst hr; rfl
    · rw [takeBytes_ignoring _ _ (by simpa using h) rfl hr, clockNext_ignoring, clockNext_add, List.length_cons, Nat.add_comm]

/-- What has been gathered does not matter to the clocks. -/
theorem clockNext_gathered (n : Nat) (g : List Byte) (s : State) :
    clockNext n { s with link := { s.link with gathered := g } } =
      { clockNext n s with link := { (clockNext n s).link with gathered := g } } := by
  simp only [clockNext, clockTo]
  cases s.link.sending with
  | none => rfl
  | some o =>
    by_cases hc : sentLength o ≤ Nat.max s.link.clocked.bytes (s.link.clocked.taken + n)
    · simp only [hc, if_true, frameLeft]; cases o.gone <;> cases o.note <;> rfl
    · simp only [hc, if_false]

/-- R199: some bytes begin a frame and do not end one. -/
def Incomplete (bs : List Byte) : Prop :=
  bs.head? ≠ some 0 ∧
  (bs.length < 4 ∨ natOf ((bs.drop 2).take 2) ≤ 1024 ∧ bs.length < 6 + natOf ((bs.drop 2).take 2))

theorem Incomplete.prefix {a b : List Byte} (h : Incomplete (a ++ b)) (ha : a ≠ []) : Incomplete a := by
  obtain ⟨h1, h2⟩ := h
  refine ⟨by cases a with | nil => exact absurd rfl ha | cons x r => simpa using h1, ?_⟩
  by_cases hl : a.length < 4
  · exact Or.inl hl
  · have e : (a ++ b).drop 2 = a.drop 2 ++ b := List.drop_append_of_le_length (by omega)
    have e2 : ((a ++ b).drop 2).take 2 = (a.drop 2).take 2 := by
      rw [e]; exact List.take_append_of_le_length (by rw [List.length_drop]; omega)
    rw [e2, List.length_append] at h2
    right; omega

theorem gather_incomplete {bs : List Byte} (s : State) (h : Incomplete bs) :
    gather bs s = { s with link := { s.link with gathered := bs } } := by
  obtain ⟨h1, h2⟩ := h
  have hn : natAt bs 2 2 = natOf ((bs.drop 2).take 2) := rfl
  simp only [gather, hn]
  rw [if_neg, if_neg, if_neg]
  · rintro ⟨ha, hb⟩; omega
  · rintro ⟨ha, hb⟩; omega
  · rintro ⟨ha, hb⟩
    cases bs with
    | nil => simp at ha
    | cons x r => exact h1 (by simpa [byteAt] using hb)

/-- R199: bytes that leave the frame incomplete are gathered. -/
theorem takeBytes_incomplete (bs : List Byte) (s : State) (h : s.link.inPeriod = true) (hi : s.link.ignoring = false)
    (hb : bs ≠ []) (hc : Incomplete (s.link.gathered ++ bs)) :
    takeBytes bs s = { clockNext bs.length s with link := { (clockNext bs.length s).link with
      gathered := s.link.gathered ++ bs } } := by
  induction bs generalizing s with
  | nil => exact absurd rfl hb
  | cons x r ih =>
    have hsplit : s.link.gathered ++ x :: r = (s.link.gathered ++ [x]) ++ r := by simp
    have h1 : takeByte s x = { clockNext 1 s with link := { (clockNext 1 s).link with
        gathered := s.link.gathered ++ [x] } } := by
      have hx : Incomplete (s.link.gathered ++ [x]) := by
        rw [hsplit] at hc; exact hc.prefix (by simp)
      simp [takeByte, h, hi, gather_incomplete _ hx]
    show takeBytes r (takeByte s x) = _
    rw [h1]
    by_cases hr : r = []
    · subst hr; rfl
    · rw [ih _ (by simpa using h) (by simpa using hi) hr (by rw [← hsplit]; exact hc), clockNext_gathered, clockNext_add,
        List.length_cons, Nat.add_comm, ← hsplit]

@[simp] theorem noteTaken_frame (src : NoteSource) (s : State) :
    (noteTaken src s).setup = s.setup ∧ (noteTaken src s).gen = s.gen ∧ (noteTaken src s).acq = s.acq ∧
    (noteTaken src s).mon = s.mon ∧ (noteTaken src s).raster = s.raster ∧ (noteTaken src s).compose = s.compose ∧
    (noteTaken src s).panel.keys = s.panel.keys ∧ (noteTaken src s).panel.fifo = s.panel.fifo ∧
    (noteTaken src s).panel.bindings = s.panel.bindings ∧ (noteTaken src s).panel.lamps = s.panel.lamps ∧
    (noteTaken src s).panel.standbyMode = s.panel.standbyMode ∧ (noteTaken src s).panel.lock = s.panel.lock ∧
    (noteTaken src s).panel.idleMinutes = s.panel.idleMinutes ∧ (noteTaken src s).panel.idleStart = s.panel.idleStart ∧
    (noteTaken src s).store = s.store ∧ (noteTaken src s).power = s.power ∧ (noteTaken src s).link = s.link ∧
    (noteTaken src s).pins = s.pins ∧ (noteTaken src s).pending = s.pending := by
  simp only [noteTaken]
  (repeat' split) <;> simp

@[simp] theorem sendNote_frame (e : NoteEntry) (r : List NoteEntry) (s : State) :
    (sendNote e r s).setup = s.setup ∧ (sendNote e r s).gen = s.gen ∧ (sendNote e r s).acq = s.acq ∧
    (sendNote e r s).mon = s.mon ∧ (sendNote e r s).raster = s.raster ∧ (sendNote e r s).compose = s.compose ∧
    (sendNote e r s).panel.keys = s.panel.keys ∧ (sendNote e r s).panel.fifo = s.panel.fifo ∧
    (sendNote e r s).panel.bindings = s.panel.bindings ∧ (sendNote e r s).panel.lamps = s.panel.lamps ∧
    (sendNote e r s).panel.standbyMode = s.panel.standbyMode ∧ (sendNote e r s).panel.lock = s.panel.lock ∧
    (sendNote e r s).panel.idleMinutes = s.panel.idleMinutes ∧ (sendNote e r s).panel.idleStart = s.panel.idleStart ∧
    (sendNote e r s).store = s.store ∧ (sendNote e r s).power = s.power ∧ (sendNote e r s).link.inbound = s.link.inbound ∧
    (sendNote e r s).link.answers = s.link.answers ∧ (sendNote e r s).link.inPeriod = s.link.inPeriod ∧
    (sendNote e r s).link.clocked = s.link.clocked ∧ (sendNote e r s).link.gathered = s.link.gathered ∧
    (sendNote e r s).link.ignoring = s.link.ignoring ∧ (sendNote e r s).link.partly = s.link.partly ∧
    (sendNote e r s).pins = s.pins ∧ (sendNote e r s).pending = s.pending := by
  simp only [sendNote]
  (repeat' split) <;> simp

@[simp] theorem chooseFrame_frame (s : State) :
    (chooseFrame s).setup = s.setup ∧ (chooseFrame s).gen = s.gen ∧ (chooseFrame s).acq = s.acq ∧
    (chooseFrame s).mon = s.mon ∧ (chooseFrame s).raster = s.raster ∧ (chooseFrame s).compose = s.compose ∧
    (chooseFrame s).panel.keys = s.panel.keys ∧ (chooseFrame s).panel.fifo = s.panel.fifo ∧
    (chooseFrame s).panel.bindings = s.panel.bindings ∧ (chooseFrame s).panel.lamps = s.panel.lamps ∧
    (chooseFrame s).panel.standbyMode = s.panel.standbyMode ∧ (chooseFrame s).panel.lock = s.panel.lock ∧
    (chooseFrame s).panel.idleMinutes = s.panel.idleMinutes ∧ (chooseFrame s).panel.idleStart = s.panel.idleStart ∧
    (chooseFrame s).store = s.store ∧ (chooseFrame s).power = s.power ∧ (chooseFrame s).link.inbound = s.link.inbound ∧
    (chooseFrame s).link.answers = s.link.answers ∧ (chooseFrame s).link.inPeriod = s.link.inPeriod ∧
    (chooseFrame s).link.clocked = s.link.clocked ∧ (chooseFrame s).link.gathered = s.link.gathered ∧
    (chooseFrame s).link.ignoring = s.link.ignoring ∧ (chooseFrame s).pins = s.pins ∧ (chooseFrame s).pending = s.pending := by
  simp only [chooseFrame]
  (repeat' split) <;> simp

@[simp] theorem setSel_frame (b : Bool) (s : State) :
    (setSel b s).setup = s.setup ∧ (setSel b s).gen = s.gen ∧ (setSel b s).acq = s.acq ∧ (setSel b s).mon = s.mon ∧
    (setSel b s).raster = s.raster ∧ (setSel b s).compose = s.compose ∧ (setSel b s).panel = s.panel ∧
    (setSel b s).store = s.store ∧ (setSel b s).power = s.power ∧ (setSel b s).link = s.link ∧
    (setSel b s).pins.lanes = s.pins.lanes ∧ (setSel b s).pins.lock = s.pins.lock ∧ (setSel b s).pins.keys = s.pins.keys ∧
    (setSel b s).pins.encA = s.pins.encA ∧ (setSel b s).pins.encB = s.pins.encB ∧
    (setSel b s).pins.resetLow = s.pins.resetLow ∧ (setSel b s).pending = s.pending := by
  simp only [setSel]
  (repeat' split) <;> simp

@[simp] theorem startPeriod_frame (s : State) :
    (startPeriod s).setup = s.setup ∧ (startPeriod s).gen = s.gen ∧ (startPeriod s).acq = s.acq ∧
    (startPeriod s).mon = s.mon ∧ (startPeriod s).raster = s.raster ∧ (startPeriod s).compose = s.compose ∧
    (startPeriod s).panel.keys = s.panel.keys ∧ (startPeriod s).panel.fifo = s.panel.fifo ∧
    (startPeriod s).panel.bindings = s.panel.bindings ∧ (startPeriod s).panel.lamps = s.panel.lamps ∧
    (startPeriod s).panel.standbyMode = s.panel.standbyMode ∧ (startPeriod s).panel.lock = s.panel.lock ∧
    (startPeriod s).panel.idleMinutes = s.panel.idleMinutes ∧ (startPeriod s).panel.idleStart = s.panel.idleStart ∧
    (startPeriod s).store = s.store ∧ (startPeriod s).power = s.power ∧ (startPeriod s).link.inbound = s.link.inbound ∧
    (startPeriod s).link.answers = s.link.answers ∧ (startPeriod s).pins = s.pins ∧ (startPeriod s).pending = s.pending := by
  simp only [startPeriod]
  (repeat' split) <;> simp

@[simp] theorem endPeriod_frame (s : State) :
    (endPeriod s).setup = s.setup ∧ (endPeriod s).gen = s.gen ∧ (endPeriod s).acq = s.acq ∧ (endPeriod s).raster = s.raster ∧
    (endPeriod s).compose = s.compose ∧ (endPeriod s).panel = s.panel ∧ (endPeriod s).store = s.store ∧
    (endPeriod s).power = s.power ∧ (endPeriod s).link.inbound = s.link.inbound ∧
    (endPeriod s).link.answers = s.link.answers ∧ (endPeriod s).pins = s.pins ∧ (endPeriod s).pending = s.pending := by
  simp only [endPeriod]
  (repeat' split) <;> simp


end Sys2Proof.Machine
end

