-- ==== Sys2Proof/Laws/Codes.lean ====
section
/-! SUPPORT. One lemma for each operation of the power moves, the presses, the detents, the scans and the codes rows: what it leaves as it was. -/

namespace Sys2Proof.Machine

@[simp] theorem setSwitch_frame (k : Nat) (c : Bool) (s : State) :
    (setSwitch k c s).setup = s.setup ∧ (setSwitch k c s).gen = s.gen ∧ (setSwitch k c s).acq = s.acq ∧
    (setSwitch k c s).mon = s.mon ∧ (setSwitch k c s).raster = s.raster ∧ (setSwitch k c s).compose = s.compose ∧
    (setSwitch k c s).panel = s.panel ∧ (setSwitch k c s).store = s.store ∧ (setSwitch k c s).power = s.power ∧
    (setSwitch k c s).link = s.link ∧ (setSwitch k c s).pins.lanes = s.pins.lanes ∧
    (setSwitch k c s).pins.lock = s.pins.lock ∧ (setSwitch k c s).pins.encA = s.pins.encA ∧
    (setSwitch k c s).pins.encB = s.pins.encB ∧ (setSwitch k c s).pins.linkSelLow = s.pins.linkSelLow ∧
    (setSwitch k c s).pins.resetLow = s.pins.resetLow ∧ (setSwitch k c s).pending = s.pending := by
  simp only [setSwitch]
  (repeat' split) <;> simp

@[simp] theorem setLinesHigh_frame (n : Nat) (s : State) :
    (setLinesHigh n s).setup = s.setup ∧ (setLinesHigh n s).gen = s.gen ∧ (setLinesHigh n s).acq = s.acq ∧
    (setLinesHigh n s).mon = s.mon ∧ (setLinesHigh n s).raster = s.raster ∧ (setLinesHigh n s).compose = s.compose ∧
    (setLinesHigh n s).panel = s.panel ∧ (setLinesHigh n s).store = s.store ∧ (setLinesHigh n s).power = s.power ∧
    (setLinesHigh n s).link = s.link ∧ (setLinesHigh n s).pins.lanes = s.pins.lanes ∧
    (setLinesHigh n s).pins.lock = s.pins.lock ∧ (setLinesHigh n s).pins.keys = s.pins.keys ∧
    (setLinesHigh n s).pins.linkSelLow = s.pins.linkSelLow ∧ (setLinesHigh n s).pins.resetLow = s.pins.resetLow ∧
    (setLinesHigh n s).pending = s.pending := by
  simp only [setLinesHigh]
  (repeat' split) <;> simp

@[simp] theorem moveToDark_frame (c : MoveCause) (s : State) :
    (moveToDark c s).setup = s.setup ∧ (moveToDark c s).gen = s.gen ∧ (moveToDark c s).acq = s.acq ∧
    (moveToDark c s).mon = s.mon ∧ (moveToDark c s).raster = s.raster ∧ (moveToDark c s).compose.frame = s.compose.frame ∧
    (moveToDark c s).compose.palette = s.compose.palette ∧ (moveToDark c s).compose.mode = s.compose.mode ∧
    (moveToDark c s).compose.startCol = s.compose.startCol ∧ (moveToDark c s).compose.text = s.compose.text ∧
    (moveToDark c s).compose.cursor = s.compose.cursor ∧ (moveToDark c s).compose.mark = s.compose.mark ∧
    (moveToDark c s).compose.owned = s.compose.owned ∧ (moveToDark c s).compose.annot0 = s.compose.annot0 ∧
    (moveToDark c s).compose.annot29 = s.compose.annot29 ∧ (moveToDark c s).panel = s.panel ∧
    (moveToDark c s).store = s.store ∧ (moveToDark c s).power.runAtWake = s.power.runAtWake ∧
    (moveToDark c s).link.inbound = s.link.inbound ∧ (moveToDark c s).link.answers = s.link.answers ∧
    (moveToDark c s).link.inPeriod = s.link.inPeriod ∧ (moveToDark c s).link.clocked = s.link.clocked ∧
    (moveToDark c s).link.gathered = s.link.gathered ∧ (moveToDark c s).link.ignoring = s.link.ignoring ∧
    (moveToDark c s).link.sending = s.link.sending ∧ (moveToDark c s).link.partly = s.link.partly ∧
    (moveToDark c s).pins = s.pins ∧ (moveToDark c s).pending = s.pending := by
  simp only [moveToDark]
  (repeat' split) <;> simp

@[simp] theorem wakeFromDark_frame (c : MoveCause) (s : State) :
    (wakeFromDark c s).setup = s.setup ∧ (wakeFromDark c s).gen = s.gen ∧ (wakeFromDark c s).acq = s.acq ∧
    (wakeFromDark c s).mon = s.mon ∧ (wakeFromDark c s).raster.list = s.raster.list ∧
    (wakeFromDark c s).raster.job = s.raster.job ∧ (wakeFromDark c s).raster.view = s.raster.view ∧
    (wakeFromDark c s).raster.writeCol = s.raster.writeCol ∧ (wakeFromDark c s).raster.wrapped = s.raster.wrapped ∧
    (wakeFromDark c s).compose.palette = s.compose.palette ∧ (wakeFromDark c s).compose.mode = s.compose.mode ∧
    (wakeFromDark c s).compose.startCol = s.compose.startCol ∧ (wakeFromDark c s).compose.cursor = s.compose.cursor ∧
    (wakeFromDark c s).compose.mark = s.compose.mark ∧ (wakeFromDark c s).compose.annot0 = s.compose.annot0 ∧
    (wakeFromDark c s).compose.annot29 = s.compose.annot29 ∧ (wakeFromDark c s).panel.keys = s.panel.keys ∧
    (wakeFromDark c s).panel.fifo = s.panel.fifo ∧ (wakeFromDark c s).panel.bindings = s.panel.bindings ∧
    (wakeFromDark c s).panel.knobs = s.panel.knobs ∧ (wakeFromDark c s).panel.lamps = s.panel.lamps ∧
    (wakeFromDark c s).panel.standbyMode = s.panel.standbyMode ∧ (wakeFromDark c s).panel.lock = s.panel.lock ∧
    (wakeFromDark c s).panel.idleMinutes = s.panel.idleMinutes ∧ (wakeFromDark c s).store = s.store ∧
    (wakeFromDark c s).power.runAtWake = s.power.runAtWake ∧ (wakeFromDark c s).link.inbound = s.link.inbound ∧
    (wakeFromDark c s).link.answers = s.link.answers ∧ (wakeFromDark c s).link.inPeriod = s.link.inPeriod ∧
    (wakeFromDark c s).link.clocked = s.link.clocked ∧ (wakeFromDark c s).link.gathered = s.link.gathered ∧
    (wakeFromDark c s).link.ignoring = s.link.ignoring ∧ (wakeFromDark c s).link.sending = s.link.sending ∧
    (wakeFromDark c s).link.partly = s.link.partly ∧ (wakeFromDark c s).pins = s.pins ∧
    (wakeFromDark c s).pending = s.pending := by
  simp only [wakeFromDark]
  (repeat' split) <;> simp

@[simp] theorem moveToStandby_frame (c : MoveCause) (s : State) :
    (moveToStandby c s).setup = s.setup ∧ (moveToStandby c s).gen = s.gen ∧
    (moveToStandby c s).acq.timeTag = s.acq.timeTag ∧ (moveToStandby c s).acq.wraps = s.acq.wraps ∧
    (moveToStandby c s).acq.nsPhase = s.acq.nsPhase ∧ (moveToStandby c s).acq.held = s.acq.held ∧
    (moveToStandby c s).acq.memEpoch = s.acq.memEpoch ∧ (moveToStandby c s).mon = s.mon ∧
    (moveToStandby c s).compose.palette = s.compose.palette ∧ (moveToStandby c s).compose.mode = s.compose.mode ∧
    (moveToStandby c s).compose.cursor = s.compose.cursor ∧ (moveToStandby c s).compose.mark = s.compose.mark ∧
    (moveToStandby c s).panel.fifo = s.panel.fifo ∧ (moveToStandby c s).panel.bindings = s.panel.bindings ∧
    (moveToStandby c s).panel.lamps = s.panel.lamps ∧ (moveToStandby c s).panel.standbyMode = s.panel.standbyMode ∧
    (moveToStandby c s).panel.lock = s.panel.lock ∧ (moveToStandby c s).panel.idleMinutes = s.panel.idleMinutes ∧
    (moveToStandby c s).store.dir = s.store.dir ∧ (moveToStandby c s).store.running = s.store.running ∧
    (moveToStandby c s).store.scan = s.store.scan ∧ (moveToStandby c s).store.step = s.store.step ∧
    (moveToStandby c s).store.bus = s.store.bus ∧ (moveToStandby c s).store.withheld = s.store.withheld ∧
    (moveToStandby c s).link.inbound = s.link.inbound ∧ (moveToStandby c s).link.inPeriod = s.link.inPeriod ∧
    (moveToStandby c s).link.clocked = s.link.clocked ∧ (moveToStandby c s).link.gathered = s.link.gathered ∧
    (moveToStandby c s).link.ignoring = s.link.ignoring ∧ (moveToStandby c s).link.sending = s.link.sending ∧
    (moveToStandby c s).link.partly = s.link.partly ∧ (moveToStandby c s).pins = s.pins ∧
    (moveToStandby c s).pending = s.pending := by
  simp only [moveToStandby]
  simp

@[simp] theorem wakeFromStandby_frame (c : MoveCause) (s : State) :
    (wakeFromStandby c s).setup = s.setup ∧ (wakeFromStandby c s).gen = s.gen ∧
    (wakeFromStandby c s).acq.timeTag = s.acq.timeTag ∧ (wakeFromStandby c s).acq.wraps = s.acq.wraps ∧
    (wakeFromStandby c s).acq.nsPhase = s.acq.nsPhase ∧ (wakeFromStandby c s).acq.held = s.acq.held ∧
    (wakeFromStandby c s).acq.memEpoch = s.acq.memEpoch ∧ (wakeFromStandby c s).mon = s.mon ∧
    (wakeFromStandby c s).compose.palette = s.compose.palette ∧ (wakeFromStandby c s).compose.mode = s.compose.mode ∧
    (wakeFromStandby c s).compose.cursor = s.compose.cursor ∧ (wakeFromStandby c s).compose.mark = s.compose.mark ∧
    (wakeFromStandby c s).panel.fifo = s.panel.fifo ∧ (wakeFromStandby c s).panel.bindings = s.panel.bindings ∧
    (wakeFromStandby c s).panel.lamps = s.panel.lamps ∧ (wakeFromStandby c s).panel.standbyMode = s.panel.standbyMode ∧
    (wakeFromStandby c s).panel.lock = s.panel.lock ∧ (wakeFromStandby c s).panel.idleMinutes = s.panel.idleMinutes ∧
    (wakeFromStandby c s).store.dir = s.store.dir ∧ (wakeFromStandby c s).store.running = s.store.running ∧
    (wakeFromStandby c s).store.scan = s.store.scan ∧ (wakeFromStandby c s).store.step = s.store.step ∧
    (wakeFromStandby c s).store.bus = s.store.bus ∧ (wakeFromStandby c s).store.withheld = s.store.withheld ∧
    (wakeFromStandby c s).link.inbound = s.link.inbound ∧ (wakeFromStandby c s).link.inPeriod = s.link.inPeriod ∧
    (wakeFromStandby c s).link.clocked = s.link.clocked ∧ (wakeFromStandby c s).link.gathered = s.link.gathered ∧
    (wakeFromStandby c s).link.ignoring = s.link.ignoring ∧ (wakeFromStandby c s).link.sending = s.link.sending ∧
    (wakeFromStandby c s).link.partly = s.link.partly ∧ (wakeFromStandby c s).pins = s.pins ∧
    (wakeFromStandby c s).pending = s.pending := by
  simp only [wakeFromStandby]
  (repeat' split) <;> simp

@[simp] theorem requestWaking_frame (s : State) :
    (requestWaking s).setup = s.setup ∧ (requestWaking s).gen = s.gen ∧ (requestWaking s).acq = s.acq ∧
    (requestWaking s).mon = s.mon ∧ (requestWaking s).raster.list = s.raster.list ∧
    (requestWaking s).raster.job = s.raster.job ∧ (requestWaking s).raster.view = s.raster.view ∧
    (requestWaking s).raster.writeCol = s.raster.writeCol ∧ (requestWaking s).raster.wrapped = s.raster.wrapped ∧
    (requestWaking s).compose.palette = s.compose.palette ∧ (requestWaking s).compose.mode = s.compose.mode ∧
    (requestWaking s).compose.startCol = s.compose.startCol ∧ (requestWaking s).compose.cursor = s.compose.cursor ∧
    (requestWaking s).compose.mark = s.compose.mark ∧ (requestWaking s).compose.annot0 = s.compose.annot0 ∧
    (requestWaking s).compose.annot29 = s.compose.annot29 ∧ (requestWaking s).panel.keys = s.panel.keys ∧
    (requestWaking s).panel.fifo = s.panel.fifo ∧ (requestWaking s).panel.bindings = s.panel.bindings ∧
    (requestWaking s).panel.knobs = s.panel.knobs ∧ (requestWaking s).panel.lamps = s.panel.lamps ∧
    (requestWaking s).panel.standbyMode = s.panel.standbyMode ∧ (requestWaking s).panel.lock = s.panel.lock ∧
    (requestWaking s).panel.idleMinutes = s.panel.idleMinutes ∧ (requestWaking s).store = s.store ∧
    (requestWaking s).power.runAtWake = s.power.runAtWake ∧ (requestWaking s).link.inbound = s.link.inbound ∧
    (requestWaking s).link.answers = s.link.answers ∧ (requestWaking s).link.inPeriod = s.link.inPeriod ∧
    (requestWaking s).link.clocked = s.link.clocked ∧ (requestWaking s).link.gathered = s.link.gathered ∧
    (requestWaking s).link.ignoring = s.link.ignoring ∧ (requestWaking s).link.sending = s.link.sending ∧
    (requestWaking s).link.partly = s.link.partly ∧ (requestWaking s).pins = s.pins ∧ (requestWaking s).pending = s.pending := by
  simp only [requestWaking]
  (repeat' split) <;> simp

@[simp] theorem requestWake_frame (p : PowerState) (s : State) :
    (requestWake p s).setup = s.setup ∧ (requestWake p s).gen = s.gen ∧ (requestWake p s).acq.timeTag = s.acq.timeTag ∧
    (requestWake p s).acq.wraps = s.acq.wraps ∧ (requestWake p s).acq.nsPhase = s.acq.nsPhase ∧
    (requestWake p s).acq.held = s.acq.held ∧ (requestWake p s).acq.memEpoch = s.acq.memEpoch ∧
    (requestWake p s).mon = s.mon ∧ (requestWake p s).compose.palette = s.compose.palette ∧
    (requestWake p s).compose.mode = s.compose.mode ∧ (requestWake p s).compose.cursor = s.compose.cursor ∧
    (requestWake p s).compose.mark = s.compose.mark ∧ (requestWake p s).panel.fifo = s.panel.fifo ∧
    (requestWake p s).panel.bindings = s.panel.bindings ∧ (requestWake p s).panel.lamps = s.panel.lamps ∧
    (requestWake p s).panel.standbyMode = s.panel.standbyMode ∧ (requestWake p s).panel.lock = s.panel.lock ∧
    (requestWake p s).panel.idleMinutes = s.panel.idleMinutes ∧ (requestWake p s).store.dir = s.store.dir ∧
    (requestWake p s).store.running = s.store.running ∧ (requestWake p s).store.scan = s.store.scan ∧
    (requestWake p s).store.step = s.store.step ∧ (requestWake p s).store.bus = s.store.bus ∧
    (requestWake p s).store.withheld = s.store.withheld ∧ (requestWake p s).link.inbound = s.link.inbound ∧
    (requestWake p s).link.inPeriod = s.link.inPeriod ∧ (requestWake p s).link.clocked = s.link.clocked ∧
    (requestWake p s).link.gathered = s.link.gathered ∧ (requestWake p s).link.ignoring = s.link.ignoring ∧
    (requestWake p s).link.sending = s.link.sending ∧ (requestWake p s).link.partly = s.link.partly ∧
    (requestWake p s).pins = s.pins ∧ (requestWake p s).pending = s.pending := by
  cases p <;> simp only [requestWake, requestOn, requestStandby] <;> (repeat' split) <;> simp

@[simp] theorem runAction_frame (a : KeyAction) (s : State) :
    ((runAction a s).1).acq.timeTag = s.acq.timeTag ∧ ((runAction a s).1).acq.wraps = s.acq.wraps ∧
    ((runAction a s).1).acq.nsPhase = s.acq.nsPhase ∧ ((runAction a s).1).acq.held = s.acq.held ∧
    ((runAction a s).1).acq.memEpoch = s.acq.memEpoch ∧ ((runAction a s).1).compose.palette = s.compose.palette ∧
    ((runAction a s).1).compose.mode = s.compose.mode ∧ ((runAction a s).1).compose.cursor = s.compose.cursor ∧
    ((runAction a s).1).compose.mark = s.compose.mark ∧ ((runAction a s).1).panel.bindings = s.panel.bindings ∧
    ((runAction a s).1).panel.lamps = s.panel.lamps ∧ ((runAction a s).1).panel.standbyMode = s.panel.standbyMode ∧
    ((runAction a s).1).panel.lock = s.panel.lock ∧ ((runAction a s).1).panel.idleMinutes = s.panel.idleMinutes ∧
    ((runAction a s).1).store.dir = s.store.dir ∧ ((runAction a s).1).store.running = s.store.running ∧
    ((runAction a s).1).store.scan = s.store.scan ∧ ((runAction a s).1).store.step = s.store.step ∧
    ((runAction a s).1).store.bus = s.store.bus ∧ ((runAction a s).1).store.withheld = s.store.withheld ∧
    ((runAction a s).1).link.inbound = s.link.inbound ∧ ((runAction a s).1).link.inPeriod = s.link.inPeriod ∧
    ((runAction a s).1).link.clocked = s.link.clocked ∧ ((runAction a s).1).link.gathered = s.link.gathered ∧
    ((runAction a s).1).link.ignoring = s.link.ignoring ∧ ((runAction a s).1).link.sending = s.link.sending ∧
    ((runAction a s).1).link.partly = s.link.partly ∧ ((runAction a s).1).pins = s.pins ∧
    ((runAction a s).1).pending = s.pending := by
  cases a <;> simp only [runAction, actJob] <;> (repeat' split) <;> simp

@[simp] theorem pressInOn_frame (k : Nat) (s : State) :
    (pressInOn k s).acq.timeTag = s.acq.timeTag ∧ (pressInOn k s).acq.wraps = s.acq.wraps ∧
    (pressInOn k s).acq.nsPhase = s.acq.nsPhase ∧ (pressInOn k s).acq.held = s.acq.held ∧
    (pressInOn k s).acq.memEpoch = s.acq.memEpoch ∧ (pressInOn k s).compose.palette = s.compose.palette ∧
    (pressInOn k s).compose.mode = s.compose.mode ∧ (pressInOn k s).compose.cursor = s.compose.cursor ∧
    (pressInOn k s).compose.mark = s.compose.mark ∧ (pressInOn k s).panel.bindings = s.panel.bindings ∧
    (pressInOn k s).panel.lamps = s.panel.lamps ∧ (pressInOn k s).panel.standbyMode = s.panel.standbyMode ∧
    (pressInOn k s).panel.lock = s.panel.lock ∧ (pressInOn k s).panel.idleMinutes = s.panel.idleMinutes ∧
    (pressInOn k s).store.dir = s.store.dir ∧ (pressInOn k s).store.running = s.store.running ∧
    (pressInOn k s).store.scan = s.store.scan ∧ (pressInOn k s).store.step = s.store.step ∧
    (pressInOn k s).store.bus = s.store.bus ∧ (pressInOn k s).store.withheld = s.store.withheld ∧
    (pressInOn k s).link.inbound = s.link.inbound ∧ (pressInOn k s).link.inPeriod = s.link.inPeriod ∧
    (pressInOn k s).link.clocked = s.link.clocked ∧ (pressInOn k s).link.gathered = s.link.gathered ∧
    (pressInOn k s).link.ignoring = s.link.ignoring ∧ (pressInOn k s).link.sending = s.link.sending ∧
    (pressInOn k s).link.partly = s.link.partly ∧ (pressInOn k s).pins = s.pins ∧ (pressInOn k s).pending = s.pending := by
  simp only [pressInOn]
  (repeat' split) <;> simp

@[simp] theorem pressInDark_frame (k : Nat) (s : State) :
    (pressInDark k s).setup = s.setup ∧ (pressInDark k s).gen = s.gen ∧ (pressInDark k s).acq = s.acq ∧
    (pressInDark k s).raster.list = s.raster.list ∧ (pressInDark k s).raster.job = s.raster.job ∧
    (pressInDark k s).raster.view = s.raster.view ∧ (pressInDark k s).raster.writeCol = s.raster.writeCol ∧
    (pressInDark k s).raster.wrapped = s.raster.wrapped ∧ (pressInDark k s).compose.palette = s.compose.palette ∧
    (pressInDark k s).compose.mode = s.compose.mode ∧ (pressInDark k s).compose.startCol = s.compose.startCol ∧
    (pressInDark k s).compose.cursor = s.compose.cursor ∧ (pressInDark k s).compose.mark = s.compose.mark ∧
    (pressInDark k s).compose.annot0 = s.compose.annot0 ∧ (pressInDark k s).compose.annot29 = s.compose.annot29 ∧
    (pressInDark k s).panel.bindings = s.panel.bindings ∧ (pressInDark k s).panel.knobs = s.panel.knobs ∧
    (pressInDark k s).panel.lamps = s.panel.lamps ∧ (pressInDark k s).panel.standbyMode = s.panel.standbyMode ∧
    (pressInDark k s).panel.lock = s.panel.lock ∧ (pressInDark k s).panel.idleMinutes = s.panel.idleMinutes ∧
    (pressInDark k s).store = s.store ∧ (pressInDark k s).power.runAtWake = s.power.runAtWake ∧
    (pressInDark k s).link.inbound = s.link.inbound ∧ (pressInDark k s).link.answers = s.link.answers ∧
    (pressInDark k s).link.inPeriod = s.link.inPeriod ∧ (pressInDark k s).link.clocked = s.link.clocked ∧
    (pressInDark k s).link.gathered = s.link.gathered ∧ (pressInDark k s).link.ignoring = s.link.ignoring ∧
    (pressInDark k s).link.sending = s.link.sending ∧ (pressInDark k s).link.partly = s.link.partly ∧
    (pressInDark k s).pins = s.pins ∧ (pressInDark k s).pending = s.pending := by
  simp only [pressInDark]
  (repeat' split) <;> simp

@[simp] theorem pressInStandby_frame (k : Nat) (s : State) :
    (pressInStandby k s).acq.timeTag = s.acq.timeTag ∧ (pressInStandby k s).acq.wraps = s.acq.wraps ∧
    (pressInStandby k s).acq.nsPhase = s.acq.nsPhase ∧ (pressInStandby k s).acq.held = s.acq.held ∧
    (pressInStandby k s).acq.memEpoch = s.acq.memEpoch ∧ (pressInStandby k s).compose.palette = s.compose.palette ∧
    (pressInStandby k s).compose.mode = s.compose.mode ∧ (pressInStandby k s).compose.cursor = s.compose.cursor ∧
    (pressInStandby k s).compose.mark = s.compose.mark ∧ (pressInStandby k s).panel.bindings = s.panel.bindings ∧
    (pressInStandby k s).panel.lamps = s.panel.lamps ∧ (pressInStandby k s).panel.standbyMode = s.panel.standbyMode ∧
    (pressInStandby k s).panel.lock = s.panel.lock ∧ (pressInStandby k s).panel.idleMinutes = s.panel.idleMinutes ∧
    (pressInStandby k s).store.dir = s.store.dir ∧ (pressInStandby k s).store.running = s.store.running ∧
    (pressInStandby k s).store.scan = s.store.scan ∧ (pressInStandby k s).store.step = s.store.step ∧
    (pressInStandby k s).store.bus = s.store.bus ∧ (pressInStandby k s).store.withheld = s.store.withheld ∧
    (pressInStandby k s).link.inbound = s.link.inbound ∧ (pressInStandby k s).link.inPeriod = s.link.inPeriod ∧
    (pressInStandby k s).link.clocked = s.link.clocked ∧ (pressInStandby k s).link.gathered = s.link.gathered ∧
    (pressInStandby k s).link.ignoring = s.link.ignoring ∧ (pressInStandby k s).link.sending = s.link.sending ∧
    (pressInStandby k s).link.partly = s.link.partly ∧ (pressInStandby k s).pins = s.pins ∧
    (pressInStandby k s).pending = s.pending := by
  simp only [pressInStandby]
  (repeat' split) <;> simp

@[simp] theorem pressKey_frame (k : Nat) (s : State) :
    (pressKey k s).acq.timeTag = s.acq.timeTag ∧ (pressKey k s).acq.wraps = s.acq.wraps ∧
    (pressKey k s).acq.nsPhase = s.acq.nsPhase ∧ (pressKey k s).acq.held = s.acq.held ∧
    (pressKey k s).acq.memEpoch = s.acq.memEpoch ∧ (pressKey k s).compose.palette = s.compose.palette ∧
    (pressKey k s).compose.mode = s.compose.mode ∧ (pressKey k s).compose.cursor = s.compose.cursor ∧
    (pressKey k s).compose.mark = s.compose.mark ∧ (pressKey k s).panel.bindings = s.panel.bindings ∧
    (pressKey k s).panel.lamps = s.panel.lamps ∧ (pressKey k s).panel.standbyMode = s.panel.standbyMode ∧
    (pressKey k s).panel.lock = s.panel.lock ∧ (pressKey k s).panel.idleMinutes = s.panel.idleMinutes ∧
    (pressKey k s).store.dir = s.store.dir ∧ (pressKey k s).store.running = s.store.running ∧
    (pressKey k s).store.scan = s.store.scan ∧ (pressKey k s).store.step = s.store.step ∧
    (pressKey k s).store.bus = s.store.bus ∧ (pressKey k s).store.withheld = s.store.withheld ∧
    (pressKey k s).link.inbound = s.link.inbound ∧ (pressKey k s).link.inPeriod = s.link.inPeriod ∧
    (pressKey k s).link.clocked = s.link.clocked ∧ (pressKey k s).link.gathered = s.link.gathered ∧
    (pressKey k s).link.ignoring = s.link.ignoring ∧ (pressKey k s).link.sending = s.link.sending ∧
    (pressKey k s).link.partly = s.link.partly ∧ (pressKey k s).pins = s.pins ∧ (pressKey k s).pending = s.pending := by
  simp only [pressKey]
  (repeat' split) <;> simp

@[simp] theorem offerBatch_frame (n : Nat) (b : KnobBinding) (s : State) :
    (offerBatch n b s).acq.timeTag = s.acq.timeTag ∧ (offerBatch n b s).acq.wraps = s.acq.wraps ∧
    (offerBatch n b s).acq.nsPhase = s.acq.nsPhase ∧ (offerBatch n b s).acq.held = s.acq.held ∧
    (offerBatch n b s).acq.memEpoch = s.acq.memEpoch ∧ (offerBatch n b s).compose.palette = s.compose.palette ∧
    (offerBatch n b s).compose.mode = s.compose.mode ∧ (offerBatch n b s).compose.cursor = s.compose.cursor ∧
    (offerBatch n b s).compose.mark = s.compose.mark ∧ (offerBatch n b s).panel.bindings = s.panel.bindings ∧
    (offerBatch n b s).panel.lamps = s.panel.lamps ∧ (offerBatch n b s).panel.standbyMode = s.panel.standbyMode ∧
    (offerBatch n b s).panel.lock = s.panel.lock ∧ (offerBatch n b s).panel.idleMinutes = s.panel.idleMinutes ∧
    (offerBatch n b s).store.dir = s.store.dir ∧ (offerBatch n b s).store.running = s.store.running ∧
    (offerBatch n b s).store.scan = s.store.scan ∧ (offerBatch n b s).store.step = s.store.step ∧
    (offerBatch n b s).store.bus = s.store.bus ∧ (offerBatch n b s).store.withheld = s.store.withheld ∧
    (offerBatch n b s).link.inbound = s.link.inbound ∧ (offerBatch n b s).link.inPeriod = s.link.inPeriod ∧
    (offerBatch n b s).link.clocked = s.link.clocked ∧ (offerBatch n b s).link.gathered = s.link.gathered ∧
    (offerBatch n b s).link.ignoring = s.link.ignoring ∧ (offerBatch n b s).link.sending = s.link.sending ∧
    (offerBatch n b s).link.partly = s.link.partly ∧ (offerBatch n b s).pins = s.pins ∧
    (offerBatch n b s).pending = s.pending := by
  simp only [offerBatch]
  (repeat' split) <;> simp

@[simp] theorem countDetent_frame (n : Nat) (d : Dir) (s : State) :
    (countDetent n d s).acq.timeTag = s.acq.timeTag ∧ (countDetent n d s).acq.wraps = s.acq.wraps ∧
    (countDetent n d s).acq.nsPhase = s.acq.nsPhase ∧ (countDetent n d s).acq.held = s.acq.held ∧
    (countDetent n d s).acq.memEpoch = s.acq.memEpoch ∧ (countDetent n d s).compose.palette = s.compose.palette ∧
    (countDetent n d s).compose.mode = s.compose.mode ∧ (countDetent n d s).compose.cursor = s.compose.cursor ∧
    (countDetent n d s).compose.mark = s.compose.mark ∧ (countDetent n d s).panel.bindings = s.panel.bindings ∧
    (countDetent n d s).panel.lamps = s.panel.lamps ∧ (countDetent n d s).panel.standbyMode = s.panel.standbyMode ∧
    (countDetent n d s).panel.lock = s.panel.lock ∧ (countDetent n d s).panel.idleMinutes = s.panel.idleMinutes ∧
    (countDetent n d s).store.dir = s.store.dir ∧ (countDetent n d s).store.running = s.store.running ∧
    (countDetent n d s).store.scan = s.store.scan ∧ (countDetent n d s).store.step = s.store.step ∧
    (countDetent n d s).store.bus = s.store.bus ∧ (countDetent n d s).store.withheld = s.store.withheld ∧
    (countDetent n d s).link.inbound = s.link.inbound ∧ (countDetent n d s).link.inPeriod = s.link.inPeriod ∧
    (countDetent n d s).link.clocked = s.link.clocked ∧ (countDetent n d s).link.gathered = s.link.gathered ∧
    (countDetent n d s).link.ignoring = s.link.ignoring ∧ (countDetent n d s).link.sending = s.link.sending ∧
    (countDetent n d s).link.partly = s.link.partly ∧ (countDetent n d s).pins = s.pins ∧
    (countDetent n d s).pending = s.pending := by
  simp only [countDetent]
  (repeat' split) <;> simp

@[simp] theorem takeDetent_frame (n : Nat) (d : Dir) (s : State) :
    (takeDetent n d s).acq.timeTag = s.acq.timeTag ∧ (takeDetent n d s).acq.wraps = s.acq.wraps ∧
    (takeDetent n d s).acq.nsPhase = s.acq.nsPhase ∧ (takeDetent n d s).acq.held = s.acq.held ∧
    (takeDetent n d s).acq.memEpoch = s.acq.memEpoch ∧ (takeDetent n d s).compose.palette = s.compose.palette ∧
    (takeDetent n d s).compose.mode = s.compose.mode ∧ (takeDetent n d s).compose.cursor = s.compose.cursor ∧
    (takeDetent n d s).compose.mark = s.compose.mark ∧ (takeDetent n d s).panel.bindings = s.panel.bindings ∧
    (takeDetent n d s).panel.lamps = s.panel.lamps ∧ (takeDetent n d s).panel.standbyMode = s.panel.standbyMode ∧
    (takeDetent n d s).panel.lock = s.panel.lock ∧ (takeDetent n d s).panel.idleMinutes = s.panel.idleMinutes ∧
    (takeDetent n d s).store.dir = s.store.dir ∧ (takeDetent n d s).store.running = s.store.running ∧
    (takeDetent n d s).store.scan = s.store.scan ∧ (takeDetent n d s).store.step = s.store.step ∧
    (takeDetent n d s).store.bus = s.store.bus ∧ (takeDetent n d s).store.withheld = s.store.withheld ∧
    (takeDetent n d s).link.inbound = s.link.inbound ∧ (takeDetent n d s).link.inPeriod = s.link.inPeriod ∧
    (takeDetent n d s).link.clocked = s.link.clocked ∧ (takeDetent n d s).link.gathered = s.link.gathered ∧
    (takeDetent n d s).link.ignoring = s.link.ignoring ∧ (takeDetent n d s).link.sending = s.link.sending ∧
    (takeDetent n d s).link.partly = s.link.partly ∧ (takeDetent n d s).pins = s.pins ∧
    (takeDetent n d s).pending = s.pending := by
  simp only [takeDetent]
  (repeat' split) <;> simp

@[simp] theorem scanKey_frame (s : State) (k : Nat) :
    (scanKey s k).acq.timeTag = s.acq.timeTag ∧ (scanKey s k).acq.wraps = s.acq.wraps ∧
    (scanKey s k).acq.nsPhase = s.acq.nsPhase ∧ (scanKey s k).acq.held = s.acq.held ∧
    (scanKey s k).acq.memEpoch = s.acq.memEpoch ∧ (scanKey s k).compose.palette = s.compose.palette ∧
    (scanKey s k).compose.mode = s.compose.mode ∧ (scanKey s k).compose.cursor = s.compose.cursor ∧
    (scanKey s k).compose.mark = s.compose.mark ∧ (scanKey s k).panel.bindings = s.panel.bindings ∧
    (scanKey s k).panel.lamps = s.panel.lamps ∧ (scanKey s k).panel.standbyMode = s.panel.standbyMode ∧
    (scanKey s k).panel.lock = s.panel.lock ∧ (scanKey s k).panel.idleMinutes = s.panel.idleMinutes ∧
    (scanKey s k).store.dir = s.store.dir ∧ (scanKey s k).store.running = s.store.running ∧
    (scanKey s k).store.scan = s.store.scan ∧ (scanKey s k).store.step = s.store.step ∧
    (scanKey s k).store.bus = s.store.bus ∧ (scanKey s k).store.withheld = s.store.withheld ∧
    (scanKey s k).link.inbound = s.link.inbound ∧ (scanKey s k).link.inPeriod = s.link.inPeriod ∧
    (scanKey s k).link.clocked = s.link.clocked ∧ (scanKey s k).link.gathered = s.link.gathered ∧
    (scanKey s k).link.ignoring = s.link.ignoring ∧ (scanKey s k).link.sending = s.link.sending ∧
    (scanKey s k).link.partly = s.link.partly ∧ (scanKey s k).pins = s.pins ∧ (scanKey s k).pending = s.pending := by
  simp only [scanKey]
  (repeat' split) <;> simp

@[simp] theorem scanRepeat_frame (s : State) (k : Nat) :
    (scanRepeat s k).setup = s.setup ∧ (scanRepeat s k).gen = s.gen ∧ (scanRepeat s k).acq = s.acq ∧
    (scanRepeat s k).raster = s.raster ∧ (scanRepeat s k).compose = s.compose ∧
    (scanRepeat s k).panel.bindings = s.panel.bindings ∧ (scanRepeat s k).panel.knobs = s.panel.knobs ∧
    (scanRepeat s k).panel.lamps = s.panel.lamps ∧ (scanRepeat s k).panel.standbyMode = s.panel.standbyMode ∧
    (scanRepeat s k).panel.lock = s.panel.lock ∧ (scanRepeat s k).panel.idleMinutes = s.panel.idleMinutes ∧
    (scanRepeat s k).panel.idleStart = s.panel.idleStart ∧ (scanRepeat s k).store = s.store ∧
    (scanRepeat s k).power = s.power ∧ (scanRepeat s k).link.inbound = s.link.inbound ∧
    (scanRepeat s k).link.answers = s.link.answers ∧ (scanRepeat s k).link.inPeriod = s.link.inPeriod ∧
    (scanRepeat s k).link.clocked = s.link.clocked ∧ (scanRepeat s k).link.gathered = s.link.gathered ∧
    (scanRepeat s k).link.ignoring = s.link.ignoring ∧ (scanRepeat s k).link.sending = s.link.sending ∧
    (scanRepeat s k).link.partly = s.link.partly ∧ (scanRepeat s k).pins = s.pins ∧ (scanRepeat s k).pending = s.pending := by
  simp only [scanRepeat]
  (repeat' split) <;> simp

@[simp] theorem scanKnob_frame (s : State) (n : Nat) :
    (scanKnob s n).acq.timeTag = s.acq.timeTag ∧ (scanKnob s n).acq.wraps = s.acq.wraps ∧
    (scanKnob s n).acq.nsPhase = s.acq.nsPhase ∧ (scanKnob s n).acq.held = s.acq.held ∧
    (scanKnob s n).acq.memEpoch = s.acq.memEpoch ∧ (scanKnob s n).compose.palette = s.compose.palette ∧
    (scanKnob s n).compose.mode = s.compose.mode ∧ (scanKnob s n).compose.cursor = s.compose.cursor ∧
    (scanKnob s n).compose.mark = s.compose.mark ∧ (scanKnob s n).panel.bindings = s.panel.bindings ∧
    (scanKnob s n).panel.lamps = s.panel.lamps ∧ (scanKnob s n).panel.standbyMode = s.panel.standbyMode ∧
    (scanKnob s n).panel.lock = s.panel.lock ∧ (scanKnob s n).panel.idleMinutes = s.panel.idleMinutes ∧
    (scanKnob s n).store.dir = s.store.dir ∧ (scanKnob s n).store.running = s.store.running ∧
    (scanKnob s n).store.scan = s.store.scan ∧ (scanKnob s n).store.step = s.store.step ∧
    (scanKnob s n).store.bus = s.store.bus ∧ (scanKnob s n).store.withheld = s.store.withheld ∧
    (scanKnob s n).link.inbound = s.link.inbound ∧ (scanKnob s n).link.inPeriod = s.link.inPeriod ∧
    (scanKnob s n).link.clocked = s.link.clocked ∧ (scanKnob s n).link.gathered = s.link.gathered ∧
    (scanKnob s n).link.ignoring = s.link.ignoring ∧ (scanKnob s n).link.sending = s.link.sending ∧
    (scanKnob s n).link.partly = s.link.partly ∧ (scanKnob s n).pins = s.pins ∧ (scanKnob s n).pending = s.pending := by
  simp only [scanKnob]
  (repeat' split) <;> simp

@[simp] theorem foldl_scanKey_frame (ks : List Nat) (s : State) :
    (ks.foldl scanKey s).acq.timeTag = s.acq.timeTag ∧ (ks.foldl scanKey s).acq.wraps = s.acq.wraps ∧
    (ks.foldl scanKey s).acq.nsPhase = s.acq.nsPhase ∧ (ks.foldl scanKey s).acq.held = s.acq.held ∧
    (ks.foldl scanKey s).acq.memEpoch = s.acq.memEpoch ∧ (ks.foldl scanKey s).compose.palette = s.compose.palette ∧
    (ks.foldl scanKey s).compose.mode = s.compose.mode ∧ (ks.foldl scanKey s).compose.cursor = s.compose.cursor ∧
    (ks.foldl scanKey s).compose.mark = s.compose.mark ∧ (ks.foldl scanKey s).panel.bindings = s.panel.bindings ∧
    (ks.foldl scanKey s).panel.lamps = s.panel.lamps ∧ (ks.foldl scanKey s).panel.standbyMode = s.panel.standbyMode ∧
    (ks.foldl scanKey s).panel.lock = s.panel.lock ∧ (ks.foldl scanKey s).panel.idleMinutes = s.panel.idleMinutes ∧
    (ks.foldl scanKey s).store.dir = s.store.dir ∧ (ks.foldl scanKey s).store.running = s.store.running ∧
    (ks.foldl scanKey s).store.scan = s.store.scan ∧ (ks.foldl scanKey s).store.step = s.store.step ∧
    (ks.foldl scanKey s).store.bus = s.store.bus ∧ (ks.foldl scanKey s).store.withheld = s.store.withheld ∧
    (ks.foldl scanKey s).link.inbound = s.link.inbound ∧ (ks.foldl scanKey s).link.inPeriod = s.link.inPeriod ∧
    (ks.foldl scanKey s).link.clocked = s.link.clocked ∧ (ks.foldl scanKey s).link.gathered = s.link.gathered ∧
    (ks.foldl scanKey s).link.ignoring = s.link.ignoring ∧ (ks.foldl scanKey s).link.sending = s.link.sending ∧
    (ks.foldl scanKey s).link.partly = s.link.partly ∧ (ks.foldl scanKey s).pins = s.pins ∧
    (ks.foldl scanKey s).pending = s.pending := by
  induction ks generalizing s with
  | nil => simp
  | cons x r ih => simpa using ih (scanKey s x)

@[simp] theorem foldl_scanRepeat_frame (ks : List Nat) (s : State) :
    (ks.foldl scanRepeat s).setup = s.setup ∧ (ks.foldl scanRepeat s).gen = s.gen ∧ (ks.foldl scanRepeat s).acq = s.acq ∧
    (ks.foldl scanRepeat s).raster = s.raster ∧ (ks.foldl scanRepeat s).compose = s.compose ∧
    (ks.foldl scanRepeat s).panel.bindings = s.panel.bindings ∧ (ks.foldl scanRepeat s).panel.knobs = s.panel.knobs ∧
    (ks.foldl scanRepeat s).panel.lamps = s.panel.lamps ∧ (ks.foldl scanRepeat s).panel.standbyMode = s.panel.standbyMode ∧
    (ks.foldl scanRepeat s).panel.lock = s.panel.lock ∧ (ks.foldl scanRepeat s).panel.idleMinutes = s.panel.idleMinutes ∧
    (ks.foldl scanRepeat s).panel.idleStart = s.panel.idleStart ∧ (ks.foldl scanRepeat s).store = s.store ∧
    (ks.foldl scanRepeat s).power = s.power ∧ (ks.foldl scanRepeat s).link.inbound = s.link.inbound ∧
    (ks.foldl scanRepeat s).link.answers = s.link.answers ∧ (ks.foldl scanRepeat s).link.inPeriod = s.link.inPeriod ∧
    (ks.foldl scanRepeat s).link.clocked = s.link.clocked ∧ (ks.foldl scanRepeat s).link.gathered = s.link.gathered ∧
    (ks.foldl scanRepeat s).link.ignoring = s.link.ignoring ∧ (ks.foldl scanRepeat s).link.sending = s.link.sending ∧
    (ks.foldl scanRepeat s).link.partly = s.link.partly ∧ (ks.foldl scanRepeat s).pins = s.pins ∧
    (ks.foldl scanRepeat s).pending = s.pending := by
  induction ks generalizing s with
  | nil => simp
  | cons x r ih => simpa using ih (scanRepeat s x)

@[simp] theorem foldl_scanKnob_frame (ns : List Nat) (s : State) :
    (ns.foldl scanKnob s).acq.timeTag = s.acq.timeTag ∧ (ns.foldl scanKnob s).acq.wraps = s.acq.wraps ∧
    (ns.foldl scanKnob s).acq.nsPhase = s.acq.nsPhase ∧ (ns.foldl scanKnob s).acq.held = s.acq.held ∧
    (ns.foldl scanKnob s).acq.memEpoch = s.acq.memEpoch ∧ (ns.foldl scanKnob s).compose.palette = s.compose.palette ∧
    (ns.foldl scanKnob s).compose.mode = s.compose.mode ∧ (ns.foldl scanKnob s).compose.cursor = s.compose.cursor ∧
    (ns.foldl scanKnob s).compose.mark = s.compose.mark ∧ (ns.foldl scanKnob s).panel.bindings = s.panel.bindings ∧
    (ns.foldl scanKnob s).panel.lamps = s.panel.lamps ∧ (ns.foldl scanKnob s).panel.standbyMode = s.panel.standbyMode ∧
    (ns.foldl scanKnob s).panel.lock = s.panel.lock ∧ (ns.foldl scanKnob s).panel.idleMinutes = s.panel.idleMinutes ∧
    (ns.foldl scanKnob s).store.dir = s.store.dir ∧ (ns.foldl scanKnob s).store.running = s.store.running ∧
    (ns.foldl scanKnob s).store.scan = s.store.scan ∧ (ns.foldl scanKnob s).store.step = s.store.step ∧
    (ns.foldl scanKnob s).store.bus = s.store.bus ∧ (ns.foldl scanKnob s).store.withheld = s.store.withheld ∧
    (ns.foldl scanKnob s).link.inbound = s.link.inbound ∧ (ns.foldl scanKnob s).link.inPeriod = s.link.inPeriod ∧
    (ns.foldl scanKnob s).link.clocked = s.link.clocked ∧ (ns.foldl scanKnob s).link.gathered = s.link.gathered ∧
    (ns.foldl scanKnob s).link.ignoring = s.link.ignoring ∧ (ns.foldl scanKnob s).link.sending = s.link.sending ∧
    (ns.foldl scanKnob s).link.partly = s.link.partly ∧ (ns.foldl scanKnob s).pins = s.pins ∧
    (ns.foldl scanKnob s).pending = s.pending := by
  induction ns generalizing s with
  | nil => simp
  | cons x r ih => simpa using ih (scanKnob s x)

@[simp] theorem scanKeys_frame (s : State) :
    (scanKeys s).acq.timeTag = s.acq.timeTag ∧ (scanKeys s).acq.wraps = s.acq.wraps ∧
    (scanKeys s).acq.nsPhase = s.acq.nsPhase ∧ (scanKeys s).acq.held = s.acq.held ∧
    (scanKeys s).acq.memEpoch = s.acq.memEpoch ∧ (scanKeys s).compose.palette = s.compose.palette ∧
    (scanKeys s).compose.mode = s.compose.mode ∧ (scanKeys s).compose.cursor = s.compose.cursor ∧
    (scanKeys s).compose.mark = s.compose.mark ∧ (scanKeys s).panel.bindings = s.panel.bindings ∧
    (scanKeys s).panel.lamps = s.panel.lamps ∧ (scanKeys s).panel.standbyMode = s.panel.standbyMode ∧
    (scanKeys s).panel.lock = s.panel.lock ∧ (scanKeys s).panel.idleMinutes = s.panel.idleMinutes ∧
    (scanKeys s).store.dir = s.store.dir ∧ (scanKeys s).store.running = s.store.running ∧
    (scanKeys s).store.scan = s.store.scan ∧ (scanKeys s).store.step = s.store.step ∧
    (scanKeys s).store.bus = s.store.bus ∧ (scanKeys s).store.withheld = s.store.withheld ∧
    (scanKeys s).link.inbound = s.link.inbound ∧ (scanKeys s).link.inPeriod = s.link.inPeriod ∧
    (scanKeys s).link.clocked = s.link.clocked ∧ (scanKeys s).link.gathered = s.link.gathered ∧
    (scanKeys s).link.ignoring = s.link.ignoring ∧ (scanKeys s).link.sending = s.link.sending ∧
    (scanKeys s).link.partly = s.link.partly ∧ (scanKeys s).pins = s.pins ∧ (scanKeys s).pending = s.pending := by
  simp only [scanKeys]
  (repeat' split) <;> simp

@[simp] theorem scanKnobs_frame (s : State) :
    (scanKnobs s).acq.timeTag = s.acq.timeTag ∧ (scanKnobs s).acq.wraps = s.acq.wraps ∧
    (scanKnobs s).acq.nsPhase = s.acq.nsPhase ∧ (scanKnobs s).acq.held = s.acq.held ∧
    (scanKnobs s).acq.memEpoch = s.acq.memEpoch ∧ (scanKnobs s).compose.palette = s.compose.palette ∧
    (scanKnobs s).compose.mode = s.compose.mode ∧ (scanKnobs s).compose.cursor = s.compose.cursor ∧
    (scanKnobs s).compose.mark = s.compose.mark ∧ (scanKnobs s).panel.bindings = s.panel.bindings ∧
    (scanKnobs s).panel.lamps = s.panel.lamps ∧ (scanKnobs s).panel.standbyMode = s.panel.standbyMode ∧
    (scanKnobs s).panel.lock = s.panel.lock ∧ (scanKnobs s).panel.idleMinutes = s.panel.idleMinutes ∧
    (scanKnobs s).store.dir = s.store.dir ∧ (scanKnobs s).store.running = s.store.running ∧
    (scanKnobs s).store.scan = s.store.scan ∧ (scanKnobs s).store.step = s.store.step ∧
    (scanKnobs s).store.bus = s.store.bus ∧ (scanKnobs s).store.withheld = s.store.withheld ∧
    (scanKnobs s).link.inbound = s.link.inbound ∧ (scanKnobs s).link.inPeriod = s.link.inPeriod ∧
    (scanKnobs s).link.clocked = s.link.clocked ∧ (scanKnobs s).link.gathered = s.link.gathered ∧
    (scanKnobs s).link.ignoring = s.link.ignoring ∧ (scanKnobs s).link.sending = s.link.sending ∧
    (scanKnobs s).link.partly = s.link.partly ∧ (scanKnobs s).pins = s.pins ∧ (scanKnobs s).pending = s.pending := by
  simp only [scanKnobs]
  (repeat' split) <;> simp

@[simp] theorem scansAt_frame (s : State) :
    (scansAt s).acq.timeTag = s.acq.timeTag ∧ (scansAt s).acq.wraps = s.acq.wraps ∧
    (scansAt s).acq.nsPhase = s.acq.nsPhase ∧ (scansAt s).acq.held = s.acq.held ∧
    (scansAt s).acq.memEpoch = s.acq.memEpoch ∧ (scansAt s).compose.palette = s.compose.palette ∧
    (scansAt s).compose.mode = s.compose.mode ∧ (scansAt s).compose.cursor = s.compose.cursor ∧
    (scansAt s).compose.mark = s.compose.mark ∧ (scansAt s).panel.bindings = s.panel.bindings ∧
    (scansAt s).panel.lamps = s.panel.lamps ∧ (scansAt s).panel.standbyMode = s.panel.standbyMode ∧
    (scansAt s).panel.lock = s.panel.lock ∧ (scansAt s).panel.idleMinutes = s.panel.idleMinutes ∧
    (scansAt s).store.dir = s.store.dir ∧ (scansAt s).store.running = s.store.running ∧
    (scansAt s).store.scan = s.store.scan ∧ (scansAt s).store.step = s.store.step ∧ (scansAt s).store.bus = s.store.bus ∧
    (scansAt s).store.withheld = s.store.withheld ∧ (scansAt s).link.inbound = s.link.inbound ∧
    (scansAt s).link.inPeriod = s.link.inPeriod ∧ (scansAt s).link.clocked = s.link.clocked ∧
    (scansAt s).link.gathered = s.link.gathered ∧ (scansAt s).link.ignoring = s.link.ignoring ∧
    (scansAt s).link.sending = s.link.sending ∧ (scansAt s).link.partly = s.link.partly ∧ (scansAt s).pins = s.pins ∧
    (scansAt s).pending = s.pending := by
  simp only [scansAt]
  (repeat' split) <;> simp

/-- R140, R149: at a tick that 15,625 does not divide no scan falls. -/
theorem scansAt_none (s : State) (h : ticksSinceReset s % 15625 ≠ 0) : scansAt s = s := by
  have h' : ¬ ticksSinceReset s % 125000 = 0 := by omega
  simp [scansAt, h, h']

@[simp] theorem scanAtTick_frame (s : State) :
    (scanAtTick s).acq.timeTag = s.acq.timeTag ∧ (scanAtTick s).acq.wraps = s.acq.wraps ∧
    (scanAtTick s).acq.nsPhase = s.acq.nsPhase ∧ (scanAtTick s).acq.held = s.acq.held ∧
    (scanAtTick s).acq.memEpoch = s.acq.memEpoch ∧ (scanAtTick s).compose.palette = s.compose.palette ∧
    (scanAtTick s).compose.mode = s.compose.mode ∧ (scanAtTick s).compose.cursor = s.compose.cursor ∧
    (scanAtTick s).compose.mark = s.compose.mark ∧ (scanAtTick s).panel.bindings = s.panel.bindings ∧
    (scanAtTick s).panel.lamps = s.panel.lamps ∧ (scanAtTick s).panel.standbyMode = s.panel.standbyMode ∧
    (scanAtTick s).panel.lock = s.panel.lock ∧ (scanAtTick s).panel.idleMinutes = s.panel.idleMinutes ∧
    (scanAtTick s).store.dir = s.store.dir ∧ (scanAtTick s).store.running = s.store.running ∧
    (scanAtTick s).store.scan = s.store.scan ∧ (scanAtTick s).store.step = s.store.step ∧
    (scanAtTick s).store.bus = s.store.bus ∧ (scanAtTick s).store.withheld = s.store.withheld ∧
    (scanAtTick s).link.inbound = s.link.inbound ∧ (scanAtTick s).link.inPeriod = s.link.inPeriod ∧
    (scanAtTick s).link.clocked = s.link.clocked ∧ (scanAtTick s).link.gathered = s.link.gathered ∧
    (scanAtTick s).link.ignoring = s.link.ignoring ∧ (scanAtTick s).link.sending = s.link.sending ∧
    (scanAtTick s).link.partly = s.link.partly ∧ (scanAtTick s).pins = s.pins ∧ (scanAtTick s).pending = s.pending := by
  simp only [scanAtTick]
  (repeat' split) <;> simp

/-- No scan falls unless a tick that 15,625 divides begins. -/
theorem scanAtTick_none (s : State) (h : s.acq.nsPhase ≠ 0 ∨ ticksSinceReset s % 15625 ≠ 0) : scanAtTick s = s := by
  unfold scanAtTick
  split
  · exact scansAt_none s (by omega)
  · rfl

@[simp] theorem passCode_frame (s : State) (x : Sample) :
    (passCode s x).acq.memEpoch = s.acq.memEpoch ∧ (passCode s x).compose.palette = s.compose.palette ∧
    (passCode s x).compose.mode = s.compose.mode ∧ (passCode s x).compose.cursor = s.compose.cursor ∧
    (passCode s x).compose.mark = s.compose.mark ∧ (passCode s x).panel.bindings = s.panel.bindings ∧
    (passCode s x).panel.lamps = s.panel.lamps ∧ (passCode s x).panel.standbyMode = s.panel.standbyMode ∧
    (passCode s x).panel.lock = s.panel.lock ∧ (passCode s x).panel.idleMinutes = s.panel.idleMinutes ∧
    (passCode s x).store.dir = s.store.dir ∧ (passCode s x).store.running = s.store.running ∧
    (passCode s x).store.scan = s.store.scan ∧ (passCode s x).store.step = s.store.step ∧
    (passCode s x).store.bus = s.store.bus ∧ (passCode s x).store.withheld = s.store.withheld ∧
    (passCode s x).link.inbound = s.link.inbound ∧ (passCode s x).link.inPeriod = s.link.inPeriod ∧
    (passCode s x).link.clocked = s.link.clocked ∧ (passCode s x).link.gathered = s.link.gathered ∧
    (passCode s x).link.ignoring = s.link.ignoring ∧ (passCode s x).link.sending = s.link.sending ∧
    (passCode s x).link.partly = s.link.partly ∧ (passCode s x).pins.lock = s.pins.lock ∧
    (passCode s x).pins.keys = s.pins.keys ∧ (passCode s x).pins.encA = s.pins.encA ∧
    (passCode s x).pins.encB = s.pins.encB ∧ (passCode s x).pins.linkSelLow = s.pins.linkSelLow ∧
    (passCode s x).pins.resetLow = s.pins.resetLow ∧ (passCode s x).pending = s.pending := by
  simp only [passCode]
  (repeat' split) <;> simp

/-- R140: the position of a key is a bit of the switches. -/
theorem keyClosed_eq (s : State) (k : Nat) : keyClosed s k = s.pins.keys.getLsbD k := by
  have h : k % 8 < 8 := Nat.mod_lt _ (by omega)
  simp only [keyClosed, keyColLines, BitVec.getLsbD_extractLsb', decide_eq_true h, Bool.true_and, Nat.div_add_mod]

/-- R42: what a nanosecond does to the clock. -/
theorem advanceNs_clock (s : State) (h : s.acq.nsPhase < 8) :
    (advanceNs s).acq.nsPhase = (s.acq.nsPhase + 1) % 8 ∧
    (advanceNs s).acq.timeTag = s.acq.timeTag + BitVec.ofNat 48 ((s.acq.nsPhase + 1) / 8) ∧
    ticksSinceReset (advanceNs s) = ticksSinceReset s + (s.acq.nsPhase + 1) / 8 := by
  unfold advanceNs
  split
  · rename_i h7
    rw [show (s.acq.nsPhase + 1) / 8 = 0 by omega, show (s.acq.nsPhase + 1) % 8 = s.acq.nsPhase + 1 by omega]
    exact ⟨rfl, (BitVec.add_zero _).symm, by simp [ticksSinceReset]⟩
  · rename_i h7
    rw [show (s.acq.nsPhase + 1) / 8 = 1 by omega, show (s.acq.nsPhase + 1) % 8 = 0 by omega]
    refine ⟨rfl, rfl, ?_⟩
    simp only [ticksSinceReset]
    have hlt := s.acq.timeTag.isLt
    have e : (s.acq.timeTag + 1).toNat = (s.acq.timeTag.toNat + 1) % 2 ^ 48 := by simp [BitVec.toNat_add]
    by_cases hz : s.acq.timeTag + 1 = 0
    · have h0 : (s.acq.timeTag + 1).toNat = 0 := by rw [hz]; rfl
      simp only [hz, if_true]
      have : (0 : Tick).toNat = 0 := rfl
      rw [this]
      omega
    · have h0 : (s.acq.timeTag + 1).toNat ≠ 0 := fun c => hz (BitVec.eq_of_toNat_eq c)
      simp only [hz, if_false]
      omega

/-- R42: what a code does to the clock. -/
theorem takeCode_clock (s : State) (x : Sample) (h : s.acq.nsPhase < 8) :
    (takeCode s x).acq.nsPhase = (s.acq.nsPhase + 1) % 8 ∧
    (takeCode s x).acq.timeTag = s.acq.timeTag + BitVec.ofNat 48 ((s.acq.nsPhase + 1) / 8) ∧
    ticksSinceReset (takeCode s x) = ticksSinceReset s + (s.acq.nsPhase + 1) / 8 := by
  obtain ⟨code, tick, u, e, hn, ht, hw⟩ : ∃ code tick u, takeCode s x = detect code x.ext tick (advanceNs (accumulate code u)) ∧
      u.acq.nsPhase = s.acq.nsPhase ∧ u.acq.timeTag = s.acq.timeTag ∧ u.acq.wraps = s.acq.wraps :=
    ⟨_, _, _, rfl, by simp, by simp, by simp⟩
  obtain ⟨c1, c2, c3⟩ := advanceNs_clock (accumulate code u) (by simpa [hn] using h)
  rw [e]
  simp only [ticksSinceReset, detect_frame, accumulate_frame, hn, ht, hw] at c1 c2 c3 ⊢
  exact ⟨c1, c2, c3⟩

/-- R140, R149: with no scan falling, a run of codes is nothing but its codes. -/
theorem passCodes_noScan (xs : List Sample) (s : State) (h : NoScanFalls xs.length s) :
    passCodes xs s = xs.foldl takeCode s := by
  induction xs generalizing s with
  | nil => simp [passCodes]
  | cons x r ih =>
    obtain ⟨h8, hs⟩ := h
    obtain ⟨c1, _, c3⟩ := takeCode_clock s x h8
    have hp : passCode s x = takeCode s x := by
      refine scanAtTick_none _ ?_
      by_cases hz : (s.acq.nsPhase + 1) % 8 = 0
      · exact Or.inr (by rw [c3]; exact hs 1 (by omega) (by simp) hz)
      · exact Or.inl (by omega)
    rw [passCodes, List.foldl_cons, hp, List.foldl_cons]
    refine ih _ ⟨by omega, fun j h1 h2 h3 => ?_⟩
    have h2' : j + 1 ≤ (x :: r).length := by simp; omega
    have := hs (j + 1) (by omega) h2' (by omega)
    rw [c1, c3]
    omega

@[simp] theorem passCodes_frame (xs : List Sample) (s : State) :
    (passCodes xs s).acq.memEpoch = s.acq.memEpoch ∧ (passCodes xs s).compose.palette = s.compose.palette ∧
    (passCodes xs s).compose.mode = s.compose.mode ∧ (passCodes xs s).compose.cursor = s.compose.cursor ∧
    (passCodes xs s).compose.mark = s.compose.mark ∧ (passCodes xs s).panel.bindings = s.panel.bindings ∧
    (passCodes xs s).panel.lamps = s.panel.lamps ∧ (passCodes xs s).panel.standbyMode = s.panel.standbyMode ∧
    (passCodes xs s).panel.lock = s.panel.lock ∧ (passCodes xs s).panel.idleMinutes = s.panel.idleMinutes ∧
    (passCodes xs s).store.dir = s.store.dir ∧ (passCodes xs s).store.running = s.store.running ∧
    (passCodes xs s).store.scan = s.store.scan ∧ (passCodes xs s).store.step = s.store.step ∧
    (passCodes xs s).store.bus = s.store.bus ∧ (passCodes xs s).store.withheld = s.store.withheld ∧
    (passCodes xs s).link.inbound = s.link.inbound ∧ (passCodes xs s).link.inPeriod = s.link.inPeriod ∧
    (passCodes xs s).link.clocked = s.link.clocked ∧ (passCodes xs s).link.gathered = s.link.gathered ∧
    (passCodes xs s).link.ignoring = s.link.ignoring ∧ (passCodes xs s).link.sending = s.link.sending ∧
    (passCodes xs s).link.partly = s.link.partly ∧ (passCodes xs s).pins.lock = s.pins.lock ∧
    (passCodes xs s).pins.keys = s.pins.keys ∧ (passCodes xs s).pins.encA = s.pins.encA ∧
    (passCodes xs s).pins.encB = s.pins.encB ∧ (passCodes xs s).pins.linkSelLow = s.pins.linkSelLow ∧
    (passCodes xs s).pins.resetLow = s.pins.resetLow ∧ (passCodes xs s).pending = s.pending := by
  induction xs generalizing s with
  | nil => simp [passCodes]
  | cons x r ih => simpa [passCodes] using ih (passCode s x)


end Sys2Proof.Machine
end

