-- ==== Sys2Proof/Laws/Orders.lean ====
section
/-! SUPPORT. The dispatch of an order: what an order that can be dispatched does, and what one that cannot. -/

namespace Sys2Proof.Machine

/-- R202: an order that can be dispatched and has a permitted length is acted on once it has left the inbound queue. -/
theorem order_ready {kind tag : Byte} {body : List Byte} {s : State} (h : Ready kind tag body s) (lenOk : Nat → Bool)
    (act : State → State) (hl : lenOk body.length = true) :
    order kind lenOk tag body act s = .next (act (popInbound s)) := by
  obtain ⟨h1, h2, h3⟩ := h
  simp [order, live, dispatchOrder, atHead, dispatchable, h1, h2, h3, hl]

/-- R202: an order of a length its kind does not permit is answered BAD_LENGTH. -/
theorem order_badLength {kind tag : Byte} {body : List Byte} {s : State} (h : Ready kind tag body s) (lenOk : Nat → Bool)
    (act : State → State) (hl : lenOk body.length = false) :
    order kind lenOk tag body act s = .next (answered kind tag .badLength [] s) := by
  obtain ⟨h1, h2, h3⟩ := h
  simp [order, live, dispatchOrder, atHead, dispatchable, h1, h2, h3, hl, answer, pushAnswer, popInbound, answered]

/-- R202: an order at the head waits while the answer queue has no room. -/
theorem order_waits {kind tag : Byte} {body : List Byte} {s : State} (lenOk : Nat → Bool) (act : State → State)
    (h2 : s.link.inbound.head? = some ⟨kind, tag, body⟩) (h3 : answerRoom s = false) :
    order kind lenOk tag body act s = .next s := by
  simp [order, live, dispatchOrder, atHead, dispatchable, h2, h3]

/-- R197: while RESET_N is low an order does nothing. -/
theorem order_resetLow {kind tag : Byte} {body : List Byte} {s : State} (lenOk : Nat → Bool) (act : State → State)
    (h : s.pins.resetLow = true) : order kind lenOk tag body act s = .next s := by
  simp [order, live, h]

/-- An answer made after the order has left the inbound queue, over a state that keeps the queues. -/
theorem answer_popInbound (kind tag : Byte) (st : Status) (items : List Byte) (s : State) :
    answer kind tag st items (popInbound s) = answered kind tag st items s := by
  simp [answer, pushAnswer, popInbound, answered]

/-- R197: an effect while RESET_N is high. -/
theorem live_high {effect : State → State} {s : State} (h : s.pins.resetLow = false) : live effect s = .next (effect s) := by
  simp [live, h]

/-- R197: nothing happens while RESET_N is low. -/
theorem live_low {effect : State → State} {s : State} (h : s.pins.resetLow = true) : live effect s = .next s := by
  simp [live, h]

end Sys2Proof.Machine
end

