-- ==== Sys2Proof/Laws/Screen.lean ====
section
/-! SUPPORT. What the cells of the text plane hold once the annotation's rows are written, and the planes once a roll picture stands
in window order. -/

namespace Sys2Proof.Machine

/-- What the cells of a row list under a cell number. -/
theorem tabGet?_rowCells (row : List Byte) (base k : Nat) :
    tabGet? (rowCells base row) k = if base ≤ k then
      (row[k - base]?).bind (fun c => if c = 0x20 then none else some ⟨c, 5⟩) else none := by
  have go : ∀ (r : List Byte) (n : Nat), tabGet? ((r.zipIdx n).filterMap
      (fun p => if p.1 = 0x20 then none else some (base + p.2, (⟨p.1, 5⟩ : Cell)))) k = if base + n ≤ k then
      (r[k - (base + n)]?).bind (fun c => if c = 0x20 then none else some ⟨c, 5⟩) else none := by
    intro r
    induction r with
    | nil => intro n; simp [tabGet?]
    | cons c r ih =>
      intro n
      rw [List.zipIdx_cons]
      by_cases hc : c = 32#8
      · rw [List.filterMap_cons_none (by simp [hc]), ih]
        by_cases h : base + n ≤ k
        · by_cases h0 : k = base + n
          · subst h0; simp [hc]
          · have h1 : base + (n + 1) ≤ k := by omega
            obtain ⟨m, hm⟩ : ∃ m, k - (base + n) = m + 1 := ⟨k - (base + n) - 1, by omega⟩
            have hm' : k - (base + (n + 1)) = m := by omega
            simp [h, h1, hm, hm']
        · have h1 : ¬ base + (n + 1) ≤ k := by omega
          simp [h, h1]
      · rw [List.filterMap_cons_some (b := (base + n, (⟨c, 5⟩ : Cell))) (by simp [hc])]
        simp only [tabGet?]
        by_cases h0 : base + n = k
        · subst h0; simp [hc]
        · rw [if_neg h0, ih]
          by_cases h : base + n ≤ k
          · have h1 : base + (n + 1) ≤ k := by omega
            obtain ⟨m, hm⟩ : ∃ m, k - (base + n) = m + 1 := ⟨k - (base + n) - 1, by omega⟩
            have hm' : k - (base + (n + 1)) = m := by omega
            simp [h, h1, hm, hm']
          · have h1 : ¬ base + (n + 1) ≤ k := by omega
            simp [h, h1]
  have := go row 0
  simpa [rowCells] using this

/-- R135: the cells that writing the two rows leaves. -/
theorem cellAt_writeAnnotRows (r0 r29 : List Byte) (text : List (Nat × Cell)) (k : Nat) (h0 : r0.length = 100)
    (h29 : r29.length = 100) : cellAt (writeAnnotRows r0 r29 text) k =
      if k < 100 then ⟨r0.getD k 0x20, 5⟩
      else if 2900 ≤ k ∧ k < 3000 then ⟨r29.getD (k - 2900) 0x20, 5⟩ else cellAt text k := by
  have hr : ∀ (r : List Byte) (j : Nat), (((r[j]?).bind (fun c => if c = 0x20 then none else some (⟨c, 5⟩ : Cell))).getD blankCell) =
      ⟨r.getD j 0x20, 5⟩ := by
    intro r j
    rw [List.getD_eq_getElem?_getD]
    cases r[j]? with
    | none => rfl
    | some c => by_cases hc : c = 32#8 <;> simp [hc, blankCell]
  have hout : ∀ (r : List Byte) (b j : Nat), r.length = 100 → j < b ∨ b + 100 ≤ j → tabGet? (rowCells b r) j = none := by
    intro r b j hl hj
    rw [tabGet?_rowCells]
    by_cases h : b ≤ j
    · have : r[j - b]? = none := by rw [List.getElem?_eq_none_iff]; omega
      simp [this]
    · simp [h]
  simp only [cellAt, tabGet, writeAnnotRows]
  rw [tabGet?_tabSplice _ _ _ _ _ (by omega) (fun j hj => hout r29 2900 j h29 (by omega)),
    tabGet?_tabSplice _ _ _ _ _ (by omega) (fun j hj => hout r0 0 j h0 (by omega))]
  by_cases h1 : k < 100
  · have : ¬ (2900 ≤ k ∧ k < 3000) := by omega
    rw [if_neg this, if_pos ⟨Nat.zero_le k, h1⟩, if_pos h1, tabGet?_rowCells]
    simpa using hr r0 k
  · have h3 : ¬ (0 ≤ k ∧ k < 100) := by omega
    rw [if_neg h1]
    by_cases h2 : 2900 ≤ k ∧ k < 3000
    · rw [if_pos h2, if_pos h2, tabGet?_rowCells, if_pos h2.1]
      exact hr r29 (k - 2900)
    · rw [if_neg h2, if_neg h2, if_neg h3]

/-- R135: the rows of the annotation have 100 cells each. -/
theorem annotRows_length (u : Setup) (a : AcqState) : (annotRow0 u a).length = 100 ∧ (annotRow29 u).length = 100 := by
  simp [annotRow0, annotRow29, padText]
  omega

theorem tabGet?_shiftDown {α : Type} (t : List (Nat × α)) (d x : Nat) :
    tabGet? ((t.filter (fun e => decide (d ≤ e.1))).map (fun e => (e.1 - d, e.2))) x = tabGet? t (x + d) := by
  induction t with
  | nil => rfl
  | cons e r ih =>
    obtain ⟨k, y⟩ := e
    by_cases h : d ≤ k
    · simp only [List.filter_cons, h, decide_true, if_true, List.map_cons, tabGet?, ih]
      by_cases hk : k - d = x
      · rw [if_pos hk, if_pos (by omega)]
      · rw [if_neg hk, if_neg (by omega)]
    · simp only [List.filter_cons, h, decide_false, Bool.false_eq_true, if_false, tabGet?, ih]
      rw [if_neg (by omega)]

theorem tabGet?_shiftUp {α : Type} (t : List (Nat × α)) (lim d x : Nat) :
    tabGet? ((t.filter (fun e => decide (e.1 < lim))).map (fun e => (e.1 + d, e.2))) x =
      if d ≤ x ∧ x < lim + d then tabGet? t (x - d) else none := by
  induction t with
  | nil => simp [tabGet?]
  | cons e r ih =>
    obtain ⟨k, y⟩ := e
    by_cases h : k < lim
    · simp only [List.filter_cons, h, decide_true, if_true, List.map_cons, tabGet?, ih]
      by_cases hk : k + d = x
      · rw [if_pos hk, if_pos (by omega), if_pos (by omega)]
      · rw [if_neg hk]
        by_cases hc : d ≤ x ∧ x < lim + d
        · rw [if_pos hc, if_pos hc, if_neg (by omega)]
        · rw [if_neg hc, if_neg hc]
    · simp only [List.filter_cons, h, decide_false, Bool.false_eq_true, if_false, tabGet?, ih]
      by_cases hc : d ≤ x ∧ x < lim + d
      · rw [if_pos hc, if_pos hc, if_neg (by omega)]
      · rw [if_neg hc, if_neg hc]

/-- R113: once a roll picture stands in window order, window column c holds what stored column (w + c) mod 500 held. -/
theorem intensity_rotatePlane (w : Nat) (p : List (Nat × Byte)) (c r : Nat) (hp : PlaneOk p) (hw : w < 500) (hc : c < 500)
    (hr : r < 400) : intensity (rotatePlane w p) c r = intensity p ((w + c) % 500) r := by
  unfold intensity rotatePlane tabGet
  rw [tabGet?_append, tabGet?_shiftDown, tabGet?_shiftUp]
  by_cases h : w + c < 500
  · rw [if_neg (by omega), Nat.mod_eq_of_lt h, show 400 * c + r + 400 * w = 400 * (w + c) + r by omega]
    cases tabGet? p (400 * (w + c) + r) <;> rfl
  · have hmod : (w + c) % 500 = w + c - 500 := by omega
    rw [tabGet?_none p (400 * c + r + 400 * w) (fun e he => by have := hp.2 e he; omega), if_pos (by omega), hmod,
      show 400 * c + r - 400 * (500 - w) = 400 * (w + c - 500) + r by omega]
    rfl

/-- R113: what the planes show once ROLLING has been left: window column c holds what the roll picture showed there. -/
theorem rasterLeaveRoll_picture (view : Option (Nat × Serial)) (s : State) (n : Chan) (c r : Nat) (h : RasterOk s) (hc : c < 500)
    (hr : r < 400) : intensity ((rasterLeaveRoll view s).raster.planes.get n) c r =
      intensity (s.raster.planes.get n) (if s.raster.wrapped then (s.raster.writeCol + c) % 500 else c) r := by
  simp only [rasterLeaveRoll, takeStartCol]
  cases s.raster.wrapped with
  | false => rfl
  | true =>
    have hn := h.1 n
    cases n <;> exact intensity_rotatePlane _ _ _ _ hn h.2.1 hc hr

end Sys2Proof.Machine
end

