-- ==== Sys2Proof/Laws/Steps.lean ====
section
/-! SUPPORT. What a flash step's end and the start of the next one do on an OWNED bus, and how a job ends. -/

namespace Sys2Proof.Machine

/-- R172, R181: on an OWNED bus with no step in flight the running job's next step starts. -/
theorem startStep_running (u : State) (r : Running) (j : StoreJob) (rest : List StoreJob) (h1 : u.store.bus = .owned)
    (h2 : u.store.step = none) (h3 : u.store.running = some r) (h4 : u.store.queue = j :: rest) :
    startStep u = { u with store := { u.store with
      step := some ⟨(phaseStep u j r.phase).1, (phaseStep u j r.phase).2, u.acq.timeTag⟩ } } := by
  simp only [startStep, nextStep, h1, h2, h3, h4]
  simp

/-- With neither a running job nor the scan no step starts. -/
theorem startStep_idle (u : State) (h1 : u.store.running = none) (h2 : u.store.scan = none) : startStep u = u := by
  simp only [startStep, nextStep, h1, h2]
  simp

/-- R167: a step that ends on an OWNED bus: its effect, the next step, then the autosaves that waited for its end. -/
theorem endStep_owned (f : State → State) (s u : State)
    (hu : f { s with store := { s.store with step := none, autosaves := [] } } = u) (hb : u.store.bus = .owned) :
    endStep f s = s.store.autosaves.foldl (autosaveActs s.store.scan.isSome) (startStep u) := by
  simp only [endStep, hu, lendIfAsked]
  simp [hb]

/-- R167: the autosaves that wait act on what the step's end leaves without them. -/
theorem endStep_autosaves (f : State → State) (s : State) :
    endStep f s = s.store.autosaves.foldl (autosaveActs s.store.scan.isSome)
      (endStep f { s with store := { s.store with autosaves := [] } }) := rfl

/-- R172: a job that ends otherwise than DONE. -/
theorem endJob_failing (r : JobResult) (u : State) (j : StoreJob) (rest : List StoreJob) (h : u.store.queue = j :: rest)
    (hr : r ≠ .done) : endJob r u = { u with
      store := { u.store with queue := rest, running := none, last := some ⟨some j.slot, j.kind.record, r⟩ }
      link := { u.link with notes := noteEnter .store u.link.notes } } := by
  simp only [endJob, h]
  rw [if_neg hr]
  rfl

/-- R81, R172: a job that ends DONE. -/
theorem endJob_done (u : State) (j : StoreJob) (rest : List StoreJob) (h : u.store.queue = j :: rest) :
    endJob .done u = { u with
      store := { u.store with queue := rest, running := none, last := some ⟨some j.slot, j.kind.record, .done⟩ }
      link := { u.link with notes := noteEnter .store u.link.notes }
      mon := { u.mon with current := u.mon.current &&& ~~~(flagBit flagStoreFault) } } := by
  simp only [endJob, h]
  rfl

end Sys2Proof.Machine
end

