-- ==== Sys2Proof/Laws/Triggers.lean ====
section
/-! SUPPORT. A capture end does not depend on the acquisition state it finds, and an accepted trigger with P = L is the capture end of
the state it leaves. -/

namespace Sys2Proof.Machine

/-- The state with another acquisition state and nothing else of it changed. -/
def State.inState (b : AcqState) (s : State) : State := { s with acq := { s.acq with state := b } }

theorem setAcqState_inState (a b : AcqState) (s : State) : setAcqState a (s.inState b) = setAcqState a s := rfl

theorem setSeg_inState (k : Nat) (r : SegRecord) (b : AcqState) (s : State) :
    setSeg k r (s.inState b) = (setSeg k r s).inState b := rfl

theorem enterNote_inState (src : NoteSource) (b : AcqState) (s : State) :
    enterNote src (s.inState b) = (enterNote src s).inState b := rfl

theorem monOccur_inState (fs : BitVec 76) (b : AcqState) (s : State) :
    monOccur fs (s.inState b) = (monOccur fs s).inState b := by
  simp only [monOccur, show (s.inState b).mon = s.mon from rfl]
  by_cases h : ((fs &&& ~~~s.mon.mask) != 0) = true
  · rw [if_pos h, if_pos h]; rfl
  · rw [if_neg h, if_neg h]; rfl

theorem monCaptureEnd_inState (fs : BitVec 76) (b : AcqState) (s : State) :
    monCaptureEnd fs (s.inState b) = (monCaptureEnd fs s).inState b :=
  monOccur_inState fs b { s with mon := { s.mon with current := s.mon.current &&& ~~~measuredFlags } }

theorem readyAtOnce_inState (t : Tick) (b : AcqState) (s : State) : readyAtOnce t (setAcqState .waiting (s.inState b)) =
    readyAtOnce t (setAcqState .waiting s) := rfl

theorem beginCapture_inState (k : Nat) (i : SegInfo) (b : AcqState) (s : State) :
    beginCapture k i (s.inState b) = beginCapture k i s := by
  simp only [beginCapture]; split <;> rfl

theorem arm_inState (k : Nat) (b : AcqState) (s : State) : arm k (s.inState b) = arm k s := by
  have h1 : (s.inState b).setup = s.setup := rfl
  have h2 : freeForArm k s.setup.geometry (s.inState b) = (freeForArm k s.setup.geometry s).inState b := rfl
  simp only [arm, h1, h2]
  generalize freeForArm k s.setup.geometry s = u
  have h3 : armWaits k s.setup.geometry (u.inState b) = armWaits k s.setup.geometry u := rfl
  have h4 : enterHeld (u.inState b) = enterHeld u := rfl
  have h5 : armInfo s.setup.geometry (u.inState b) = armInfo s.setup.geometry u := rfl
  simp only [h3, h4, h5]
  split
  · rfl
  · exact beginCapture_inState k _ b { u with acq := { u.acq with prevLayout := some s.setup.geometry.layout } }

theorem nextArm_inState (b : AcqState) (s : State) : nextArm (s.inState b) = nextArm s := by
  have h1 : (s.inState b).acq.runKind = s.acq.runKind := rfl
  have h2 : bufferChoice (s.inState b) = bufferChoice s := rfl
  have h3 : (s.inState b).acq.runIndex = s.acq.runIndex := rfl
  simp only [nextArm, armRepeat, h1, h2, h3, arm_inState]
  split
  · exact arm_inState _ b { s with acq := { s.acq with runIndex := s.acq.runIndex + 1 } }
  all_goals rfl

theorem enterAutomatic_inState (k : Nat) (ser : Serial) (ch : PerChan Bool) (b : AcqState) (s : State) :
    enterAutomatic k ser ch (s.inState b) = (enterAutomatic k ser ch s).inState b := by
  simp only [enterAutomatic, show (s.inState b).power = s.power from rfl]
  by_cases h : s.power.state = .standby
  · rw [if_pos h, if_pos h]
  · rw [if_neg h, if_neg h]; rfl

theorem afterDone_inState (k : Nat) (g : Geometry) (o : SegOutcome) (b : AcqState) (s : State) :
    afterDone k g o (s.inState b) = afterDone k g o s := by
  have h1 : runEnds (s.inState b) k g o = runEnds s k g o := rfl
  have h2 : segAt (s.inState b) k = segAt s k := rfl
  have h3 : (s.inState b).acq.runKind = s.acq.runKind := rfl
  have h4 : ∀ (c : Prop) [Decidable c] (u v : State), (if c then u.inState b else v.inState b) = (if c then u else v).inState b := by
    intro c _ u v; split <;> rfl
  simp only [afterDone, h1, h2, h3, enterAutomatic_inState, h4, enterNote_inState, nextArm_inState]
  rfl

theorem segRejectFollow_inState (o : SegOutcome) (b : AcqState) (s : State) :
    segRejectFollow o (s.inState b) = (segRejectFollow o s).inState b := by
  cases o
  · rfl
  · exact monOccur_inState _ b s

/-- R49, R50: a capture end does not depend on the acquisition state it finds. -/
theorem captureEnd_inState (b : AcqState) (s : State) (h : (curSeg s).info.isSome = true) :
    captureEnd (s.inState b) = captureEnd s := by
  have hc : curSeg (s.inState b) = curSeg s := rfl
  simp only [captureEnd, hc]
  cases hi : (curSeg s).info with
  | none => simp [hi] at h
  | some i =>
    have h1 : flagSetsAt (s.inState b) i = flagSetsAt s i := rfl
    have h2 : measAt (s.inState b) i.geo = measAt s i.geo := rfl
    have h3 : resultsAt (s.inState b) i.geo = resultsAt s i.geo := rfl
    have h4 : ∀ f, rejectedBy (s.inState b) i.geo f = rejectedBy s i.geo f := fun _ => rfl
    have h5 : (s.inState b).acq.cur = s.acq.cur := rfl
    have h6 : (s.inState b).setup = s.setup := rfl
    simp only [h1, h2, h3, h4, h5, h6, monCaptureEnd_inState]
    generalize monCaptureEnd _ s = u
    have h7 : recapture s.acq.cur i (u.inState b) = recapture s.acq.cur i u := beginCapture_inState _ _ b u
    have h8 : ∀ j, makeDone s.acq.cur j (u.inState b) = (makeDone s.acq.cur j u).inState b := fun _ => rfl
    simp only [h7, finishSegment, h8, segRejectFollow_inState, afterDone_inState]

/-- R49: an accepted trigger with P = L is the capture end of the state it leaves. -/
theorem acceptTrigger_whole (kind : TrigKind) (tag : Tick) (i : SegInfo) (s : State) (hi : (curSeg s).info = some i)
    (h : i.geo.len ≤ i.geo.pre) : acceptTrigger kind tag s = captureEnd (triggered kind tag i s) := by
  have hm : curSeg (markTrigger kind tag s) = { curSeg s with info := some { i with
      trigTag := some tag, trigKind := some kind, geo := { i.geo with origin := originFor s.acq.preCount i.geo.pre } } } := by
    simp only [markTrigger, hi]
    simp [curSeg, setSeg, segAt]
  have ht : triggered kind tag i s = (markTrigger kind tag s).inState .capturing := by
    simp only [markTrigger, hi]; rfl
  rw [ht, captureEnd_inState _ _ (by rw [hm]; rfl)]
  simp only [acceptTrigger, hm]
  rw [if_neg (by simpa using h)]

end Sys2Proof.Machine
end

