-- ==== Sys2Proof/WellFormed.lean ====
section
/-! DEFINITION. The forms of a command's operands that the reference can produce: what the raw lists of an Instr must look like. -/

namespace Sys2Proof

/-- LEN of a frame (R199): bytes 2 and 3, most significant first. -/
def frameLen (bytes : List Byte) : Nat := (bytes.getD 2 0).toNat * 256 + (bytes.getD 3 0).toNat

/-- R199: a whole inbound frame is 6 + LEN bytes with LEN at most 1024, and its KIND is not 0x00 (R198). -/
def wholeFrame (bytes : List Byte) : Bool :=
  bytes.length == 6 + frameLen bytes && decide (frameLen bytes ≤ 1024) && bytes.getD 0 0 != 0

/-- R214: the BODY of a frame has at most 1024 bytes. -/
def bodyFits (body : List Byte) : Bool := decide (body.length ≤ 1024)

/-- The well-formed commands: frames whole (R199), bodies at most 1024 bytes (R214), fewer than eight stray bits (R198),
LEN above 1024 found at byte 3 (R199), a kind that is not 0x00 (R198). -/
def WellFormed : Instr → Bool
  | .coldReset | .selectPeriodStart | .frameSent | .waveReadDone | .armAtRelease | .segmentReady | .autoTrigger
  | .captureEnd | .columnsLeftZero | .drawJobStart | .drawColumn | .frameEvent | .idleTimerExpiry | .storeJobStart
  | .flashProgramPageEnd | .flashEraseSectorEnd | .flashStepTimeout | .resetNLow => true
  | .pointWritten _ | .edgeTrigger _ | .rollColumn _ | .laneConditionChange _ _ | .keyPress _ | .keyRelease _
  | .keyRepeat _ | .knobDetent _ _ | .knobBatchResult _ | .flashReadPageEnd _ => true
  | .selectPeriodEnd _ stray => decide (stray.length < 8)
  | .frameComplete bytes => wholeFrame bytes
  | .lenAbove1024 bytes => bytes.length == 4 && decide (1024 < frameLen bytes) && bytes.getD 0 0 != 0
  | .orderBadKind kind _ body => kind != 0 && bodyFits body
  | .ident _ body | .state _ body | .restart _ body | .fieldSet _ body | .fieldGet _ body | .setupRead _ body
  | .setupWrite _ body | .setupDefault _ body | .run _ body | .stop _ body | .single _ body | .force _ body
  | .segRead _ body | .waveRead _ body | .flagsPeek _ body | .flagsTake _ body | .flagsMask _ body | .draw _ body
  | .planesClear _ body | .textPut _ body | .textMove _ body | .textMark _ body | .textReturn _ body
  | .textErase _ body | .paletteSet _ body | .screen _ body | .panelKeybind _ body | .panelKnobbind _ body
  | .panelLed _ body | .panelLock _ body | .panelIdle _ body | .keysRead _ body | .knobsRead _ body
  | .slotSave _ body | .slotRecall _ body | .slotErase _ body | .slotProtect _ body | .slotList _ body
  | .busLend _ body | .busReturn _ body | .power _ body => bodyFits body

end Sys2Proof
end

