-- ==== Sys2Proof/Tests/Slice0.lean ====
section
/-! SUPPORT. Tests: ill-formed commands are refused, worked examples of the reference, and for each statement a state and operands that meet its hypotheses. -/

namespace Sys2Proof.Machine.Tests

/-! ## Small states -/

/-- The state right after reset. -/
def s0 : State := State.reset

/-- A state with one order of a kind, tag 7, at the head of its inbound queue. -/
def ordered (kind : Byte) (body : List Byte) (s : State) : State := { s with link := { s.link with inbound := [⟨kind, 7, body⟩] } }

/-- A geometry of four points of CH1, two before the trigger, two ns each. -/
def geo : Geometry where
  depthIdx := 0
  interval := 2
  len := 4
  pre := 2
  size := 4
  nEff := 2
  origin := 0
  mode := .sample
  enabled := ⟨true, false, false, false⟩
  range := .const 6
  roll := false

/-- A record with this geometry. -/
def info : SegInfo where
  generation := 0
  geo := geo
  armTag := 0
  trigTag := none
  trigKind := none
  attempts := 0
  flags := .const .empty
  meas := none
  outcome := none

/-- The part in an acquisition state with a record of segment 0. -/
def working (a : AcqState) (r : SegRecord) : State :=
  { s0 with acq := { Acq.cold with state := a, runKind := .repeats, segs := [(0, r)] } }

/-- A DONE record of serial 1. -/
def doneRec : SegRecord := ⟨.done, 1, some { info with outcome := some .pass }⟩

/-- ACQ STOPPED with segment 0 DONE. -/
def withDone : State := { s0 with acq := { Acq.cold with segs := [(0, doneRec)] } }

/-- The part in a power state. -/
def powered (p : PowerState) (s : State) : State := { s with power := { s.power with state := p } }

/-- The part in an acquisition state with no segment record. -/
def inState (a : AcqState) : State := { s0 with acq := { Acq.cold with state := a, runKind := .repeats } }

/-- The part in a select period. -/
def selected : State :=
  { s0 with link := { s0.link with inPeriod := true }, pins := { s0.pins with linkSelLow := true } }

/-- A frame of a kind in a queue. -/
def frame (kind : Byte) : Frame := ⟨kind, 7, []⟩

/-! ## Ill-formed commands -/

theorem test_wf_stray_bits : WellFormed (.selectPeriodEnd [] (List.replicate 8 true)) = false ∧
    WellFormed (.selectPeriodEnd [] (List.replicate 7 true)) = true := by decide
theorem test_wf_frame_length : WellFormed (.frameComplete [1, 7, 0, 1, 0, 0]) = false ∧
    WellFormed (.frameComplete [1, 7, 0, 0, 0, 0]) = true := by decide
theorem test_wf_frame_kind : WellFormed (.frameComplete [0, 7, 0, 0, 0, 0]) = false := by decide
theorem test_wf_frame_len : WellFormed (.frameComplete ([1, 7, 4, 1] ++ List.replicate 1027 0)) = false := by decide +kernel
theorem test_wf_len_bytes : WellFormed (.lenAbove1024 [1, 7, 4, 0]) = false ∧ WellFormed (.lenAbove1024 [0, 7, 4, 1]) = false ∧
    WellFormed (.lenAbove1024 [1, 7, 4]) = false ∧ WellFormed (.lenAbove1024 [1, 7, 4, 1]) = true := by decide
theorem test_wf_bad_kind : WellFormed (.orderBadKind 0 7 []) = false ∧ WellFormed (.orderBadKind 0x3E 7 []) = true := by decide
theorem test_wf_body : WellFormed (.ident 7 (List.replicate 1025 0)) = false := by decide +kernel
theorem test_table_word_spells_none : decodeTableWord 8 1 = none := by decide

/-! ## Worked examples of the reference -/

/-- 10_the_order_link.md: an IDENT order arrives, waits, and is the order due. -/
theorem test_frame_is_due : orderDue { s0 with link := { s0.link with inbound := [frame 1] } } = some (.ident 7 []) := by decide
/-- R73: the rows of its table. -/
theorem test_mean16 : mean16 655 5 = 2096 ∧ mean16 385 3 = 2053 ∧ mean16 4097 32 = 2049 ∧ mean16 26200 200 = 2096 := by decide
/-- R95: the rows of its table. -/
theorem test_expansion : expansion 200000 150000 = 1365 ∧ expansion 5000 2001 = 2558 ∧ expansion 10000000 100000 = 10240 ∧
    expansion 1000 10000000 = 256 := by decide
/-- R96: its examples. -/
theorem test_rows : rowOf ⟨0, 1024⟩ 128 = 200 ∧ rowOf ⟨0, 1024⟩ 129 = 198 ∧ rowOf ⟨0, 1024⟩ 255 = 0 ∧
    rowOf ⟨0, 10240⟩ 148 = 0 := by decide
/-- R103: the rows of its table for 255. -/
theorem test_decay : decayed 16 255 = 239 ∧ decayed 16 239 = 224 ∧ decayed 32 255 = 223 ∧ decayed 32 223 = 195 ∧ decayed 128 127 = 63 ∧ decayed 255 255 = 0 := by decide
/-- R128: the rows of its table. -/
theorem test_duty : dutyOf 0 0 = 293 ∧ dutyOf 2 10 = 430 ∧ dutyOf 4 32 = 646 ∧ dutyOf 7 63 = 1023 := by decide
/-- R31: its examples. -/
theorem test_pretrigger : preTrigger 10000 50 = 5000 ∧ preTrigger 200 33 = 66 ∧ preTrigger 1000 100 = 1000 := by decide
/-- R19, R20: the default record's image reads back to it. -/
theorem test_default_image : (readImage (imageOf .default)).toOption = some (.default, 0) := by decide +kernel
/-- R213: a flag set's ten bytes give it back. -/
theorem test_flag_set : flagSetOf (flagSetBytes (flagBit 0 ||| flagBit 75)) = some (flagBit 0 ||| flagBit 75) := by decide

/-! ## Witnesses: for each statement with hypotheses, a state and operands that meet them, clause by clause -/

theorem test_StepRunsFrontCommand : ({ s0 with pending := [.ident 7 []] } : State).pending = .ident 7 [] :: [] := rfl
theorem test_IdleStepAdvancesTimeTag : s0.pending = [] ∧ nextDue s0 = none ∧ s0.pins.resetLow = false ∧
    captureExists s0 = true ∧ s0.acq.nsPhase < 8 := by decide +kernel
theorem test_ColdResetGivesColdValues : s0.pins.encA.getLsbD 3 = true ∧ s0.pins.encB.getLsbD 3 = true ∧ 99 < 100 ∧
    2900 ≤ 2999 ∧ 2999 < 3000 := by decide
theorem test_ResetLowHoldsThePart : (let s := { s0 with pins := { s0.pins with resetLow := true } }
      s.pins.resetLow = true ∧ s.pending = []) ∧
    [Instr.segmentReady, .drawJobStart, .keyRepeat 0, .flashStepTimeout, .ident 7 []].all (fun c =>
      decide (c ≠ .coldReset ∧ c ≠ .resetNLow ∧ c ≠ .selectPeriodStart)) = true := by decide
theorem test_CrcFollowsThePolynomial : (frame 1).body.length ≤ 1024 ∧
    ({ s0 with link := { s0.link with sending := some ⟨none, frame 1, false⟩ } } : State).link.sending =
      some ⟨none, frame 1, false⟩ := ⟨by decide, rfl⟩
/-- An inbound queue of 3 orders; one of 4 with 7 answers; one of 4 with 8. -/
def selectedWith (orders answers : Nat) : State :=
  { selected with link := { selected.link with
      inbound := List.replicate orders (frame 1), answers := List.replicate answers (frame 0x81) } }
/-- As selectedWith, sending the oldest answer, whose bytes before its last have been clocked out. -/
def leaving (orders answers : Nat) : State :=
  { selectedWith orders answers with link := { (selectedWith orders answers).link with
      sending := some ⟨none, frame 0x81, false⟩, clocked := ⟨5, 5⟩ } }
theorem test_CheckedFrameIsTaken :
    [((selectedWith 3 8, 0) : State × Nat), (selectedWith 4 7, 1), (leaving 4 8, 1), (selectedWith 4 8, 2)].all (fun p =>
      let s := p.1
      let c := clockNext (6 + (frame 1).body.length) s
      decide (s.pins.resetLow = false ∧ s.link.inPeriod = true ∧ s.link.ignoring = false ∧ s.link.gathered = [] ∧
        (frame 1).kind ≠ 0 ∧ (frame 1).body.length ≤ 1024 ∧ (frame 1).kind.toNat < 0x80 ∧
        (p.2 = 0 ∧ s.link.inbound.length < 4 ∨ p.2 = 1 ∧ 4 ≤ s.link.inbound.length ∧ answerRoom c = true ∨
         p.2 = 2 ∧ 4 ≤ s.link.inbound.length ∧ answerRoom c = false))) = true ∧ answerRoom (leaving 4 8) = false := by decide +kernel
theorem test_DiscardedFrameLeavesOnlyTheFlag : selected.pins.resetLow = false ∧ selected.link.inPeriod = true ∧
    selected.link.ignoring = false ∧ selected.link.gathered = [] ∧ (1 : Byte) ≠ 0 ∧ 1024 < 1025 ∧ 1025 < 65536 ∧
    (frame 1).body.length ≤ 1024 ∧ crcOf (frameHead (frame 1)) + 1 ≠ crcOf (frameHead (frame 1)) ∧
    selected.pins.linkSelLow = true ∧
    ({ selected with link := { selected.link with gathered := [1] } } : State).link.gathered ≠ [] := by decide +kernel
/-- The part with a partly sent frame, answers and notes. -/
def sendable (o : Option Outgoing) (answers : List Frame) (notes : List NoteEntry) : State :=
  { s0 with link := { s0.link with partly := o, answers := answers, notes := notes } }
theorem test_PeriodStartChoosesTheFrame : (∀ s ∈ [sendable (some ⟨none, frame 0x81, false⟩) [] [], sendable none [frame 0x81] [],
      sendable none [] [⟨.knob 0, none, false⟩], sendable none [] []], s.pins.resetLow = false ∧ s.pins.linkSelLow = false) ∧
    (sendable none [] [⟨.knob 0, none, false⟩]).link.notes = [⟨.knob 0, none, false⟩] := by decide
/-- The part sending a frame, with a list of notes. -/
def sending (o : Outgoing) (notes : List NoteEntry) : State :=
  { selected with link := { selected.link with sending := some o, answers := [frame 0x81], notes := notes } }
/-- The same with some bytes of the period clocked, the inbound side ignored or not. -/
def after (clocked : Clocked) (ignoring : Bool) (s : State) : State :=
  { s with link := { s.link with clocked := clocked, ignoring := ignoring } }
/-- Inbound bytes with which the frame's last byte is clocked, and the clocks of which one byte fewer leaves it partly sent. -/
theorem test_FrameLeavesOrIsSentAgain :
    [((sending ⟨none, frame 0x81, false⟩ [], 6) : State × Nat), (sending ⟨none, frame 0x81, true⟩ [], 6),
        (after ⟨5, 5⟩ true (sending ⟨none, frame 0x81, false⟩ []), 1), (after ⟨5, 0⟩ false (sending ⟨none, frame 0x81, false⟩ []), 6),
        (sending ⟨some .acq, frame 0x49, false⟩ [⟨.acq, some [], true⟩, ⟨.store, none, false⟩], 6)].all (fun p =>
      let s := p.1
      decide (s.pins.resetLow = false ∧ s.pins.linkSelLow = true ∧ s.link.inPeriod = true ∧ s.link.gathered = [] ∧
        List.replicate p.2 (0 : Byte) ≠ [] ∧ (List.replicate p.2 (0 : Byte)).head? = some 0) &&
      s.link.sending.any (fun o => decide (6 + o.frame.body.length ≤ s.link.clocked.taken + p.2) &&
        decide (Nat.max s.link.clocked.bytes (s.link.clocked.taken + (p.2 - 1)) < 6 + o.frame.body.length))) = true ∧
    (let s := sending ⟨some .acq, frame 0x49, false⟩ [⟨.acq, some [], true⟩, ⟨.store, none, false⟩]
     s.link.notes = ⟨.acq, some [], true⟩ :: [⟨.store, none, false⟩] ∧
     ∀ x ∈ [(⟨.store, none, false⟩ : NoteEntry)], x.src ≠ .acq) ∧ selected.link.sending = none := by
  decide +kernel
/-- 10_the_order_link.md, period 2 of the worked sequence: a note leaves while an order comes in, and the order is taken whole. -/
theorem test_note_beside_an_order :
    (match exec .frameSent (sending ⟨none, frame 0x81, false⟩ []) with
     | .next t => (match exec (.frameComplete (frameBytes ⟨1, 7, [9, 9]⟩)) t with
       | .next u => decide (t.link.clocked = ⟨6, 0⟩ ∧ t.link.answers = [] ∧ u.link.clocked = ⟨8, 8⟩ ∧ u.link.inbound = [⟨1, 7, [9, 9]⟩])
       | _ => false)
     | _ => false) = true := by decide +kernel
theorem test_OrderIsCheckedAtDispatch :
    (orderKinds.contains (0x08 : Byte).toNat = true ∧ permittedLen (0x08 : Byte).toNat (List.replicate 8 (0 : Byte)).length = false ∧
      Ready 0x08 7 (List.replicate 8 0) (ordered 0x08 (List.replicate 8 0) s0)) ∧
    (orderKinds.contains (0x3E : Byte).toNat = false ∧ Ready 0x3E 7 [] (ordered 0x3E [] s0)) ∧
    (orderKinds.contains (0x40 : Byte).toNat = false ∧ Ready 0x40 7 [] (ordered 0x40 [] s0)) ∧
    ((selectedWith 1 8).link.inbound.head? = some (frame 1) ∧ answerRoom (selectedWith 1 8) = false) := by decide
theorem test_IdentAndStateAnswers : Ready 0x01 7 [] (ordered 0x01 [] s0) ∧ Ready 0x02 7 [] (ordered 0x02 [] withDone) := by decide
/-- R186: jobs behind a head job that has not started, that has a step in flight, or that has none and has altered nothing; the
lock line of CH1 is low. -/
def restarting (running : Option Running) (step : Option FlashStep) : State :=
  { s0 with
    pins := { s0.pins with lock := ⟨false, true, true, true⟩ }
    store := { s0.store with scan := none, queue := [⟨.erase, 3⟩, ⟨.recall, 4⟩], running := running, step := step } }
theorem test_RestartAnswersAndClears : Ready 0x03 7 [] (ordered 0x03 [] s0) ∧
    [((none, none, true) : Option Running × Option FlashStep × Bool), (some ⟨.eraseSector, false, false⟩, none, true),
      (some ⟨.eraseSector, false, false⟩, some ⟨.eraseSector, 0, 0⟩, false), (some ⟨.eraseSector, true, false⟩, none, false),
      (some ⟨.classify (.refresh .failed) [], false, false⟩, none, false)].all (fun p =>
      let s := restarting p.1 p.2.1
      decide (Ready 0x03 7 [] (ordered 0x03 [] s) ∧ s.store.queue = ⟨.erase, 3⟩ :: [⟨.recall, 4⟩] ∧
        p.2.2 = (match p.1 with
          | none => true
          | some r => s.store.step.isNone && !r.altered && (match r.phase with | .classify (.refresh _) _ => false | _ => true)) ∧
        (s.setup.ch.get .ch1).on = true ∧ s.pins.lock.get .ch1 = false ∧ tabRising s.panel.keys = true)) = true := by decide
theorem test_PowerOrderMoves : Ready 0x3F 7 [3] (ordered 0x3F [3] s0) ∧
    (Ready 0x3F 7 [1] (ordered 0x3F [1] (powered .standby s0)) ∧ (powered .standby s0).power.state = .standby) ∧
    (Ready 0x3F 7 [0] (ordered 0x3F [0] s0) ∧ (0 : Byte) = s0.power.state.code) ∧
    (Ready 0x3F 7 [2] (ordered 0x3F [2] s0) ∧ (2 : Byte).toNat < 3 ∧ (2 : Byte) ≠ s0.power.state.code) ∧
    (Ready 0x3F 7 [1] (ordered 0x3F [1] s0) ∧ (1 : Byte) ≠ 2 ∧ s0.power.state ≠ .standby) := by decide
theorem test_ChangeStoresAndCounts : ({ Setup.default with tbase := 10 } : Setup) ≠ s0.setup ∧
    s0.setup.put (.chan .ch1 .color) (.number 5) ≠ s0.setup ∧ s0.setup.put (.dev .name) (.text []) ≠ s0.setup := by decide
theorem test_AcqChangeKeepsStoppedOrRearms : s0.acq.state = .stopped ∧ (inState .arming).acq.state ≠ .stopped ∧
    carriesAcq (inState .arming).setup { Setup.default with tbase := 10 } = true ∧
    carriesTrig (inState .arming).setup { Setup.default with tbase := 10 } = false ∧
    (inState .arming).acq.forcePending = false := by decide
theorem test_FieldSetStoresOneField :
    (let body : List Byte := [0, 1, 1, 0, 0, 0, 30]
     Ready 0x08 7 body (ordered 0x08 body s0) ∧ body.length = 7 ∧ fieldOfId (natAt body 0 2) = some (.dev .tbase) ∧
     offeredValue (.dev .tbase) body = some (.number 30) ∧
     acceptValue (.dev .tbase) (.number 30) = some (.number 29, true)) := by decide
theorem test_FieldSetRefusalChangesNothing :
    (let body : List Byte := [0, 0x80, 1, 0, 0, 0, 0]
     Ready 0x08 7 body (ordered 0x08 body s0) ∧ body.length = 7 ∧ fieldOfId (natAt body 0 2) = none) ∧
    (let body : List Byte := [0, 0x21, 1, 0, 0, 0, 0]
     Ready 0x08 7 body (ordered 0x08 body s0) ∧ fieldOfId (natAt body 0 2) = some (.dev .name) ∧
     (body.length = 19 ↔ Field.dev .name ≠ .dev .name)) ∧
    (let body : List Byte := [1, 0x10, 2, 0, 0, 0, 0]
     Ready 0x08 7 body (ordered 0x08 body s0) ∧ fieldOfId (natAt body 0 2) = some (.limit .ch1 .max .ha) ∧ body.length = 7 ∧
     2 ≤ (byteAt body 2).toNat) ∧
    (let body : List Byte := [1, 1, 1, 0, 0, 0, 2]
     Ready 0x08 7 body (ordered 0x08 body s0) ∧ fieldOfId (natAt body 0 2) = some (.chan .ch1 .on) ∧ body.length = 7 ∧
     (Field.chan .ch1 .on).kind = .coded 2 ∧ (2 : Int) ≤ intAt body 3 4) := by decide +kernel
theorem test_RecordIsReadBack :
    (Ready 0x09 7 [4, 1] (ordered 0x09 [4, 1] s0) ∧ fieldOfId (natOf [4, 1]) = some (.chan .ch4 .on)) ∧
    (Ready 0x09 7 [4, 0x81] (ordered 0x09 [4, 0x81] s0) ∧ natOf [4, 0x81] = 256 * Chan.ch4.num + 0x81) ∧
    natOf [0, 0x82] = 0x82 ∧ Ready 0x0A 7 [] (ordered 0x0A [] s0) ∧
    (Ready 0x09 7 [5, 1] (ordered 0x09 [5, 1] s0) ∧ fieldOfId (natOf [5, 1]) = none ∧
      natOf [5, 1] ∉ [0x80, 0x81, 0x82] ∧
      ∀ n ∈ Chan.all, natOf [5, 1] ≠ 256 * n.num + 0x80 ∧ natOf [5, 1] ≠ 256 * n.num + 0x81) := by decide
/-- An image of 512 bytes of 0, whose channel blocks are out of their ranges, and one with a code outside its set. -/
theorem test_SetupWriteAndDefault :
    (Ready 0x0B 7 (imageOf .default) (ordered 0x0B (imageOf .default) s0) ∧ (imageOf .default).length = 512 ∧
      (readImage (imageOf .default)).isOk = true) ∧
    ((2 :: List.replicate 511 (0 : Byte)).length = 512 ∧
      (match readImage (2 :: List.replicate 511 0) with | .error id => id == 0x101 | .ok _ => false) = true) ∧
    Ready 0x0C 7 [] (ordered 0x0C [] s0) := by decide +kernel
theorem test_setup_in_range : SetupInRange .default := by
  refine ⟨fun n f => ?_, fun f => ?_, fun n q t => ?_, by decide, by decide⟩
  · cases n <;> cases f <;> decide
  · cases f <;> decide
  · cases n <;> cases q <;> cases t <;> decide
theorem test_SetupImageRoundTrip : SetupInRange { Setup.default with depth := 4, name := ascii "BENCH A         " } := by
  obtain ⟨h1, h2, h3, _, _⟩ := test_setup_in_range
  refine ⟨h1, fun f => ?_, h3, by decide, by decide⟩
  cases f <;> first | exact h2 _ | decide
theorem test_DerivedValuesFollowTheRecord : 1000 ≤ 10000000 ∧ 29 ≤ 29 ∧ 4 ≤ 4 ∧ SetupInRange .default :=
  ⟨by decide, by decide, by decide, test_setup_in_range⟩
theorem test_OccurrencesAndLaneFlags : (∀ e ∈ s0.link.notes, e.src ≠ .acq) ∧
    (sendable none [] [⟨.panel, none, false⟩, ⟨.acq, some [], false⟩]).link.notes =
      [⟨.panel, none, false⟩] ++ ⟨.acq, some [], false⟩ :: [] ∧
    (∀ x ∈ [(⟨.panel, none, false⟩ : NoteEntry)] ++ [], x.src ≠ .acq) ∧
    ((s0.setup.ch.get .ch1).on && !false) = true ∧ ((s0.setup.ch.get .ch2).on && !false) = false := by decide
theorem test_FlagOrders : Ready 0x18 7 [] (ordered 0x18 [] s0) ∧ Ready 0x19 7 [] (ordered 0x19 [] s0) ∧
    (Ready 0x1A 7 [0, 0, 0, 0, 0, 0, 0, 0, 0, 8] (ordered 0x1A [0, 0, 0, 0, 0, 0, 0, 0, 0, 8] s0) ∧
      (byteAt [0, 0, 0, 0, 0, 0, 0, 0, 0, 8] 9).toNat % 16 ≠ 0) ∧
    (Ready 0x1A 7 (flagSetBytes (flagBit 75)) (ordered 0x1A (flagSetBytes (flagBit 75)) s0) ∧
      (flagSetBytes (flagBit 75)).length = 10) := by decide
theorem test_RunAndSingleStartOrSet :
    (Ready 0x10 7 [] (ordered 0x10 [] (powered .standby s0)) ∧ Ready 0x12 7 [] (ordered 0x12 [] (powered .standby s0))) ∧
    (∀ a ∈ [AcqState.arming, .waiting, .capturing, .held, .rolling, .stopped], let s := inState a
      Ready 0x10 7 [] (ordered 0x10 [] s) ∧ Ready 0x12 7 [] (ordered 0x12 [] s) ∧ s.power.state ≠ .standby ∧ s.acq.state = a) ∧
    (s0.setup.runmode = .repeats ∧ SegTableOk s0 ∧ s0.setup.rollConditions = false ∧ s0.acq.forcePending = false ∧
      bufferChoice { s0 with acq := { s0.acq with lastDone := none } } = 0 ∧ armWaits 0 s0.setup.geometry s0 = false) := by
  decide +kernel
theorem test_StopAndForceActByState :
    (Ready 0x11 7 [] (ordered 0x11 [] (powered .standby s0)) ∧ Ready 0x13 7 [] (ordered 0x13 [] (powered .standby s0))) ∧
    (∀ a ∈ [AcqState.arming, .waiting, .capturing, .held, .rolling, .stopped], let s := working a ⟨.ready, 0, some info⟩
      Ready 0x11 7 [] (ordered 0x11 [] s) ∧ Ready 0x13 7 [] (ordered 0x13 [] s) ∧ s.power.state ≠ .standby ∧ s.acq.state = a ∧
      (segAt s s.acq.cur).info = some info) ∧ info.geo.pre < info.geo.len := by decide
theorem test_HeldArmTakesItsBuffer : (inState .held).pins.resetLow = false ∧ (inState .held).acq.state = .held ∧
    (inState .held).raster.job = none ∧ (inState .held).acq.runKind = .repeats ∧ (inState .held).setup.rollConditions = false ∧
    (inState .held).acq.forcePending = false ∧ pinnedSeg s0 0 = false ∧ pendingSeg s0 0 = false := by decide
theorem test_PointIsWrittenAtItsPosition : ∀ a ∈ [AcqState.arming, .capturing],
    let s := working a ⟨.prefill, 0, some info⟩
    let codes := List.replicate 2 s0.pins.lanes
    s.pins.resetLow = false ∧ (segAt s s.acq.cur).info = some info ∧ (s.acq.cur + 1) * geo.size ≤ 67108864 ∧ s.acq.ivCount = 0 ∧
    s.acq.iv = .const IntervalChan.empty ∧ codes ≠ [] ∧ codes.length = geo.interval ∧
    (s.acq.state = .capturing ∧ geo.pre + s.acq.postCount < geo.len ∧ 2 = geo.pre + s.acq.postCount ∨
      s.acq.state = .arming ∧ s.acq.preCount < geo.pre ∧ 0 = s.acq.preCount) ∧
    s.acq.cur * geo.size + (2 + 1) * (chanCount geo.enabled * pointBytes geo.mode) ≤ 67108864 := by decide
/-- ARMING with its two points before the trigger written; WAITING under TMODE AUTO at the deadline. -/
def prefilled : State := { working .arming ⟨.prefill, 0, some info⟩ with
  acq := { (working .arming ⟨.prefill, 0, some info⟩).acq with preCount := 2 } }
/-- WAITING at tick 12,500,000, the auto deadline of 100 ms after tick 0. -/
def waitingAtDeadline : State := { working .waiting ⟨.ready, 0, some info⟩ with
  acq := { (working .waiting ⟨.ready, 0, some info⟩).acq with timeTag := 12500000 } }
theorem test_ReadyThenAutoTrigger :
    (prefilled.pins.resetLow = false ∧ prefilled.acq.state = .arming ∧ (segAt prefilled prefilled.acq.cur).info = some info ∧
      info.geo.pre ≤ prefilled.acq.preCount ∧ prefilled.acq.forcePending = false) ∧
    (waitingAtDeadline.pins.resetLow = false ∧ waitingAtDeadline.acq.state = .waiting ∧ waitingAtDeadline.setup.tmode = .auto ∧
      (segAt waitingAtDeadline waitingAtDeadline.acq.cur).info = some info ∧ info.geo.pre < info.geo.len ∧
      waitingAtDeadline.setup.tauto * 125000 ≤ (waitingAtDeadline.acq.timeTag - waitingAtDeadline.acq.readyTick).toNat) := by
  decide
/-- WAITING with the rising prime set, a last trigger 125 ticks ago, and a holdoff in µs. -/
def primed (holdoff : Nat) : State := { working .waiting ⟨.ready, 0, some info⟩ with
  setup := { Setup.default with holdoff := holdoff }
  acq := { (working .waiting ⟨.ready, 0, some info⟩).acq with risePrime := true, timeTag := 125, lastTrig := some 0 } }
theorem test_EdgeCrossingTriggers : ∀ h ∈ [1, 2], let s := primed h
    s.pins.resetLow = false ∧ s.acq.state = .waiting ∧ (segAt s s.acq.cur).info = some info ∧ info.geo.pre < info.geo.len ∧
    (s.acq.cur + 1) * info.geo.size ≤ 67108864 ∧ s.acq.ivCount < info.geo.interval ∧ autoOverdue s = false ∧
    s.setup.tsrc = .chan .ch1 ∧ levelCode s.setup .ch1 ≤ 128 ∧ s.setup.tslope ≠ .fall ∧ s.acq.risePrime = true ∧
    (h = 1 ∧ s.setup.holdoff * 125 ≤ (s.acq.timeTag - 0).toNat ∨ h = 2 ∧ (s.acq.timeTag - 0).toNat < s.setup.holdoff * 125) := by
  decide
/-- A single capture whose last point has been written, of a code of 0 in CH1, rejected for OVR or not. -/
def lastPoint (rejects : Bool) : State :=
  let s := working .capturing ⟨.filling, 0, some info⟩
  { s with
    setup := { Setup.default with
      recapture := 1
      ch := Setup.default.ch.set .ch1 { Setup.default.ch.c1 with reject := ⟨rejects, false, false, false⟩ } }
    acq := { s.acq with single := true, postCount := 2, points := [(0, .const ⟨0, 0, true⟩)] } }
theorem test_CaptureEndFinishesOrRecaptures : ∀ b ∈ [false, true], let s := lastPoint b
    s.pins.resetLow = false ∧ s.acq.state = .capturing ∧ (segAt s s.acq.cur).info = some info ∧
    info.geo.len ≤ info.geo.pre + s.acq.postCount ∧ s.acq.runKind = .repeats ∧ s.acq.single = true ∧
    info.geo.enabled.nonempty = true ∧ s.power.state ≠ .standby ∧ s.raster.list.length < 8 ∧
    rejectedBy s info.geo (flagSetsAt s info) = b ∧ info.attempts < s.setup.recapture ∧ s.acq.forcePending = false := by
  decide +kernel
/-- The roll geometry of CH1 with the columns of 2 ms of TBASE 21 (R39). -/
def rollInfo : SegInfo :=
  { info with geo := { geo with interval := 2000000, len := 500, pre := 0, size := 1000, mode := .peak, roll := true } }
/-- ROLLING, single with a number of columns left. -/
def rolling (left : Nat) : State :=
  let s := working .rolling ⟨.filling, 0, some rollInfo⟩
  { s with acq := { s.acq with runKind := .roll, single := true, columnsLeft := left } }
theorem test_ColumnsLeftZeroEnds : ∀ c ∈ [1, 0], let s := rolling c
    s.pins.resetLow = false ∧ s.acq.state = .rolling ∧ (segAt s s.acq.cur).info = some rollInfo ∧ rollInfo.geo.mode = .peak ∧
    s.acq.cur = 0 ∧ rollInfo.geo.size = 500 * (chanCount rollInfo.geo.enabled * 2) ∧
    s.acq.single = true ∧ (c = 1 ∧ 0 < s.acq.columnsLeft ∨ c = 0 ∧ s.acq.columnsLeft = 0) := by decide
theorem test_SegReadAndWaveReadOrders :
    (Ready 0x14 7 [1] (ordered 0x14 [1] withDone) ∧ (segAt withDone 1).info = none ∧ (segAt withDone 0).info.isSome = true) ∧
    (Ready 0x15 7 (List.replicate 12 0) (ordered 0x15 (List.replicate 12 0) s0) ∧ (segAt s0 0).state ≠ .done) ∧
    ((segAt withDone 0).state = .done ∧ (segAt withDone 0).serial = 1 ∧ (segAt withDone 0).serial ≠ 2 ∧ Chan.ofNum? 5 = none ∧
      geo.enabled.get .ch2 = false ∧ geo.enabled.get .ch1 = true ∧ 3 < geo.len ∧ geo.len ≤ 4 ∧ withDone.power.state ≠ .standby) ∧
    (let body : List Byte := [0, 0, 0, 0, 1, 1, 0, 0, 0, 3, 0, 9]
     Ready 0x15 7 body (ordered 0x15 body withDone) ∧ body.length = 12 ∧ (byteAt body 0).toNat = 0 ∧
     BitVec.ofNat 32 (natAt body 1 4) = (1 : Serial) ∧ natAt body 6 4 = 3 ∧ natAt body 10 2 = 9 ∧
     Chan.ofNum? (byteAt body 5).toNat = some .ch1) := by decide
/-- ACQ with a WAVE.READ of a serial of segment 0 reading. -/
def reading (ser : Serial) : State :=
  { withDone with acq := { withDone.acq with waves := [⟨7, 0, ser, .ch1, 1, 3, false⟩] } }
theorem test_WaveReadAnswersItsPoints : (reading 1).pins.resetLow = false ∧ (reading 1).acq.waves = [⟨7, 0, 1, .ch1, 1, 3, false⟩] ∧
    (segAt (reading 2) 0).serial ≠ 2 ∧ (segAt (reading 1) 0).state = .done ∧ (segAt (reading 1) 0).serial = 1 ∧
    (segAt (reading 1) 0).info.isSome = true ∧ (0 + 1) * geo.size ≤ 67108864 := by decide
/-- A part with a DONE segment and a draw list of some entries of a serial. -/
def listed (n : Nat) (ser : Serial) (set : PerChan Bool) : State :=
  { withDone with raster := { withDone.raster with list := List.replicate n ⟨0, ser, set, true, false⟩ } }
theorem test_DrawAndPlanesClearOrders :
    (∀ p ∈ [((0, 1, 1) : Byte × Byte × Nat), (16, 1, 1), (1, 2, 1), (15, 1, 8), (15, 1, 7)],
      let body : List Byte := [0, 0, 0, 0, p.2.1, p.1, 1]
      let s := listed p.2.2 1 (.const true)
      Ready 0x20 7 body (ordered 0x20 body s) ∧ body.length = 7 ∧ s.power.state ≠ .standby ∧ s.acq.state ≠ .rolling ∧
      (segAt s (byteAt body 0).toNat).state = .done) ∧
    (segAt s0 0).state ≠ .done ∧ Ready 0x20 7 (List.replicate 7 1) (ordered 0x20 (List.replicate 7 1) (powered .standby s0)) ∧
    (∀ b ∈ [(0 : Byte), 16, 15], Ready 0x21 7 [b] (ordered 0x21 [b] s0)) := by decide
theorem test_DrawJobStartPinsAndFixesItsValues : ∀ p ∈ [((2, .const true) : Serial × PerChan Bool),
      (1, ⟨false, true, false, false⟩), (1, .const true)],
    let s := listed 1 p.1 p.2
    s.pins.resetLow = false ∧ s.acq.state ≠ .held ∧ s.raster.job = none ∧ s.raster.list = [⟨0, p.1, p.2, true, false⟩] ∧
    (segAt s 0).state = .done ∧ (segAt s 0).info.isSome = true ∧
    (p.1 = 2 ∧ (segAt s 0).serial ≠ p.1 ∨
      (segAt s 0).serial = p.1 ∧ (p.2.c1 = false ∧ (PerChan.ofFn (fun n => p.2.get n && geo.enabled.get n)).members = [] ∨
        p.2.c1 = true ∧ (PerChan.ofFn (fun n => p.2.get n && geo.enabled.get n)).members ≠ [])) := by decide
/-- A job of CH1 at a column. -/
def drawing (col : Nat) : State :=
  { withDone with raster := { withDone.raster with
      job := some ⟨0, 1, 0, 4, geo.enabled, [.ch1], col, 255, .vectors, .const ⟨0, 1024⟩⟩ } }
theorem test_DrawColumnHitsItsPixels : ∀ c ∈ [0, 499], let s := drawing c
    s.pins.resetLow = false ∧ s.raster.job.map DrawJob.todo = some [.ch1] ∧ (segAt s 0).info.isSome = true ∧
    (0 + 1) * geo.size ≤ 67108864 := by decide
theorem test_RowsAndSpansOfARecord : 500 ≤ rollInfo.geo.len ∧ 499 < 500 ∧ 0 < geo.len ∧ 3 < geo.len ∧ 3 * 500 / geo.len = 375 := by
  decide
/-- The part at the tick of the next frame event. -/
def atFrame : State := { s0 with acq := { s0.acq with timeTag := 2083333 } }
theorem test_FrameEventTakesValuesAndDecays : atFrame.pins.resetLow = false ∧ atFrame.compose.frameTimer = some (0, 0) ∧
    atFrame.acq.timeTag = 0 + BitVec.ofNat 48 ((0 + 1) * 6250000 / 3) ∧ 1 ≤ 255 ∧ 255 ≤ 255 ∧
    tabRising [((0 : Nat), (255 : Byte))] = true ∧ 399 < 400 := by decide
theorem test_CursorPaletteAndScreenOrders :
    [((100, 0) : Byte × Byte), (0, 30), (99, 29)].all (fun p =>
      decide (Ready 0x23 7 [p.1, p.2] (ordered 0x23 [p.1, p.2] s0))) ∧
    Ready 0x24 7 [] (ordered 0x24 [] s0) ∧ Ready 0x25 7 [] (ordered 0x25 [] s0) ∧
    [((16, 1) : Byte × Byte), (0, 0), (15, 2), (15, 1)].all (fun p =>
      decide (Ready 0x27 7 (p.1 :: p.2 :: [1, 2, 3]) (ordered 0x27 (p.1 :: p.2 :: [1, 2, 3]) s0))) ∧
    s0.compose.palette.length = 16 ∧
    [(0 : Byte), 1, 2, 3].all (fun m => decide (Ready 0x28 7 [m] (ordered 0x28 [m] s0))) := by decide +kernel
/-- The part with rows 0 and 29 the processor's and the cursor at a cell. -/
def unowned (p : CellPos) (owned : Bool) : State :=
  { s0 with compose := { s0.compose with cursor := p, owned := owned, text := [] } }
theorem test_TextPutAndErase :
    [((16, 0x41, true, 50) : Byte × Byte × Bool × Nat), (5, 0x90, true, 50), (5, 0x41, true, 99), (15, 0x8F, false, 99),
        (15, 0x20, true, 50)].all (fun p =>
      let s := unowned ⟨p.2.2.2, 1⟩ p.2.2.1
      decide (Ready 0x22 7 (p.1 :: [p.2.1]) (ordered 0x22 (p.1 :: [p.2.1]) s) ∧
        100 * s.compose.cursor.row + s.compose.cursor.col < 3000)) ∧
    ((2899 + 1) % 3000 = 2900 ∧ 100 ≤ (150 + 0) % 3000 ∧ (150 + 0) % 3000 < 2900) ∧
    [((100, 0, 1, 1) : Byte × Byte × Byte × Byte), (0, 0, 0, 1), (99, 29, 1, 1), (0, 1, 100, 28)].all (fun p =>
      let body : List Byte := [p.1, p.2.1, p.2.2.1, p.2.2.2]
      decide (Ready 0x26 7 body (ordered 0x26 body (unowned ⟨0, 0⟩ true)))) ∧
    tabRising (unowned ⟨0, 0⟩ true).compose.text = true := by
  decide +kernel
/-- The part with key 5 bound to an action, 15 events in the FIFO. -/
def bound (a : KeyAction) : State :=
  { s0 with panel := { s0.panel with
      bindings := [(5, ⟨a, true⟩)], fifo := List.replicate 15 ⟨1, .press, false, 0⟩ } }
theorem test_PressIsReportedAndActs :
    (s0.pins.resetLow = false ∧ s0.power.state = .on ∧ (keyAt s0 5).down = false ∧ bindingOf s0 5 = none ∧
      s0.panel.fifo.length < 16) ∧
    (∀ a ∈ [KeyAction.runstop, .chan .ch4, .clear, .nothing], let s := bound a
      s.power.state = .on ∧ (keyAt s 5).down = false ∧ s.panel.lock = false ∧ bindingOf s 5 = some ⟨a, true⟩ ∧ a ≠ .wake ∧
      s.panel.fifo.length < 16) ∧
    (let s := { bound .clear with panel := { (bound .clear).panel with lock := true } }
     s.panel.lock = true ∧ bindingOf s 5 = some ⟨.clear, true⟩ ∧ KeyAction.clear ≠ .wake) := by decide
theorem test_PowerStateMovesOfThePanel :
    (∀ p ∈ [PowerState.dark, .standby, .on], let s := powered p (bound .wake)
      s.pins.resetLow = false ∧ (keyAt s 5).down = false ∧ s.power.state = p ∧ bindingOf s 5 = some ⟨.wake, true⟩) ∧
    bindingOf (powered .standby s0) 5 = none ∧
    (let s := { s0 with acq := { s0.acq with timeTag := 7500000000 }, panel := { s0.panel with idleMinutes := 1 } }
     s.power.state = .on ∧ s.panel.idleMinutes ≠ 0 ∧
     s.panel.idleMinutes * 7500000000 ≤ (s.acq.timeTag - s.panel.idleStart).toNat) := by decide
/-- Key 5 held down, reported or not, with its repeat deadline at tick 0. -/
def heldKey (reported : Bool) : State :=
  { bound .runstop with panel := { (bound .runstop).panel with keys := [(5, ⟨true, 0, reported, some 0⟩)] } }
theorem test_ReleasesAndRepeats : (∀ b ∈ [true, false], let s := heldKey b
      s.pins.resetLow = false ∧ s.power.state ≠ .standby ∧ (keyAt s 5).down = true ∧ s.panel.fifo.length < 16 ∧
      (keyAt s 5).reported = b) ∧
    (let s := heldKey true
     bindingOf s 5 = some ⟨.runstop, true⟩ ∧ (keyAt s 5).deadline = some 0 ∧ (s.acq.timeTag - 0).toNat < 2 ^ 47) := by decide
/-- The part with knob 2 bound to the timebase, a batch in flight and some steps gathered. -/
def batching (steps : Int) : State :=
  { s0 with panel := { s0.panel with
      knobs := [(2, { Knob.cold with steps := steps, inFlight := true, binding := some ⟨.dev .tbase, .step125⟩ })] } }
theorem test_DetentsAndBatches : (s0.pins.resetLow = false ∧ s0.power.state = .on ∧ (knobAt s0 2).binding = none) ∧
    (powered .standby s0).power.state = .standby ∧
    (let s := { batching 0 with panel := { (batching 0).panel with lock := true } }
     s.power.state = .on ∧ s.panel.lock = true ∧ (knobAt s 2).binding ≠ none) ∧
    ((batching 0).panel.lock = false ∧ (knobAt (batching 0) 2).binding = some ⟨.dev .tbase, .step125⟩ ∧
      (knobAt (batching 0) 2).inFlight = true ∧ (knobAt (batching 0) 2).steps = 0 ∧ (knobAt (batching 1) 2).steps ≠ 0) := by
  decide
/-- The part with a full binding table. -/
def fullTable : State := { s0 with panel := { s0.panel with bindings := (List.range 16).map (fun k => (k, ⟨.clear, false⟩)) } }
theorem test_PanelBindingOrders :
    (∀ b ∈ [([64, 0, 0, 0] : List Byte), [0, 10, 0, 0], [0, 4, 5, 0], [0, 7, 32, 0], [63, 9, 0, 1], [0, 0xFF, 0, 0]],
      Ready 0x2C 7 b (ordered 0x2C b s0)) ∧
    (bindingOf fullTable 63 = none ∧ 16 ≤ fullTable.panel.bindings.length ∧ bindingOf fullTable 15 ≠ none ∧
      actionOf 9 0 = some .wake ∧ s0.panel.bindings.length < 16) ∧
    (∀ b ∈ [([8, 0, 0, 0, 0, 0, 0, 0] : List Byte), [7, 0, 3, 3, 0, 0, 0, 1], [7, 0, 1, 2, 0, 0, 0, 0], [7, 0, 1, 1, 0, 0, 0, 0],
        [7, 0, 0, 0, 0, 0, 0, 0]],
      Ready 0x2D 7 b (ordered 0x2D b s0)) ∧
    ((fieldOfId 3).bind targetRules = none ∧ fieldOfId 1 = some (.dev .tbase) ∧
      targetRules (.dev .tbase) = some (true, false) ∧ ruleOf (true, false) 2 0 = none ∧
      ruleOf (true, false) 1 0 = some .step125) := by decide
theorem test_PanelWritesAndReads :
    (∀ b ∈ [([0, 5, 0] : List Byte), [0, 4, 9], [32, 1, 0], [0xFF, 4, 0], [31, 4, 8], [0xFF, 3, 0]],
      Ready 0x2E 7 b (ordered 0x2E b s0)) ∧
    lampModeOf 4 8 = some (.follow .power) ∧ lampModeOf 3 0 = some (.plain .fast) ∧
    (∀ b ∈ [(2 : Byte), 0, 1], Ready 0x2F 7 [b] (ordered 0x2F [b] s0)) ∧
    (∀ b ∈ [(241 : Byte), 240], Ready 0x30 7 [b] (ordered 0x30 [b] s0)) ∧
    Ready 0x31 7 [] (ordered 0x31 [] s0) ∧ Ready 0x32 7 [] (ordered 0x32 [] s0) ∧ tabRising s0.panel.knobs = true := by decide
/-- STORE ready, with a directory and a number of jobs. -/
def stored (dir : List (Nat × DirEntry)) (jobs : Nat) : State :=
  { s0 with store := { s0.store with
      dir := dir, scan := none, step := none, queue := List.replicate jobs ⟨.recall, 1⟩ } }
theorem test_StoreOrdersQueueOneJob :
    (∀ p ∈ [((0x36, [32]) : Byte × List Byte), (0x36, 31 :: List.replicate 16 0x1F), (0x37, [31]), (0x38, [31]), (0x39, [31, 1]),
        (0x39, [31, 0])],
      Ready p.1 7 p.2 (ordered p.1 p.2 s0) ∧ Ready p.1 7 p.2 (ordered p.1 p.2 (stored [] 3))) ∧
    s0.store.scan ≠ none ∧ (stored [] 3).store.scan = none ∧ (stored [] 3).store.queue.length < 4 ∧
    4 ≤ (stored [] 4).store.queue.length ∧ dirAt (stored [] 3) 31 = .unknown ∧
    dirAt (stored [(31, .valid true 1 [])] 0) 31 = .valid true 1 [] ∧ dirAt (stored [(31, .empty)] 0) 31 = .empty ∧
    dirAt (stored [(31, .corrupt)] 0) 31 = .corrupt := by decide
/-- The part with the store bus in a state. -/
def onBus (b : BusState) (s : State) : State := { s with store := { s.store with bus := b } }
theorem test_BusOrdersAndSlotList : (∀ b ∈ [BusState.owned, .lending, .lent],
      Ready 0x3B 7 [] (ordered 0x3B [] (onBus b s0)) ∧ Ready 0x3C 7 [] (ordered 0x3C [] (onBus b s0)) ∧
      (onBus b s0).store.bus = b) ∧ s0.store.step ≠ none ∧ (stored [] 0).store.step = none ∧
    (stored [] 0).store.running = none ∧ Ready 0x3A 7 [] (ordered 0x3A [] s0) := by decide
/-- STORE about to start a job on a slot whose entry is known. -/
def starting (k : JobKind) (e : DirEntry) : State :=
  { s0 with store := { s0.store with dir := [(3, e)], scan := none, step := none, queue := [⟨k, 3⟩] } }
theorem test_JobStartMakesItsCheck : ∀ p ∈ [((.erase, .valid true 1 []) : JobKind × DirEntry), (.protect true, .valid true 1 []),
      (.protect false, .valid false 1 []), (.protect true, .empty), (.protect false, .corrupt), (.recall, .empty),
      (.protect false, .valid true 1 []), (.save [] [], .empty), (.protect true, .valid false 1 [])],
    let s := starting p.1 p.2
    s.pins.resetLow = false ∧ s.store.running = none ∧ s.store.scan = none ∧ s.store.bus = .owned ∧ s.store.step = none ∧
    s.store.queue = [⟨p.1, 3⟩] ∧ dirAt s 3 = p.2 := by decide
/-- STORE with a step of a running job in flight. -/
def stepping (k : JobKind) (p : JobPhase) (kind : StepKind) : State :=
  { s0 with store := { s0.store with
      scan := none, queue := [⟨k, 3⟩], running := some ⟨p, false, false⟩, step := some ⟨kind, 0, 0⟩ } }
theorem test_SaveAndEraseRunTheirSteps :
    ∀ p ∈ [((.save [] [], .saveErase, .eraseSector) : JobKind × JobPhase × StepKind), (.erase, .eraseSector, .eraseSector),
        (.save [] [], .saveBody1, .programPage []), (.save [] [], .saveBody2, .programPage []),
        (.save [] (ascii "BENCH A         "), .saveHeader, .programPage (headerPage 3 24 (ascii "BENCH A         ") []))],
      let s := stepping p.1 p.2.1 p.2.2
      s.pins.resetLow = false ∧ s.store.scan = none ∧ s.store.bus = .owned ∧ s.store.queue = [⟨p.1, 3⟩] ∧
      s.store.step = some ⟨p.2.2, 0, 0⟩ ∧ s.store.running = some ⟨p.2.1, false, false⟩ ∧ (s.acq.timeTag - 0).toNat ≤ 625000 := by
  decide +kernel
theorem test_save_header : (headerPage 3 24 (ascii "BENCH A         ") []).take 27 =
    [0x4D, 0x47, 0x53, 0x55, 0x01] ++ be 1 3 ++ [0xFF] ++ be 4 (24 : Count).toNat ++ ascii "BENCH A         " ∧
    (ascii "BENCH A         ").length = 16 := by decide
/-- The scan at a slot with some pages read. -/
def scanning (slot : Nat) (pages : List (List Byte)) : State :=
  { s0 with store := { s0.store with scan := some ⟨slot, pages, false⟩, step := some ⟨.readPage, 0, 0⟩ } }
theorem test_ReadsClassifyTheSlot :
    (∀ s ∈ [scanning 0 [], scanning 30 [[], []], scanning 31 [[], []], stepping .recall (.classify .recall [[], []]) .readPage],
      s.pins.resetLow = false ∧ s.store.bus = .owned ∧ s.store.step = some ⟨.readPage, 0, 0⟩ ∧
      (s.acq.timeTag - 0).toNat ≤ 125000) ∧
    classifySlot 3 [] [] = .empty ∧ classifySlot 3 (slotMarker ++ [2]) [] = .corrupt ∧
    (match classifySlot 3 (headerPage 3 24 (ascii "BENCH A         ") (imageOf .default)) (imageOf .default) with
      | .valid false q n => decide (q = 24 ∧ n = ascii "BENCH A         ") | _ => false) = true := by decide +kernel
theorem test_StepTimeoutFailsTheJob :
    ∀ s ∈ [scanning 30 [], stepping .recall (.classify .recall []) .readPage, stepping .erase (.classify (.refresh .failed) []) .readPage,
        stepping .erase .eraseSector .eraseSector],
      (let s := { s with acq := { s.acq with timeTag := 50000000 } }
       s.pins.resetLow = false ∧ s.store.bus = .owned ∧ s.store.step.isSome = true ∧ timedOut s = true) := by decide

/-! ## Witnesses of the further clauses of those statements -/

/-- The part one nanosecond before a tick begins. -/
def lastNs (tag : Tick) : State := { s0 with acq := { s0.acq with timeTag := tag, nsPhase := 7 } }
theorem test_ScansFallAsTicksBegin :
    [((0, false, false) : Tick × Bool × Bool), (15624, true, false), (124999, true, true)].all (fun p =>
      let t := takeCode (lastNs p.1) s0.pins.lanes
      let ticks := t.acq.wraps * 2 ^ 48 + t.acq.timeTag.toNat
      decide (t.acq.nsPhase = 0 ∧ (ticks % 15625 = 0 ↔ p.2.1 = true) ∧ (ticks % 125000 = 0 ↔ p.2.2 = true))) = true ∧
    (lastNs 0).acq.nsPhase < 8 ∧
    (let t := takeCode (lastNs 0xFFFFFFFFFFFF) s0.pins.lanes
     t.acq.timeTag = 0 ∧ t.acq.wraps = 1 ∧ (t.acq.wraps * 2 ^ 48 + t.acq.timeTag.toNat) % 15625 ≠ 0) := by decide
theorem test_no_scan_in_an_interval : (∀ s : State, s.acq.nsPhase = 0 → NoScanFalls 2 s) ∧
    (working .capturing ⟨.filling, 0, some info⟩).acq.nsPhase = 0 ∧ (rolling 1).acq.nsPhase = 0 ∧
    ¬ NoScanFalls 1 (lastNs 15624) :=
  ⟨fun s h => ⟨by omega, fun j h1 h2 hm => by omega⟩, rfl, rfl, fun h => h.2 1 (by decide) (by decide) (by decide) (by decide)⟩
theorem test_NotesAndAttn :
    (sending ⟨none, frame 0x81, false⟩ []).link.answers = [frame 0x81] ∧
    attnLow (sending ⟨none, frame 0x81, false⟩ []) = true ∧ attnLow s0 = false ∧
    linkOut (sending ⟨none, frame 0x81, false⟩ []) = some 0x81 ∧ linkOutBit (sending ⟨none, frame 0x81, false⟩ []) 0 = some true ∧
    linkOut (after ⟨6, 6⟩ true (sending ⟨none, frame 0x81, false⟩ [])) = some 0 ∧ linkOut s0 = none ∧
    (0 : Nat) < 6 + (frame 0x81).body.length ∧ ¬ 6 < 6 + (frame 0x81).body.length ∧
    (let s := { sendable none [] [⟨.acq, some [], false⟩] with
        link := { (sendable none [] [⟨.acq, some [], false⟩]).link with sending := some ⟨some .acq, frame 0x49, false⟩ } }
     s.link.sending = some ⟨some .acq, frame 0x49, false⟩ ∧ s.link.answers = [] ∧ s.link.notes = [⟨.acq, some [], false⟩]) := by
  decide +kernel
theorem test_TrigChangeActsAtOnce : [((100, true) : Nat × Bool), (101, false)].all (fun p =>
      let s : State := { waitingAtDeadline with setup := { Setup.default with tauto := 1000 } }
      let u : Setup := { Setup.default with tauto := p.1 }
      decide (carriesAcq s.setup u = false ∧ carriesTrig s.setup u = true ∧ s.acq.state = .waiting ∧ u.tmode = .auto ∧
        s.setup.tauto ≠ u.tauto ∧ (u.tauto * 125000 ≤ (s.acq.timeTag - s.acq.readyTick).toNat ↔ p.2 = true) ∧
        (segAt s s.acq.cur).info = some info)) = true ∧ info.geo.pre < info.geo.len ∧
    carriesTrig Setup.default { Setup.default with tslope := .fall } = true ∧
    carriesAcq Setup.default { Setup.default with tslope := .fall } = false := by decide +kernel
/-- A part with a setup. -/
def setupOf (u : Setup) (s : State) : State := { s with setup := u }
theorem test_SegmentedRunAndRollStart :
    [({ Setup.default with runmode := .segmented } : Setup), { Setup.default with roll := true, tbase := 21 }].all (fun u =>
      let s := setupOf u withDone
      decide (Ready 0x10 7 [] (ordered 0x10 [] s) ∧ Ready 0x12 7 [] (ordered 0x12 [] s) ∧ s.power.state ≠ .standby ∧
        s.acq.state = .stopped ∧ SegTableOk s ∧ s.raster.job = none ∧ s.acq.forcePending = false ∧
        (s.setup.runmode = .segmented ∨ s.setup.runmode = .repeats ∧ s.setup.roll = true ∧ 21 ≤ s.setup.tbase))) = true := by
  decide +kernel
/-- ROLLING with a wrapped window and some columns counted. -/
def wrapped (count : Nat) : State :=
  { rolling 3 with
    acq := { (rolling 3).acq with rollCount := count }
    raster := { Raster.cold with writeCol := count % 500, wrapped := decide (500 ≤ count) } }
theorem test_StopInRollKeepsTheRecord : [499, 500].all (fun n => let s := wrapped n
      decide (Ready 0x11 7 [] (ordered 0x11 [] s) ∧ s.power.state ≠ .standby ∧ s.acq.state = .rolling ∧ s.acq.cur = 0 ∧
        (segAt s 0).info = some rollInfo)) = true ∧ RasterOk (wrapped 500) := by
  refine ⟨by decide, fun n => ?_, by decide, fun j h => ?_⟩
  · cases n <;> exact ⟨rfl, by simp [wrapped, Raster.cold, PerChan.get]⟩
  · simp [wrapped, Raster.cold] at h
/-- A SEGMENTED run of the default setup whose segment 0 has all its points, of code 0 in CH1 with OVR. -/
def segmentedRun (rejects : Bool) : State :=
  let u := { Setup.default with
    runmode := .segmented, segcount := 4
    ch := Setup.default.ch.set .ch1 { Setup.default.ch.c1 with reject := ⟨rejects, false, false, false⟩ } }
  { s0 with
    setup := u
    acq := { Acq.cold with
      state := .capturing, runKind := .segmented, postCount := u.geometry.len - u.geometry.pre
      segs := [(0, ⟨.filling, 0, some { info with geo := u.geometry }⟩)], prevLayout := some u.geometry.layout
      points := [(0, .const ⟨0, 0, true⟩)] } }
theorem test_SegmentedRunGoesOn : [true, false].all (fun b =>
      let s := segmentedRun b
      let g := s.setup.geometry
      let i := { info with geo := g }
      decide (s.pins.resetLow = false ∧ s.acq.state = .capturing ∧ (segAt s s.acq.cur).info = some i ∧
        g.len ≤ g.pre + s.acq.postCount ∧ s.acq.runIndex = s.acq.cur ∧ s.acq.cur + 1 < g.nEff ∧ 0 < g.pre ∧
        rejectedBy s g (flagSetsAt s i) = b ∧ s.setup.recapture ≤ i.attempts ∧ s.setup.stoprej = false ∧
        SegTableOk s ∧ s.raster.job = none ∧ s.acq.prevLayout = some g.layout)) = true ∧
    ∀ k r j, segAt (segmentedRun true) k = r → r.info = some j →
      k ≤ (segmentedRun true).acq.cur ∧ j.geo.size = (segmentedRun true).setup.geometry.size := by
  refine ⟨by decide +kernel, fun k r j hr hj => ?_⟩
  subst hr
  by_cases h : 0 = k
  · subst h
    exact ⟨Nat.zero_le _, by rw [← Option.some.inj hj]; rfl⟩
  · have hk : segAt (segmentedRun true) k = .free 0 := by simp [segAt, segmentedRun, tabGet, tabGet?, h]
    rw [hk] at hj; cases hj
/-- READY with a whole interval taken, and a number of points before the trigger. -/
def ringReady (pre : Nat) : State :=
  let s := working .waiting ⟨.ready, 0, some { info with geo := { geo with pre := pre } }⟩
  { s with acq := { s.acq with ivCount := 2, preCount := 5 } }
theorem test_RingIsWrittenWhileReady : [0, 2].all (fun p => let s := ringReady p
      decide (s.pins.resetLow = false ∧ s.acq.state = .waiting ∧ (segAt s s.acq.cur).info.isSome = true ∧
        (s.acq.cur + 1) * geo.size ≤ 67108864 ∧ 0 < s.acq.ivCount ∧ geo.interval ≤ s.acq.ivCount)) = true ∧
    (0 * geo.size + 5 % 2 * (chanCount geo.enabled * pointBytes geo.mode)) + 1 ≤ 67108864 := by decide
/-- The three endings of a run at a capture end. -/
theorem test_CaptureEndReportsToMon :
    [((.repeats, true, false, false) : RunKind × Bool × Bool × Bool), (.segmented, false, false, true), (.repeats, false, true, true)].all
      (fun p =>
        let s := { lastPoint p.2.2.2 with
          setup := { (lastPoint p.2.2.2).setup with recapture := 0, stoprej := p.2.2.1 }
          acq := { (lastPoint p.2.2.2).acq with
            runKind := p.1, single := p.2.1, segs := [(0, ⟨.filling, 0, some { info with geo := { geo with nEff := 1 } }⟩)] } }
        decide (s.pins.resetLow = false ∧ s.acq.state = .capturing ∧ (segAt s s.acq.cur).info.isSome = true ∧
          geo.len ≤ geo.pre + s.acq.postCount ∧ rejectedBy s geo (flagSetsAt s { info with geo := { geo with nEff := 1 } }) = p.2.2.2 ∧
          s.setup.recapture ≤ info.attempts ∧
          (s.acq.runKind = .repeats ∧ s.acq.single = true ∨ s.acq.runKind = .segmented ∧ 1 ≤ s.acq.cur + 1 ∨
            s.acq.runKind ≠ .idle ∧ p.2.2.2 = true ∧ s.setup.stoprej = true))) = true := by decide +kernel
theorem test_RollColumnIsWrittenAndDrawn :
    (let s := { rolling 3 with acq := { (rolling 3).acq with ivCount := 2000000, rollCount := 499 } }
     s.pins.resetLow = false ∧ s.acq.state = .rolling ∧ s.acq.cur = 0 ∧ (segAt s s.acq.cur).info = some rollInfo ∧
     rollInfo.geo.mode = .peak ∧ rollInfo.geo.size = 500 * (chanCount rollInfo.geo.enabled * 2) ∧
     (s.acq.cur + 1) * rollInfo.geo.size ≤ 67108864 ∧ 0 < s.acq.ivCount ∧ rollInfo.geo.interval ≤ s.acq.ivCount ∧
     captureExists s = true) ∧
    (captureExists s0 = true ∧ s0.acq.state ≠ .rolling) ∧
    (captureExists (rolling 3) = true ∧ (rolling 3).acq.state = .rolling ∧ (rolling 3).acq.ivCount = 0) := by decide
theorem test_MapChangeClearsAndRedraws :
    (∀ u ∈ [({ Setup.default with persist := .infinite } : Setup),
        { Setup.default with ch := Setup.default.ch.set .ch1 { Setup.default.ch.c1 with pos := 5 } }],
      carriesAcq s0.setup u = false ∧ carriesTrig s0.setup u = false ∧
      (s0.setup.persist ≠ u.persist ∨ (s0.setup.ch.get .ch1).pos ≠ (u.ch.get .ch1).pos)) ∧
    ((drawing 3).acq.state = .stopped ∧ (drawing 3).raster.job.any (fun j => j.draws.get .ch1) = true ∧
      (∀ e ∈ (drawing 3).raster.list, e.automatic = false)) ∧
    (∃ e ∈ (({ withDone with raster := { withDone.raster with list := [⟨0, 1, .const true, true, true⟩] } } : State)).raster.list,
      e.automatic = true) ∧
    (({ withDone with raster := { withDone.raster with view := some (0, 1) } } : State)).raster.view = some (0, 1) := by
  refine ⟨by decide +kernel, by decide, ⟨_, List.mem_singleton.mpr rfl, rfl⟩, rfl⟩
theorem test_SpansAreInterpolated : 0 < geo.len ∧ geo.len < 500 ∧ (geo.len - 1) * 500 / geo.len = 375 ∧ 374 < 375 ∧ 375 < 376 ∧
    (499 - 1) * 500 / 499 = 498 := by decide
theorem test_FramePixelsAreSentInOrder : s0.compose.frameTimer ≠ none ∧ s0.power.state = .on ∧
    [(1 : Byte), 2].all (fun b => decide (Ready 0x3F 7 [b] (ordered 0x3F [b] s0))) = true ∧
    (powered .dark { s0 with compose := { s0.compose with frameTimer := none } }).compose.frameTimer = none := by decide
/-- The first and last pixel of the window, and the pixels beside it; a window pixel of the graticule frame. -/
theorem test_LayersFormThePixel :
    [((40, 40, true) : Nat × Nat × Bool), (539, 439, true), (39, 40, false), (540, 439, false), (40, 440, false)].all
      (fun p => decide (decide (40 ≤ p.1 ∧ p.1 < 540 ∧ 40 ≤ p.2.1 ∧ p.2.1 < 440) = p.2.2)) = true ∧
    cursorLit s0.compose.frame 0 0 = false ∧ gratLit .frame 0 0 = true ∧ gratLit .full 50 5 = true ∧
    gratLit .blank 0 0 = false ∧ (cellAt s0.compose.text 500).code = 0x20 := by decide +kernel
/-- The actions of a bound key that act as orders, in states where they are taken and refused. -/
theorem test_PressActsAsTheOrder :
    [KeyAction.single, .force, .defaults, .save 31, .save 32, .recall 31, .recall 32].all (fun a => let s := bound a
      decide (s.pins.resetLow = false ∧ s.power.state = .on ∧ (keyAt s 5).down = false ∧ s.panel.lock = false ∧
        bindingOf s 5 = some ⟨a, true⟩ ∧ s.panel.fifo.length < 16)) = true ∧
    (bound .force).acq.state = .stopped ∧ (stored [] 3).store.queue.length < 4 ∧ 4 ≤ (stored [] 4).store.queue.length ∧
    dirAt (stored [(31, .valid true 1 [])] 0) 31 = .valid true 1 [] ∧ dirAt (stored [(31, .corrupt)] 0) 31 = .corrupt ∧
    dirAt (stored [(31, .empty)] 0) 31 = .empty ∧ dirAt (stored [] 0) 31 = .unknown := by decide
/-- Key 5 in a debounced state after some contrary scans, its switch closed or open. -/
def scanned (down : Bool) (count : Nat) (closed : Bool) : State :=
  { s0 with
    pins := { s0.pins with keys := if closed then BitVec.twoPow 64 5 else 0 }
    panel := { s0.panel with keys := [(5, ⟨down, count, false, none⟩)] } }
theorem test_ScanOfAKey :
    [((false, 3, true) : Bool × Nat × Bool), (true, 3, false), (false, 2, true), (false, 3, false)].all (fun p =>
      let s := scanned p.1 p.2.1 p.2.2
      decide (s.pins.keys.getLsbD 5 = p.2.2 ∧ (keyAt s 5).down = p.1 ∧ (keyAt s 5).count = p.2.1 ∧ s.pins.resetLow = false)) = true := by
  decide
/-- Knob 2 bound, with no batch in flight and some steps gathered. -/
def offering (steps : Int) : State :=
  { s0 with panel := { s0.panel with
      knobs := [(2, { Knob.cold with steps := steps, binding := some ⟨.dev .tbase, .step125⟩ })] } }
theorem test_DetentOffersABatchOrWakes :
    ([((0, 1) : Int × Int), (-1, 0)].all (fun p => let s := offering p.1
      decide (s.power.state = .on ∧ s.panel.lock = false ∧ (knobAt s 2).binding = some ⟨.dev .tbase, .step125⟩ ∧
        (knobAt s 2).inFlight = false ∧ max (-32767) (min 32767 ((knobAt s 2).steps + 1)) = p.2)) = true) ∧
    (powered .dark s0).power.state = .dark ∧ s0.pins.resetLow = false := by decide
/-- R149: a turn of a knob in each direction, a level met once, and both lines changing together. -/
theorem test_SampleOfAKnob :
    ((sampleKnob { Knob.cold with a := true, b := false, rawA := true, rawB := true, quarter := 3 } true true).2 = some .clockwise ∧
     (sampleKnob { Knob.cold with a := false, b := true, rawA := true, rawB := true, quarter := -3 } true true).2 =
       some .anticlockwise ∧
     (sampleKnob { Knob.cold with a := true, b := false, rawA := true, rawB := true, quarter := 2 } true true).2 = none) ∧
    (let x : Knob := { Knob.cold with a := true, b := true, rawA := false, rawB := true, quarter := 0 }
     sampleKnob x false true = ({ x with a := false, quarter := 1 }, none) ∧
     sampleKnob { x with rawA := true } false true = (x, none)) ∧
    (let x : Knob := { Knob.cold with a := true, b := true, rawA := false, rawB := false, quarter := 0 }
     sampleKnob x false false = (x, none)) := by decide
theorem test_ScaleStepRules :
    ((Field.dev .tbase).kind = .numeric 0 29 ∧ Setup.default.get (.dev .tbase) = .number Setup.default.tbase) ∧
    (scaleUp 1001 = 2000 ∧ scaleDown 1001 = 1000 ∧ scaleUp 9999999 = 10000000 ∧ fineUp 9999999 = 10000000 ∧ fineDown 1001 = 1000 ∧
      fineUp 1049 = 1059 ∧ fineUp 1050 = 1061) ∧
    1000 ≤ (Setup.default.ch.get .ch1).scale ∧ (Setup.default.ch.get .ch1).scale ≤ 10000000 := by decide
theorem test_LampsShowTheirModes :
    (lampAt s0 3 = .plain .off ∧ lampLit s0 3 = false) ∧
    (let s := { s0 with panel := { s0.panel with lamps := [(3, .follow .store)] } }
     lampAt s 3 = .follow .store ∧ followShows s .store = .on ∧ lampLit s 3 = true) ∧
    ((stored [] 1).store.bus ≠ .lent ∧ (stored [] 1).store.running = none ∧ (stored [] 1).store.queue ≠ [] ∧
      followShows (stored [] 1) .store = .on) ∧
    (onBus .lent (stored [] 1)).store.bus = .lent ∧
    ((stored [] 0).store.running = none ∧ (stored [] 0).store.queue = [] ∧ (stored [] 0).store.scan = none) := by decide
theorem test_ProtectSettingIsChecked : Ready 0x39 7 [0, 2] (ordered 0x39 [0, 2] s0) ∧ 1 < (byteAt [0, 2] 1).toNat := by decide
/-- STORE with a running job on a LENT bus between two steps. -/
def paused (k : JobKind) (p : JobPhase) : State :=
  { s0 with store := { s0.store with
      bus := .lent, scan := none, queue := [⟨k, 3⟩], running := some ⟨p, false, false⟩, step := none } }
theorem test_ReturnResumesEveryPhase :
    ([((.erase, .classify .startCheck [[]]) : JobKind × JobPhase), (.save [] [], .saveErase), (.erase, .eraseSector),
        (.save [] [], .saveBody1), (.save [] [], .saveBody2), (.save [] [], .saveHeader), (.protect true, .protectOn),
        (.protect false, .offErase [] []), (.protect false, .offBody1 [] []), (.protect false, .offBody2 [] []),
        (.protect false, .offHeader [] [])].all (fun p => let s := paused p.1 p.2
      decide (Ready 0x3C 7 [] (ordered 0x3C [] s) ∧ s.store.bus = .lent ∧ s.store.step = none ∧
        s.store.running = some ⟨p.2, false, false⟩ ∧ s.store.queue = [⟨p.1, 3⟩])) = true) ∧
    (let s := onBus .lent { s0 with store := { s0.store with step := none } }
     Ready 0x3C 7 [] (ordered 0x3C [] s) ∧ s.store.step = none ∧ s.store.running = none ∧ s.store.scan.isSome = true) := by decide
theorem test_ProtectRunsItsSteps :
    ([((.protect true, .protectOn, .programPage []) : JobKind × JobPhase × StepKind),
        (.protect false, .classify .protectOff [[], []], .readPage), (.protect false, .offErase [] [], .eraseSector),
        (.protect false, .offBody1 [] [], .programPage []), (.protect false, .offBody2 [] [], .programPage []),
        (.protect false, .offHeader [] [], .programPage [])].all (fun p => let s := stepping p.1 p.2.1 p.2.2
      decide (s.pins.resetLow = false ∧ s.store.scan = none ∧ s.store.bus = .owned ∧ s.store.queue = [⟨p.1, 3⟩] ∧
        s.store.step = some ⟨p.2.2, 0, 0⟩ ∧ s.store.running = some ⟨p.2.1, false, false⟩ ∧
        (s.acq.timeTag - 0).toNat ≤ 125000)) = true) ∧
    (let s := { stepping (.protect true) .protectOn (.programPage []) with
        store := { (stepping (.protect true) .protectOn (.programPage [])).store with dir := [(3, .valid false 1 [])] } }
     dirAt s 3 = .valid false 1 []) := by decide +kernel
/-- A header page of slot 3 over a body of zeros, with the format, the slot, the length or the check spoiled. -/
theorem test_SlotIsClassified :
    let body := List.replicate 512 (0 : Byte)
    let h := headerPage 3 24 (ascii "BENCH A         ") body
    (byteAt h 4 = 0x01 ∧ (byteAt h 5).toNat = 3 ∧ natAt h 27 2 = 512 ∧ byteAt h 6 = 0xFF ∧
      (((h.take 6 ++ (h.drop 7).take 22 ++ body).map (fun x => x.toNat)).sum) % 65536 = natAt h 29 2) ∧
    classifySlot 3 h body = .valid false 24 (ascii "BENCH A         ") ∧ classifySlot 3 (h.set 6 0) body = .valid true 24 (ascii "BENCH A         ") ∧
    [(4, 2), (5, 4), (27, 3), (29, 0xEE)].all (fun p => decide (classifySlot 3 (h.set p.1 p.2) body = .corrupt)) = true ∧
    classifySlot 3 (h.set 0 0) body = .empty := by decide +kernel
theorem test_FurtherTimeouts :
    [scanning 31 [], stepping .erase (.classify .startCheck []) .readPage, stepping (.protect false) (.classify .protectOff []) .readPage,
      stepping (.protect false) (.offErase [] []) .eraseSector, stepping (.protect false) (.offHeader [] []) (.programPage [])].all
      (fun s => let s := { s with acq := { s.acq with timeTag := 50000000 } }
        decide (s.pins.resetLow = false ∧ s.store.bus = .owned ∧ s.store.step.isSome = true ∧ timedOut s = true)) = true := by decide

theorem test_CodeJoinsTheInterval :
    [working .capturing ⟨.filling, 0, some info⟩, working .arming ⟨.prefill, 0, some info⟩, rolling 1].all (fun s =>
      (segAt s s.acq.cur).info.any (fun i =>
        decide (s.pins.resetLow = false ∧ (s.acq.cur + 1) * i.geo.size ≤ 67108864 ∧ s.acq.ivCount < i.geo.interval ∧
          (s.acq.state = .capturing ∧ i.geo.pre + s.acq.postCount < i.geo.len ∨ s.acq.state = .arming ∧ s.acq.preCount < i.geo.pre ∨
            s.acq.state = .rolling ∧ (s.acq.single = true → 0 < s.acq.columnsLeft))))) = true := by decide
theorem test_FullIntervalIsWritten :
    [((.capturing, 3) : AcqState × Nat), (.arming, 1)].all (fun p =>
      let s := working p.1 ⟨.prefill, 0, some info⟩
      let s := { s with acq := { s.acq with ivCount := 2, preCount := 5, postCount := 1 } }
      decide (s.pins.resetLow = false ∧ (segAt s s.acq.cur).info = some info ∧ (s.acq.cur + 1) * geo.size ≤ 67108864 ∧
        0 < s.acq.ivCount ∧ geo.interval ≤ s.acq.ivCount ∧
        (s.acq.state = .capturing ∧ p.2 = geo.pre + s.acq.postCount ∨
          s.acq.state = .arming ∧ 0 < geo.pre ∧ p.2 = s.acq.preCount % geo.pre) ∧
        s.acq.cur * geo.size + (p.2 + 1) * (chanCount geo.enabled * pointBytes geo.mode) ≤ 67108864 ∧
        captureExists s = true)) = true := by decide
/-- A record with all four points before the trigger: P = L. -/
def fullRing : SegInfo := { info with geo := { geo with pre := 4 } }
/-- A part at tick 12,500,000 with such a record and the rising prime set. -/
def ringAt (a : AcqState) (st : SegState) : State :=
  let s := working a ⟨st, 0, some fullRing⟩
  { s with acq := { s.acq with timeTag := 12500000, risePrime := true, preCount := 4 } }
theorem test_TriggersWithFullRing :
    (let s := ringAt .waiting .ready
     Ready 0x13 7 [] (ordered 0x13 [] s) ∧ s.power.state ≠ .standby ∧ s.acq.state = .waiting ∧
     (segAt s s.acq.cur).info = some fullRing ∧ fullRing.geo.len ≤ fullRing.geo.pre ∧ s.setup.tmode = .auto ∧
     s.setup.tauto * 125000 ≤ (s.acq.timeTag - s.acq.readyTick).toNat) ∧
    (let s := setupOf { Setup.default with tmode := .normal } (ringAt .waiting .ready)
     (s.acq.cur + 1) * fullRing.geo.size ≤ 67108864 ∧ s.acq.ivCount < fullRing.geo.interval ∧ autoOverdue s = false ∧
     s.setup.tsrc = .chan .ch1 ∧ levelCode s.setup .ch1 ≤ 128 ∧ s.setup.tslope ≠ .fall ∧ s.acq.risePrime = true ∧
     s.acq.lastTrig = none ∧ carriesAcq s.setup Setup.default = false ∧ s.setup.tmode ≠ Setup.default.tmode ∧
     Setup.default.tmode = .auto ∧ Setup.default.tauto * 125000 ≤ (s.acq.timeTag - s.acq.readyTick).toNat) ∧
    ([fullRing, info].all (fun i =>
      let s := working .arming ⟨.prefill, 0, some i⟩
      let s := { s with acq := { s.acq with preCount := 4, forcePending := true } }
      decide (s.pins.resetLow = false ∧ s.acq.state = .arming ∧ (segAt s s.acq.cur).info = some i ∧ i.geo.pre ≤ s.acq.preCount ∧
        s.acq.forcePending = true)) = true ∧ info.geo.pre < info.geo.len) := by decide +kernel
/-- A REPEAT run of the default setup whose buffer 0 has all its points, of code 0 in CH1 with OVR; draw entries stand. -/
def repeatRun (rejects : Bool) (list : List DrawEntry) : State :=
  let u := { Setup.default with ch := Setup.default.ch.set .ch1 { Setup.default.ch.c1 with reject := ⟨rejects, false, false, false⟩ } }
  { s0 with
    setup := u
    raster := { Raster.cold with list := list }
    acq := { Acq.cold with
      state := .capturing, runKind := .repeats, postCount := u.geometry.len - u.geometry.pre
      segs := [(0, ⟨.filling, 0, some { info with geo := u.geometry }⟩)], prevLayout := some u.geometry.layout
      points := [(0, .const ⟨0, 0, true⟩)] } }
theorem test_RepeatRunGoesOn :
    [((true, []) : Bool × List DrawEntry), (false, [⟨1, 4, .const true, true, true⟩]),
        (false, List.replicate 8 ⟨1, 4, .const true, true, false⟩)].all (fun p =>
      let s := repeatRun p.1 p.2
      let g := s.setup.geometry
      let i := { info with geo := g }
      decide (s.pins.resetLow = false ∧ s.acq.state = .capturing ∧ (segAt s s.acq.cur).info = some i ∧
        g.len ≤ g.pre + s.acq.postCount ∧ s.acq.runKind = .repeats ∧ s.acq.single = false ∧ s.acq.cur ≤ 1 ∧ 0 < g.pre ∧
        rejectedBy s g (flagSetsAt s i) = p.1 ∧ s.setup.recapture ≤ i.attempts ∧ s.setup.stoprej = false ∧ SegTableOk s ∧
        s.raster.job = none ∧ s.power.state ≠ .standby ∧ i.geo.enabled.nonempty = true ∧
        s.acq.prevLayout = some g.layout)) = true ∧
    ∀ k r j, segAt (repeatRun true []) k = r → r.info = some j → k ≤ 1 ∧ j.geo.size = (repeatRun true []).setup.geometry.size := by
  refine ⟨by decide +kernel, fun k r j hr hj => ?_⟩
  subst hr
  by_cases h : 0 = k
  · subst h
    exact ⟨by decide, by rw [← Option.some.inj hj]; rfl⟩
  · have hk : segAt (repeatRun true []) k = .free 0 := by simp [segAt, repeatRun, tabGet, tabGet?, h]
    rw [hk] at hj; cases hj
/-- ACQ STOPPED with segment 5 DONE, whose pinned region takes in the first bytes of the memory. -/
def pinned (u : Setup) : State :=
  setupOf u { s0 with
    acq := { Acq.cold with segs := [(5, doneRec)] }
    raster := { Raster.cold with job := some ⟨5, 1, 0, 24, geo.enabled, [.ch1], 0, 255, .vectors, .const ⟨0, 1024⟩⟩ } }
theorem test_ArmMeetsThePin :
    [((Setup.default, Setup.default.geometry.size) : Setup × Nat),
        ({ Setup.default with roll := true, tbase := 21 }, 500 * chanCount Setup.default.enabled * 2),
        ({ Setup.default with runmode := .segmented }, ({ Setup.default with runmode := .segmented } : Setup).geometry.size)].all (fun p =>
      let s := pinned p.1
      decide (Ready 0x10 7 [] (ordered 0x10 [] s) ∧ Ready 0x12 7 [] (ordered 0x12 [] s) ∧ s.power.state ≠ .standby ∧
        s.acq.state = .stopped ∧ s.raster.job.map (fun j => (j.lo, j.hi)) = some (0, 24) ∧
        bufferChoice { s with acq := { s.acq with lastDone := none } } = 0 ∧
        (s.setup.runmode = .segmented ∨ s.setup.rollConditions = decide (s.setup.tbase = 21)) ∧
        0 < (0 + 1) * p.2 ∧ 0 * p.2 < 24 ∧ SegTableOk s ∧ (segAt s 5).state = .done ∧ (segAt s 5).serial = 1)) = true ∧
    (let s := { pinned Setup.default with acq := { (pinned Setup.default).acq with state := .held } }
     s.pins.resetLow = false ∧ s.acq.state = .held ∧ s.raster.job.isSome = true) := by decide +kernel
/-- R136: the reference's voltage texts at the places where the format changes. -/
theorem test_AnnotationRowsShowTheSetup :
    [((9999, "9.99mV") : Nat × String), (10000, "10.0mV"), (100000, "100mV "), (1000000, "1.00V "), (50000000, "50.0V ")].all
      (fun p => decide (p.1 ≤ 50000000 ∧ voltText p.1 = ascii p.2)) = true ∧ s0.setup.tbase ≤ 29 ∧
    (∃ n, (s0.setup.ch.get n).on ≠ (({ s0.setup with ch := s0.setup.ch.set .ch2 { s0.setup.ch.c2 with on := true } } : Setup).ch.get n).on) ∧
    s0.setup.tbase ≠ ({ Setup.default with tbase := 10 } : Setup).tbase ∧ s0.compose.owned = true ∧ s0.acq.state = .stopped ∧
    (∃ t, exec (.stop 7 []) (ordered 0x11 [] (working .arming ⟨.prefill, 0, some info⟩)) = .next t ∧ t.acq.state ≠ .arming) ∧
    (∃ t, exec (.edgeTrigger [⟨.const 200, false⟩]) (primed 1) = .next t ∧ t.acq.state ≠ .waiting ∧ t.compose.owned = true) ∧
    (∃ t, exec (.fieldSet 7 [0, 2, 1, 0, 0, 0, 0])
      (ordered 0x08 [0, 2, 1, 0, 0, 0, 0] (working .capturing ⟨.filling, 0, some info⟩)) = .next t ∧ t.acq.state ≠ .capturing) := by
  exact ⟨by decide +kernel, by decide, ⟨.ch2, by decide⟩, by decide, by decide, by decide, ⟨_, rfl, by decide +kernel⟩,
    ⟨_, rfl, by decide +kernel⟩, ⟨_, rfl, by decide +kernel⟩⟩
/-- WAITING, or ARMING with one of the two pre-trigger points, with a trigger source. -/
def detecting (a : AcqState) (src : TrigSource) : State :=
  let s := working a ⟨if a = .waiting then .ready else .prefill, 0, some info⟩
  { s with setup := { Setup.default with tsrc := src }, acq := { s.acq with preCount := 1 } }
/-- R53: codes far below and far above the level code of CH1 and both levels of EXT, in a state of each kind. -/
theorem test_PrimesFollowTheCodes :
    [((.waiting, .chan .ch1) : AcqState × TrigSource), (.arming, .chan .ch1), (.waiting, .ext), (.arming, .ext)].all (fun p =>
      let s := detecting p.1 p.2
      decide (s.pins.resetLow = false ∧ (segAt s s.acq.cur).info = some info ∧ (s.acq.cur + 1) * info.geo.size ≤ 67108864 ∧
        s.acq.ivCount < info.geo.interval ∧ s.setup.tsrc = p.2 ∧
        (s.acq.state = .waiting ∧ autoOverdue s = false ∧ info.geo.pre < info.geo.len ∨
          s.acq.state = .arming ∧ s.acq.preCount < info.geo.pre)) &&
      decide ((takeCode s ⟨.const 10, false⟩).acq.risePrime = true ∧ (takeCode s ⟨.const 10, false⟩).acq.fallPrime = false ∧
        (takeCode s ⟨.const 250, true⟩).acq.risePrime = false ∧ (takeCode s ⟨.const 250, true⟩).acq.fallPrime = true)) = true := by
  decide +kernel
/-- R8: a number at, within and outside the ends of its range, a code at the end of its set, a NAME with a character outside. -/
theorem test_OfferedValuesAreAccepted :
    acceptValue (.chan .ch1 .pos) (.number (-401)) = some (.number (-400), true) ∧
    acceptValue (.chan .ch1 .pos) (.number (-400)) = some (.number (-400), false) ∧
    acceptValue (.dev .tbase) (.number 30) = some (.number 29, true) ∧
    acceptValue (.dev .curShow) (.number 3) = some (.number 3, false) ∧ acceptValue (.dev .curShow) (.number 4) = none ∧
    acceptValue (.limit .ch1 .max .ha) (.limit none) = some (.limit none, false) ∧
    acceptValue (.dev .name) (.text [0x1F, 0x20, 0x7E, 0x7F]) = some (.text [0x20, 0x20, 0x7E, 0x20], true) ∧
    offeredValue (.limit .ch1 .max .ha) [1, 0x10, 0, 0, 0, 0, 5] = some (.limit none) ∧
    offeredValue (.limit .ch1 .max .ha) [1, 0x10, 1, 0xFF, 0xFF, 0xFF, 0xFF] = some (.limit (some (-1))) := by decide +kernel
/-- R218: its example of a TBASE byte of 200, and two codes outside their sets, of which the first is reported. -/
theorem test_ImageIsReadByItsTable : ((imageOf .default).set 384 200).length = 512 ∧
    (readImage ((imageOf .default).set 384 200)).toOption = some ({ Setup.default with tbase := 29 }, 1) ∧
    (match readImage (((imageOf .default).set 421 4).set 112 16) with | .error id => id == 0x210 | .ok _ => false) = true := by
  decide +kernel
theorem test_SequenceOfASave : (∀ k, k < 32 → dirAt (stored [] 0) k = .unknown) ∧ nextSequence (stored [] 0) = 1 ∧
    nextSequence (stored [(0, .valid true 5 []), (31, .valid false 9 []), (30, .corrupt)] 0) = 10 ∧
    nextSequence (stored [(3, .valid false 0xFFFFFFFF [])] 0) = 0 := by decide +kernel
theorem test_BindingAndLampTables : actionOf 8 31 = some (.recall 31) ∧ actionOf 8 32 = none ∧ actionOf 4 4 = some (.chan .ch4) ∧
    actionOf 4 5 = none ∧ actionOf 10 0 = none ∧ targetRules (.chan .ch4 .scale) = some (true, true) ∧
    targetRules (.dev .depth) = some (true, false) ∧ targetRules (.dev .name) = none ∧
    ruleOf (false, false) 3 1000000 = some (.linear 1000000) ∧ ruleOf (false, false) 3 1000001 = none ∧
    ruleOf (false, false) 3 0 = none ∧ lampModeOf 4 5 = some (.follow (.chan .ch4)) ∧ lampModeOf 4 9 = none ∧ lampModeOf 5 0 = none := by
  decide
theorem test_FrameEventOwnsTheRows : (let s := { atFrame with compose := { atFrame.compose with owned := false } }
    s.setup.annot = true ∧ s.compose.owned = false ∧ s.compose.annot0.length = 100 ∧ s.compose.annot29.length = 100 ∧
    s.compose.frameTimer = some (0, 0)) := by decide +kernel
/-- The part with key 5 bound to an action, 16 events in the FIFO. -/
def fullFifo (a : KeyAction) : State :=
  { bound a with panel := { (bound a).panel with fifo := List.replicate 16 ⟨1, .press, false, 0⟩ } }
theorem test_EventsWithFullFifo :
    [KeyAction.runstop, .chan .ch1, .clear, .nothing, .single, .force, .defaults, .save 3, .recall 3].all (fun a => let s := fullFifo a
      decide (s.pins.resetLow = false ∧ s.power.state = .on ∧ (keyAt s 5).down = false ∧ s.panel.lock = false ∧
        bindingOf s 5 = some ⟨a, true⟩ ∧ bindingOf s 6 = none ∧ 16 ≤ s.panel.fifo.length)) = true ∧
    [true, false].all (fun b =>
      let s := { fullFifo .clear with panel := { (fullFifo .clear).panel with keys := [(5, ⟨true, 0, b, none⟩)] } }
      decide ((keyAt s 5).down = true ∧ (keyAt s 5).reported = b ∧ s.power.state ≠ .standby ∧ 16 ≤ s.panel.fifo.length)) = true ∧
    (let s := powered .standby (heldKey true)
     s.pins.resetLow = false ∧ s.power.state = .standby ∧ (keyAt s 5).down = true ∧ (keyAt s 6).down = false) := by decide
/-- The scan paused between two steps on a LENT bus. -/
def pausedScan : State := { s0 with store := { s0.store with step := none, bus := .lent } }
theorem test_StandbyAutosave :
    [((pausedScan, true) : State × Bool), (stored [] 3, false), (stored [] 4, true), (stored [(0, .valid true 1 [])] 0, true),
        (stored [(0, .valid false 1 [])] 0, false), (onBus .lent (stored [] 3), false)].all (fun p =>
      decide (Ready 0x3F 7 [2] (ordered 0x3F [2] p.1) ∧ p.1.store.step = none ∧
        (p.1.store.scan.isSome || (dirAt p.1 0).isProtected || decide (4 ≤ p.1.store.queue.length)) = p.2)) = true ∧
    s0.store.step ≠ none := by decide
/-- STORE with a step of a running job in flight, on a bus that is being lent or not, the job abandoned or altered or not. -/
def atStep (b : BusState) (k : JobKind) (p : JobPhase) (kind : StepKind) (altered abandoned : Bool) : State :=
  let s := stepping k p kind
  { s with store := { s.store with
      bus := b, withheld := if b = .lending then some 9 else none, running := some ⟨p, altered, abandoned⟩ } }
/-- A page of zeros. -/
def zeroPage : List Byte := List.replicate 256 0
/-- The header page of slot 3 over a body of zeros, protected or not. -/
def zeroHeader (prot : Bool) : List Byte :=
  let h := headerPage 3 24 (ascii "BENCH A         ") (List.replicate 512 0)
  if prot then h.set 6 0 else h
theorem test_ReadsOfAJob :
    ([((.erase, .startCheck, [], false, false) : JobKind × ClassifyFor × List (List Byte) × Bool × Bool),
        (.recall, .recall, [[]], false, true), (.erase, .startCheck, [[]], true, true), (.erase, .refresh .abandoned, [], true, true),
        (.erase, .refresh .failed, [[], []], false, false), (.recall, .recall, [[], []], false, true),
        (.erase, .startCheck, [[], []], true, true), (.erase, .startCheck, [[], []], false, false)].all (fun p =>
      let s := atStep .owned p.1 (.classify p.2.1 p.2.2.1) .readPage p.2.2.2.1 p.2.2.2.2
      decide (s.pins.resetLow = false ∧ s.store.bus = .owned ∧ s.store.scan = none ∧ s.store.queue = [⟨p.1, 3⟩] ∧
        s.store.step = some ⟨.readPage, 0, 0⟩ ∧ (s.acq.timeTag - 0).toNat ≤ 125000)) = true) ∧
    ([false, true].all (fun b => decide (classifySlot 3 (zeroHeader b) (zeroPage ++ zeroPage) =
      .valid b 24 (ascii "BENCH A         "))) = true ∧ classifySlot 3 zeroPage (zeroPage ++ zeroPage) = .empty ∧
      classifySlot 3 ((zeroHeader false).set 29 0xEE) (zeroPage ++ zeroPage) = .corrupt) ∧
    [((.eraseSector, .eraseSector) : JobPhase × StepKind), (.saveBody1, .programPage zeroPage)].all (fun p =>
      let s := atStep .owned .erase p.1 p.2 true true
      decide (s.store.step = some ⟨p.2, 0, 0⟩ ∧ s.store.running = some ⟨p.1, true, true⟩ ∧
        (s.acq.timeTag - 0).toNat ≤ 625000)) = true := by decide +kernel
theorem test_LendingEndsWithTheStep :
    [((.classify .startCheck [], .readPage, 125000) : JobPhase × StepKind × Tick), (.saveBody1, .programPage zeroPage, 625000),
        (.eraseSector, .eraseSector, 50000000), (.classify .recall [zeroHeader false, zeroPage], .readPage, 0)].all (fun p =>
      let s := { atStep .lending .recall p.1 p.2.1 false false with acq := { s0.acq with timeTag := p.2.2 } }
      decide (s.pins.resetLow = false ∧ s.store.bus = .lending ∧ s.store.withheld = some 9 ∧ s.store.step = some ⟨p.2.1, 0, 0⟩ ∧
        s.store.queue = [⟨.recall, 3⟩] ∧ s.store.running = some ⟨p.1, false, false⟩ ∧
        (s.acq.timeTag - 0).toNat ≤ (match p.2.1 with | .readPage => 125000 | .programPage _ => 625000 | .eraseSector => 50000000))) =
      true := by decide +kernel

/-- The part with standby autosaves that wait for the end of a flash step. -/
def autosaving (n : Nat) (s : State) : State :=
  { s with store := { s.store with autosaves := List.replicate n (saveJob s 0 s.setup.name) } }
theorem test_MovesActWhenTheStepEnds :
    [((.readPage, 125000) : StepKind × Tick), (.programPage zeroPage, 625000), (.eraseSector, 50000000)].all (fun p =>
      let s := autosaving 2 { atStep .lending .erase .eraseSector p.1 false false with acq := { s0.acq with timeTag := p.2 } }
      decide (s.pins.resetLow = false ∧ s.store.step = some ⟨p.1, 0, 0⟩ ∧ s.store.autosaves.length = 2 ∧
        (s.acq.timeTag - 0).toNat =
          (match p.1 with | .readPage => 125000 | .programPage _ => 625000 | .eraseSector => 50000000))) = true := by
  decide +kernel
/-- R170, R185: a move to STANDBY during the last step of the scan is skipped, by the end of that step or its timeout. -/
def lastScanStep : State :=
  autosaving 1 { s0 with
    store := { s0.store with scan := some ⟨31, [zeroPage, zeroPage], false⟩ }
    acq := { s0.acq with timeTag := 125000 } }
theorem test_MoveInTheLastScanStepIsSkipped :
    [Instr.flashReadPageEnd (Vector.replicate 256 0), .flashStepTimeout].all (fun c =>
      match exec c lastScanStep with
      | .next t => decide (t.store.scan = none ∧ t.store.queue = [] ∧ t.store.autosaves = [] ∧
          t.store.last = some ⟨some 0, .save, .skipped⟩)
      | _ => false) = true := by decide +kernel
theorem test_RestartDuringAStep :
    [(autosaving 1 (restarting (some ⟨.eraseSector, false, false⟩) (some ⟨.eraseSector, 0, 0⟩))), autosaving 1 s0].all (fun s =>
      decide (Ready 0x03 7 [] (ordered 0x03 [] s) ∧ s.store.step ≠ none ∧ s.store.autosaves ≠ [])) = true ∧
    s0.store.running = none ∧ (restarting (some ⟨.eraseSector, false, false⟩) none).store.running ≠ none := by decide
theorem test_StandbyEntryActsOnTheBlocks :
    [AcqState.arming, .waiting, .capturing, .rolling, .held, .stopped].all (fun a =>
      let s := working a ⟨.filling, 0, some info⟩
      let s := { s with acq := { s.acq with waves := (reading 1).acq.waves } }
      decide (Ready 0x3F 7 [2] (ordered 0x3F [2] s) ∧ s.power.state ≠ .standby ∧ s.acq.waves ≠ [])) = true ∧
    (Ready 0x3F 7 [2] (ordered 0x3F [2] (powered .dark (wrapped 500))) ∧ PanelOk (heldKey true)) := by decide
/-- STANDBY with segment 0 DONE, and a run remembered or not. -/
def asleep (run : Bool) (u : Setup) : State :=
  setupOf u { withDone with power := ⟨.standby, run, .order⟩ }
theorem test_WakeFromStandbyActsOnTheBlocks : [((true, .off) : Bool × Persist), (false, .finite), (true, .finite)].all (fun p =>
      let s := asleep p.1 { Setup.default with persist := p.2 }
      decide (Ready 0x3F 7 [0] (ordered 0x3F [0] s) ∧ SegTableOk s ∧ s.power.state = .standby ∧ s.power.runAtWake = p.1 ∧
        s.setup.persist = p.2)) = true := by decide
theorem test_AcqChangeRearms :
    [Setup.default, { Setup.default with runmode := .segmented }, { Setup.default with roll := true, tbase := 21 }].all (fun u =>
      let u := { u with depth := 0 }
      [pinned Setup.default, working .arming ⟨.prefill, 0, some info⟩, working .capturing ⟨.filling, 0, some info⟩, rolling 3].all
        (fun s => [AcqState.arming, .waiting, .capturing, .rolling, .held].all (fun a =>
          let s := { s with acq := { s.acq with state := a, forcePending := true } }
          decide (SegTableOk s ∧ s.acq.state ≠ .stopped ∧ carriesAcq s.setup u = true ∧ 0 < u.tauto)))) = true ∧
    (let u := { Setup.default with depth := 0 }
     (adopt u (wrapped 500)).acq.state = .arming ∧ u.persist = (wrapped 500).setup.persist ∧ u.style = (wrapped 500).setup.style) := by
  decide +kernel
theorem test_ReleaseArmsAnyRun :
    [((.segmented, Setup.default) : RunKind × Setup), (.repeats, Setup.default), (.repeats, { Setup.default with pretrig := 0 }),
        (.repeats, { Setup.default with roll := true, tbase := 21 }), (.repeats, { Setup.default with roll := true, tbase := 20 })].all
      (fun p =>
        let s := setupOf p.2 { withDone with acq := { withDone.acq with state := .held, runKind := p.1, forcePending := true } }
        decide (s.pins.resetLow = false ∧ s.acq.state = .held ∧ s.raster.job = none ∧ SegTableOk s ∧ s.acq.runKind = p.1)) =
      true := by decide
theorem test_RecaptureGoesOnInAnyRun :
    [((.segmented, 2, false) : RunKind × Nat × Bool), (.repeats, 2, true), (.repeats, 0, true), (.segmented, 0, false)].all (fun p =>
      let i := { info with geo := { geo with pre := p.2.1 } }
      let s := lastPoint true
      let s := { s with acq := { s.acq with
        runKind := p.1, single := false, postCount := 4 - p.2.1, forcePending := p.2.2, segs := [(0, ⟨.filling, 0, some i⟩)] } }
      decide (s.pins.resetLow = false ∧ s.acq.state = .capturing ∧ (segAt s s.acq.cur).info = some i ∧
        i.geo.len ≤ i.geo.pre + s.acq.postCount ∧ rejectedBy s i.geo (flagSetsAt s i) = true ∧
        i.attempts < s.setup.recapture)) = true := by decide +kernel
theorem test_DerivedExpansion :
    (let s := { withDone with raster := { withDone.raster with view := some (0, 1) } }
     Ready 0x09 7 [1, 0x81] (ordered 0x09 [1, 0x81] s) ∧ s.raster.view = some (0, 1) ∧
     segAt s 0 = ⟨.done, 1, some { info with outcome := some .pass }⟩ ∧ info.geo.enabled.get .ch1 = true ∧
     info.geo.enabled.get .ch2 = false) ∧
    (let s := { withDone with raster := { withDone.raster with view := some (0, 2) } }
     (segAt s 0).serial ≠ 2) ∧ s0.raster.view = none := by decide
theorem test_PeriodEndsWithinAFrame :
    [(([], [1]) : List Byte × List Byte), ([1, 7], [0]), ([1, 7, 4], [0]), ([], [1, 7, 0, 0, 0])].all (fun p =>
      let s := { selected with link := { selected.link with gathered := p.1 } }
      let all := s.link.gathered ++ p.2
      decide (s.pins.resetLow = false ∧ s.pins.linkSelLow = true ∧ s.link.inPeriod = true ∧ s.link.ignoring = false ∧ p.2 ≠ [] ∧
        all.head? ≠ some 0 ∧
        (all.length < 4 ∨ natOf ((all.drop 2).take 2) ≤ 1024 ∧ all.length < 6 + natOf ((all.drop 2).take 2)))) = true := by decide

/-- R212: LINK waits for the rise of a LINK_SEL that is low at the rise of RESET_N. -/
theorem test_LinkOutWhileLinkWaits : selected.pins.linkSelLow = true ∧ s0.pins.linkSelLow = false ∧
    linkOut { s0 with pins := { s0.pins with linkSelLow := true } } = some 0 := by decide
/-- A run about to go on, its record and the present setup with P = 0, and a draw job that pins the next index's region or none. -/
def goesOn (run : RunKind) (u : Setup) (pin : Bool) : State :=
  let s := repeatRun false []
  { s with
    setup := u
    acq := { s.acq with runKind := run, forcePending := true, segs := [(0, segAt s 0), (5, doneRec)] }
    raster := { Raster.cold with
      job := if pin then some ⟨5, 1, u.geometry.size, u.geometry.size + 4, geo.enabled, [.ch1], 0, 255, .vectors, .const ⟨0, 1024⟩⟩ else none } }
theorem test_NextArmUnderAnyGeometry :
    [RunKind.segmented, .repeats].all (fun r => [true, false].all (fun pin =>
      let u := { Setup.default with pretrig := 0, depth := 0, tbase := 0 }
      let s := goesOn r u pin
      let i := { info with geo := Setup.default.geometry }
      decide (s.pins.resetLow = false ∧ s.acq.state = .capturing ∧ (segAt s s.acq.cur).info = some i ∧
        i.geo.len ≤ i.geo.pre + s.acq.postCount ∧ SegTableOk s ∧ rejectedBy s i.geo (flagSetsAt s i) = false ∧
        s.acq.single = false ∧ s.acq.cur + 1 < i.geo.nEff ∧ u.geometry.pre = 0 ∧
        s.raster.job.any (fun j => decide (j.lo < 2 * u.geometry.size) && decide (u.geometry.size < j.hi)) = pin))) = true := by
  decide +kernel
theorem test_ForceKeyWithFullRing :
    let s := { ringAt .waiting .ready with panel := { s0.panel with bindings := [(5, ⟨.force, false⟩)] } }
    s.pins.resetLow = false ∧ s.power.state = .on ∧ (keyAt s 5).down = false ∧ s.panel.lock = false ∧
    bindingOf s 5 = some ⟨.force, false⟩ ∧ s.acq.state = .waiting ∧ (segAt s s.acq.cur).info = some fullRing ∧
    fullRing.geo.len ≤ fullRing.geo.pre := by decide

/-! ## The invariants' premises are met by states other than reset -/

theorem test_EveryStepKeepsTheSetupInRange : SetupInRange s0.setup ∧ PagesOk s0 ∧
    step { s0 with pending := [.columnsLeftZero] } = .next s0 := by
  refine ⟨test_setup_in_range, fun r why pages h => ?_, rfl⟩
  simp [s0, State.reset, Store.cold] at h
theorem test_invariant_premises : MemoryOk withDone ∧ QueuesOk (selectedWith 4 8) ∧
    NotesOk (sendable none [] [⟨.acq, none, false⟩, ⟨.store, none, false⟩]) ∧ RunOk (working .waiting ⟨.ready, 0, some info⟩) ∧
    StandbyStopped (powered .standby s0) ∧ SegTableOk withDone ∧ ScreenOk s0 ∧ PanelOk fullTable := by decide +kernel
theorem test_planes_premise : RasterOk (drawing 499) := by
  refine ⟨fun n => ?_, by decide, fun j h => ?_⟩
  · cases n <;> exact ⟨rfl, by simp [drawing, withDone, s0, State.reset, Raster.cold, PerChan.get]⟩
  · simp [drawing] at h; subst h; decide

end Sys2Proof.Machine.Tests
end

section
/-! SUPPORT. The fields of the record: what a read returns after a write, and that every accepted value keeps a record within its
ranges and sets (R6, R8). -/

namespace Sys2Proof.Machine

/-! ## One thing per channel, per quantity, per type -/

theorem perChan_get_set {α : Type} (p : PerChan α) (n m : Chan) (x : α) :
    (p.set n x).get m = if m = n then x else p.get m := by
  cases n <;> cases m <;> rfl

theorem perQuantity_get_set {α : Type} (p : PerQuantity α) (q r : Quantity) (x : α) :
    (p.set q x).get r = if r = q then x else p.get r := by
  cases q <;> cases r <;> rfl

theorem limitGroup_get_set (g : LimitGroup) (t r : LimitType) (x : Option Int) :
    (g.set t x).get r = if r = t then x else g.get r := by
  cases t <;> cases r <;> rfl

/-! ## Reading a field that was written -/

theorem chan_getNum_putNum (u : ChanSetup) (f g : ChanField) (x : Int) :
    (u.putNum f x).getNum g = if g = f then (u.putNum f x).getNum f else u.getNum g := by
  cases f <;> cases g <;> rfl

theorem dev_getNum_putNum (u : Setup) (f g : DevField) (x : Int) :
    (u.putNum f x).getNum g = if g = f then (u.putNum f x).getNum f else u.getNum g := by
  cases f <;> cases g <;> rfl

theorem rejectSet_code_ofCode (v : Int) (h0 : 0 ≤ v) (h : v < 16) : (RejectSet.ofCode v).code = v := by
  obtain ⟨n, rfl⟩ := Int.eq_ofNat_of_zero_le h0
  have hn : n < 16 := by omega
  interval_cases n <;> rfl

/-- R213: a channel field that has a number or code in its range or set reads back as what was written. -/
theorem chan_getNum_putNum_same (u : ChanSetup) (f : ChanField) (x : Int) (h : fits f.kind x = true) :
    (u.putNum f x).getNum f = x := by
  cases f
  case scale | color =>
    simp only [ChanField.kind, fits, Bool.and_eq_true, decide_eq_true_eq] at h
    simp only [ChanSetup.putNum, ChanSetup.getNum]
    omega
  case pos => rfl
  case reject =>
    simp only [ChanField.kind, fits, Bool.and_eq_true, decide_eq_true_eq] at h
    exact rejectSet_code_ofCode x h.1 h.2
  all_goals
    simp only [ChanField.kind, fits, Bool.and_eq_true, decide_eq_true_eq] at h
    obtain ⟨h0, h⟩ := h
    push_cast at h
    interval_cases x <;> rfl

/-- R213: a device field that has a number or code in its range or set reads back as what was written. -/
theorem dev_getNum_putNum_same (u : Setup) (f : DevField) (x : Int) (hf : f ≠ .name) (h : fits f.kind x = true) :
    (u.putNum f x).getNum f = x := by
  cases f
  case name => exact absurd rfl hf
  case tlevel => rfl
  case acqmode | runmode | roll | tsrc | tslope | tmode | stoprej | persist | style | grat | orient | annot | curShow =>
    simp only [DevField.kind, fits, Bool.and_eq_true, decide_eq_true_eq] at h
    obtain ⟨h0, h⟩ := h
    push_cast at h
    interval_cases x <;> rfl
  all_goals
    simp only [DevField.kind, fits, Bool.and_eq_true, decide_eq_true_eq] at h
    simp only [Setup.putNum, Setup.getNum]
    omega

/-! ## Numbers of bytes -/

theorem natOf_append_singleton (bs : List Byte) (b : Byte) : natOf (bs ++ [b]) = natOf bs * 256 + b.toNat := by
  simp [natOf]

theorem natOf_lt (bs : List Byte) : natOf bs < 256 ^ bs.length := by
  induction bs using List.reverseRecOn with
  | nil => simp [natOf]
  | append_singleton bs b ih =>
    have hb : b.toNat < 256 := b.isLt
    rw [natOf_append_singleton, List.length_append, List.length_singleton, Nat.pow_succ]
    omega

/-- Chapter 11: four bytes at most give a signed 32-bit number. -/
theorem intOf_range (bs : List Byte) (h : bs.length ≤ 4) : -2147483648 ≤ intOf bs ∧ intOf bs ≤ 2147483647 := by
  have hlt := natOf_lt bs
  have hpow : 256 ^ bs.length ≤ 256 ^ 4 := Nat.pow_le_pow_right (by omega) h
  simp only [intOf]
  generalize 256 ^ bs.length = p at hlt hpow ⊢
  split <;> omega

theorem thresholdOk_intAt (bs : List Byte) (off : Nat) : thresholdOk (some (intAt bs off 4)) = true := by
  have h := intOf_range (slice bs off 4) (List.length_take_le _ _)
  simp only [thresholdOk, Bool.and_eq_true, decide_eq_true_eq]
  exact h

/-! ## Values that keep a record within its ranges -/

/-- R5, R6, R8: a value of a field within the field's range or set: a number or code that fits, a 32-bit threshold, 16
printable characters. -/
def ValueInRange (f : Field) : FieldValue → Prop
  | .number x => fits f.kind x = true
  | .limit t => thresholdOk t = true
  | .text cs => cs.length = 16 ∧ cs.all printable = true

/-- R213: what an order can offer: a threshold of 32 bits, a text of 16 bytes, any number. -/
def OfferInForm : FieldValue → Prop
  | .number _ => True
  | .limit t => thresholdOk t = true
  | .text cs => cs.length = 16

theorem chanField_numeric_le (f : ChanField) (lo hi : Int) (h : f.kind = .numeric lo hi) : lo ≤ hi := by
  cases f <;> simp only [ChanField.kind, FieldKind.numeric.injEq, reduceCtorEq] at h <;> omega

theorem devField_numeric_le (f : DevField) (lo hi : Int) (h : f.kind = .numeric lo hi) : lo ≤ hi := by
  cases f <;> simp only [DevField.kind, FieldKind.numeric.injEq, reduceCtorEq] at h <;> omega

/-- R8: no numeric field has an empty range. -/
theorem field_numeric_le (f : Field) (lo hi : Int) (h : f.kind = .numeric lo hi) : lo ≤ hi := by
  cases f with
  | chan n f => exact chanField_numeric_le f lo hi h
  | limit n q t => cases h
  | dev f => exact devField_numeric_le f lo hi h

theorem cleanName_length (cs : List Byte) : (cleanName cs).length = cs.length := by simp [cleanName]

theorem cleanName_printable (cs : List Byte) : (cleanName cs).all printable = true := by
  rw [List.all_eq_true]
  intro c hc
  obtain ⟨d, -, rfl⟩ := List.mem_map.mp hc
  by_cases h : printable d = true
  · rw [if_pos h]; exact h
  · rw [if_neg h]; rfl

theorem clampInt_mem {lo hi : Int} (x : Int) (h : lo ≤ hi) : lo ≤ clampInt lo hi x ∧ clampInt lo hi x ≤ hi := by
  simp only [clampInt]
  split
  · omega
  · split <;> omega

/-- R8: an accepted value is within the field's range or set. -/
theorem valueInRange_of_accept {f : Field} {x v : FieldValue} {c : Bool} (h : acceptValue f x = some (v, c))
    (hx : OfferInForm x) : ValueInRange f v := by
  unfold acceptValue at h
  split at h
  next lo hi x hk =>
    have hle := field_numeric_le f lo hi hk
    obtain ⟨rfl, -⟩ := by simpa using h
    simp only [ValueInRange, hk, fits, Bool.and_eq_true, decide_eq_true_eq]
    exact clampInt_mem x hle
  next count x hk =>
    split at h
    next hin =>
      obtain ⟨rfl, -⟩ := by simpa using h
      simpa [ValueInRange, hk, fits] using hin
    next => cases h
  next x hk =>
    obtain ⟨rfl, -⟩ := by simpa using h
    exact hx
  next cs hk =>
    obtain ⟨rfl, -⟩ := by simpa using h
    exact ⟨(cleanName_length cs).trans hx, cleanName_printable cs⟩
  next => cases h

/-! ## Records within their ranges -/

/-- R1, R5, R8: the fields of one channel are within their ranges and sets. -/
def ChanInRange (c : ChanSetup) : Prop :=
  (∀ f, fits (ChanField.kind f) (c.getNum f) = true) ∧ ∀ q t, thresholdOk ((c.limits.get q).get t) = true

theorem setupInRange_iff (u : Setup) : SetupInRange u ↔ (∀ n, ChanInRange (u.ch.get n)) ∧
    (∀ f, fits (DevField.kind f) (u.getNum f) = true) ∧ u.name.length = 16 ∧ u.name.all printable = true := by
  unfold SetupInRange ChanInRange
  exact ⟨fun ⟨h1, h2, h3, h4⟩ => ⟨fun n => ⟨h1 n, h3 n⟩, h2, h4⟩,
    fun ⟨h1, h2, h4⟩ => ⟨fun n => (h1 n).1, h2, fun n => (h1 n).2, h4⟩⟩

/-- A channel whose fields are replaced by others within range leaves the record within range. -/
theorem setupInRange_setChan {u : Setup} (n : Chan) {c : ChanSetup} (h : SetupInRange u) (hc : ChanInRange c) :
    SetupInRange { u with ch := u.ch.set n c } := by
  rw [setupInRange_iff] at h ⊢
  obtain ⟨hch, hdev, hname⟩ := h
  refine ⟨fun m => ?_, fun f => (congrArg _ (by cases f <;> rfl)).trans (hdev f), hname⟩
  simp only [perChan_get_set]
  split
  · exact hc
  · exact hch m

theorem chanInRange_putNum {c : ChanSetup} {f : ChanField} {x : Int} (h : ChanInRange c) (hx : fits f.kind x = true) :
    ChanInRange (c.putNum f x) := by
  refine ⟨fun g => ?_, fun q t => ?_⟩
  · rw [chan_getNum_putNum]
    split
    next hg => subst hg; rw [chan_getNum_putNum_same c g x hx]; exact hx
    next => exact h.1 g
  · rw [show (c.putNum f x).limits = c.limits by cases f <;> rfl]
    exact h.2 q t

/-- R5: limits of a channel replaced by 32-bit thresholds. -/
theorem chanInRange_setLimits {c : ChanSetup} {l : PerQuantity LimitGroup} (h : ChanInRange c)
    (hl : ∀ q t, thresholdOk ((l.get q).get t) = true) : ChanInRange { c with limits := l } :=
  ⟨fun g => (congrArg _ (by cases g <;> rfl)).trans (h.1 g), hl⟩

theorem chanInRange_putLimit {c : ChanSetup} (q : Quantity) (t : LimitType) {v : Option Int} (h : ChanInRange c)
    (hv : thresholdOk v = true) : ChanInRange (c.putLimit q t v) := by
  refine chanInRange_setLimits h fun r w => ?_
  rw [perQuantity_get_set]
  split
  next =>
    rw [limitGroup_get_set]
    split
    · exact hv
    · exact h.2 q w
  next => exact h.2 r w

theorem setupInRange_putNum {u : Setup} {f : DevField} {x : Int} (h : SetupInRange u) (hx : fits f.kind x = true) :
    SetupInRange (u.putNum f x) := by
  rw [setupInRange_iff] at h ⊢
  obtain ⟨hch, hdev, hname⟩ := h
  refine ⟨?_, fun g => ?_, ?_⟩
  · rw [show (u.putNum f x).ch = u.ch by cases f <;> rfl]; exact hch
  · rw [dev_getNum_putNum]
    split
    next hg =>
      subst hg
      by_cases hn : g = .name
      · subst hn; exact hdev _
      · rw [dev_getNum_putNum_same u g x hn hx]; exact hx
    next => exact hdev g
  · rw [show (u.putNum f x).name = u.name by cases f <;> rfl]; exact hname

theorem setupInRange_name {u : Setup} {cs : List Byte} (h : SetupInRange u) (hl : cs.length = 16)
    (hp : cs.all printable = true) : SetupInRange { u with name := cs } := by
  obtain ⟨hnum, hdev, hlim, -⟩ := h
  exact ⟨hnum, fun f => (congrArg _ (by cases f <;> rfl)).trans (hdev f), hlim, hl, hp⟩

/-- R8: a value within its field's range or set, written, leaves the record within its ranges and sets. -/
theorem setupInRange_put {u : Setup} {f : Field} {v : FieldValue} (h : SetupInRange u) (hv : ValueInRange f v) :
    SetupInRange (u.put f v) := by
  have hch := fun n => ((setupInRange_iff u).mp h).1 n
  unfold Setup.put
  split
  next n f x => exact setupInRange_setChan n h (chanInRange_putNum (hch n) hv)
  next n q t x => exact setupInRange_setChan n h (chanInRange_putLimit q t (hch n) hv)
  next cs => exact setupInRange_name h hv.1 hv.2
  next f x _ => exact setupInRange_putNum h hv
  next => exact h

/-- R21: the default setup is within its ranges and sets. -/
theorem setupInRange_default : SetupInRange Setup.default := by
  refine ⟨fun n f => ?_, fun f => ?_, fun n q t => ?_, rfl, by decide⟩
  · cases n <;> cases f <;> rfl
  · cases f <;> rfl
  · cases n <;> cases q <;> cases t <;> rfl

/-! ## Changes of the record offered by orders, images, keys and knobs -/

theorem offerInForm_of_body {f : Field} {body : List Byte} {x : FieldValue} (h : offeredValue f body = some x) :
    OfferInForm x := by
  unfold offeredValue at h
  split at h
  next =>
    split at h
    next hl =>
      obtain rfl := by simpa using h
      simp [OfferInForm, hl]
    next => cases h
  next =>
    split at h
    next =>
      split at h
      next => obtain rfl := by simpa using h
              rfl
      next => obtain rfl := by simpa using h
              exact thresholdOk_intAt body 3
      next => cases h
    next => cases h
  all_goals
    split at h
    next => obtain rfl := by simpa using h
            trivial
    next => cases h

/-- R22: a key's change of ON is the writing of that field. -/
theorem toggled_eq_put (u : Setup) (n : Chan) :
    toggled u n = u.put (.chan n .on) (.number (boolCode (!(u.ch.get n).on))) := by
  unfold toggled Setup.put ChanSetup.putNum
  cases (u.ch.get n).on <;> rfl

theorem setupInRange_toggled {u : Setup} (n : Chan) (h : SetupInRange u) : SetupInRange (toggled u n) := by
  rw [toggled_eq_put]
  refine setupInRange_put h ?_
  cases (u.ch.get n).on <;> rfl

/-- R8, R153: the record a batch of a knob offers is within its ranges and sets. -/
theorem setupInRange_batchSetup {u : Setup} (b : KnobBinding) (steps : Int) (h : SetupInRange u) :
    SetupInRange (batchSetup u b steps) := by
  unfold batchSetup
  split
  next v _ =>
    split
    next x c hx => exact setupInRange_put h (valueInRange_of_accept hx trivial)
    next => exact h
  next => exact h

theorem thresholdOk_imageGroup (img : List Byte) (off : Nat) (t : LimitType) :
    thresholdOk ((imageGroup img off).get t) = true := by
  unfold imageGroup
  cases t
  all_goals
    simp only [LimitGroup.get]
    split
    · exact thresholdOk_intAt _ _
    · rfl

/-- R218: an item read from an image leaves the record within its ranges and sets. -/
theorem setupInRange_readItem {img : List Byte} {acc acc' : Setup × Nat} {i : ImageItem} (h : SetupInRange acc.1)
    (hr : readItem img acc i = .ok acc') : SetupInRange acc'.1 := by
  cases i with
  | field off bytes signed f =>
    simp only [readItem] at hr
    split at hr
    next v c hv =>
      obtain rfl := by simpa using hr
      exact setupInRange_put h (valueInRange_of_accept hv trivial)
    next => cases hr
  | group off n q =>
    simp only [readItem] at hr
    split at hr
    next =>
      obtain rfl := by simpa using hr
      have hn := ((setupInRange_iff acc.1).mp h).1 n
      refine setupInRange_setChan n h (chanInRange_setLimits hn fun r t => ?_)
      rw [perQuantity_get_set]
      split
      · exact thresholdOk_imageGroup img off t
      · exact hn.2 r t
    next => cases hr

theorem setupInRange_readItems {img : List Byte} {items : List ImageItem} {acc acc' : Setup × Nat}
    (h : SetupInRange acc.1) (hr : readItems img items acc = .ok acc') : SetupInRange acc'.1 := by
  induction items generalizing acc with
  | nil =>
    obtain rfl := by simpa [readItems] using hr
    exact h
  | cons i rest ih =>
    simp only [readItems] at hr
    split at hr
    next acc1 h1 => exact ih (setupInRange_readItem h h1) hr
    next => cases hr

/-- R20, R218: the record that an image of 512 bytes offers is within its ranges and sets. -/
theorem setupInRange_readImage {img : List Byte} {u : Setup} {c : Nat} (hl : img.length = 512)
    (hr : readImage img = .ok (u, c)) : SetupInRange u := by
  unfold readImage at hr
  split at hr
  next u1 c1 h1 =>
    simp only [Except.ok.injEq, Prod.mk.injEq] at hr
    obtain ⟨rfl, -⟩ := hr
    refine setupInRange_name (setupInRange_readItems setupInRange_default h1) ?_ (cleanName_printable _)
    rw [cleanName_length, slice, List.length_take, List.length_drop]
    omega
  next => cases hr

end Sys2Proof.Machine
end

section
/-! SUPPORT. Every step keeps the record within its ranges and sets: the store's jobs, the panel, then the rows one by one. -/

namespace Sys2Proof.Machine

/-! ## A property that a step keeps -/

/-- The outcome's next state, where it has one, has a property. -/
def NextMeets (P : State → Prop) (o : Host.Outcome State Fault Refusal) : Prop := ∀ t, o = .next t → P t

theorem nextMeets_next {P : State → Prop} {t : State} (h : P t) : NextMeets P (.next t) := by
  rintro u ⟨⟩
  exact h

/-- R197: an effect that keeps a property keeps it while RESET_N is low too. -/
theorem live_keeps {P : State → Prop} {f : State → State} {s : State} (h : P s) (hf : P s → P (f s)) :
    NextMeets P (live f s) := by
  unfold live
  split
  · exact nextMeets_next h
  · exact nextMeets_next (hf h)

theorem codesRow_keeps {P : State → Prop} {f : State → State} {s : State} (h : P s) (hf : P s → P (f s)) :
    NextMeets P (codesRow f s) := by
  unfold codesRow
  split
  · exact nextMeets_next h
  · split
    · exact nextMeets_next (hf h)
    · rintro u ⟨⟩

/-- R202: a property that the order queues do not touch and the order's block keeps is kept by the order. -/
theorem order_keeps {P : State → Prop} (hP : ∀ u v : State, P u → v.setup = u.setup → v.store = u.store → P v)
    {kind tag : Byte} {lenOk : Nat → Bool} {body : List Byte} {act : State → State} {s : State} (h : P s)
    (hact : lenOk body.length = true → ∀ u, P u → P (act u)) : NextMeets P (order kind lenOk tag body act s) := by
  refine live_keeps h fun _ => ?_
  have hhead : P (atHead ⟨kind, tag, body⟩ s) := by
    unfold atHead
    split
    · exact h
    · exact hP _ _ h (by simp) (by simp)
  simp only [dispatchOrder]
  split
  · split
    next hlen => exact hact hlen _ (hP _ _ hhead (by simp) (by simp))
    · exact hP _ _ hhead (by simp) (by simp)
  · exact hhead

/-- A property of the state kept by every row and by the passing of a tick is kept by every step. -/
theorem step_keeps {P : State → Prop} (hP : ∀ u v : State, P u → v.setup = u.setup → v.store = u.store → P v)
    (hexec : ∀ i u, P u → NextMeets P (exec i u)) (htick : ∀ u, P u → P (passTick u)) {s : State} (h : P s) :
    NextMeets P (step s) := by
  unfold step
  split
  next i rest _ => exact hexec i _ (hP _ _ h rfl rfl)
  next =>
    split
    next i _ => exact hexec i s h
    next => exact codesRow_keeps h (htick s)

/-! ## The record and the pages read -/

/-- The phase of a job holds no page of another size than 256 bytes (R167). -/
def PhaseOk (p : JobPhase) : Prop := ∀ why pages, p = .classify why pages → ∀ q ∈ pages, q.length = 256

/-- What every step keeps: the record within its ranges and sets, the pages read of 256 bytes. -/
def SetupOk (s : State) : Prop := SetupInRange s.setup ∧ PagesOk s

theorem phaseOk_start (why : ClassifyFor) : PhaseOk (.classify why []) := by
  rintro w pages ⟨⟩ q hq
  cases hq

theorem PagesOk.phase {s : State} {r : Running} (h : PagesOk s) (hr : s.store.running = some r) : PhaseOk r.phase :=
  fun why pages => h r why pages hr

theorem pagesOk_of_phase {s : State} (h : ∀ r, s.store.running = some r → PhaseOk r.phase) : PagesOk s :=
  fun r why pages hr => h r hr why pages

theorem pagesOk_of_none {s : State} (h : s.store.running = none) : PagesOk s :=
  pagesOk_of_phase fun r hr => by rw [h] at hr; cases hr

theorem PagesOk.of_running {s t : State} (h : PagesOk s) (he : t.store.running = s.store.running) : PagesOk t :=
  fun r why pages hr => h r why pages (he ▸ hr)

theorem SetupOk.of_eq {s t : State} (h : SetupOk s) (hs : t.setup = s.setup) (hr : t.store.running = s.store.running) :
    SetupOk t :=
  ⟨hs ▸ h.1, h.2.of_running hr⟩

theorem SetupOk.of_store {s t : State} (h : SetupOk s) (hs : t.setup = s.setup) (hr : t.store = s.store) : SetupOk t :=
  h.of_eq hs (by rw [hr])

/-- R11: a record within its ranges, adopted. -/
theorem setupOk_adopt {u : Setup} {s : State} (h : SetupOk s) (hu : SetupInRange u) : SetupOk (adopt u s) :=
  ⟨(adopt_record u s).1.symm ▸ hu, h.2.of_running (by simp)⟩

/-! ## The running job -/

theorem setupOk_setPhase {p : JobPhase} {s : State} (h : SetupOk s) (hp : PhaseOk p) : SetupOk (setPhase p s) := by
  refine ⟨by simpa using h.1, pagesOk_of_phase fun r hr => ?_⟩
  obtain ⟨r0, -, rfl⟩ := Option.map_eq_some_iff.mp hr
  exact hp

theorem setupOk_setAltered {s : State} (h : SetupOk s) : SetupOk (setAltered s) := by
  refine ⟨by simpa using h.1, pagesOk_of_phase fun r hr => ?_⟩
  obtain ⟨r0, hr0, rfl⟩ := Option.map_eq_some_iff.mp hr
  exact (h.2.phase hr0 :)

theorem setupOk_setDir {s : State} (k : Nat) (e : DirEntry) (h : SetupOk s) : SetupOk (setDir k e s) :=
  h.of_eq (by simp) (by simp)

theorem setupOk_endJob {r : JobResult} {s : State} (h : SetupOk s) : SetupOk (endJob r s) := by
  refine ⟨by simpa using h.1, ?_⟩
  unfold endJob
  split
  next => exact h.2
  next => exact pagesOk_of_none (by split <;> simp)

theorem setupOk_finishAbandoned {r : Running} {s : State} (h : SetupOk s) : SetupOk (finishAbandoned r s) := by
  unfold finishAbandoned
  split
  · exact setupOk_setPhase h (phaseOk_start _)
  · exact setupOk_endJob h

/-- R175, R177, R178: a job goes on from its start check with no page read. -/
theorem phaseOk_startDecision {j : StoreJob} {e : DirEntry} {p : JobPhase} (h : startDecision j e = .ok p) : PhaseOk p := by
  rintro why pages rfl
  have hp : pages = [] := by
    unfold startDecision at h
    (repeat' split at h) <;> simp_all
  simp [hp]

theorem setupOk_applyDecision {d : Except JobResult JobPhase} {s : State} (h : SetupOk s) (hd : ∀ p, d = .ok p → PhaseOk p) :
    SetupOk (applyDecision d s) := by
  cases d with
  | ok p => exact setupOk_setPhase h (hd p rfl)
  | error r => exact setupOk_endJob h

theorem phaseOk_of_not_classify {p : JobPhase} (h : ∀ why pages, p ≠ .classify why pages) : PhaseOk p :=
  fun why pages hp => absurd hp (h why pages)

/-- R169, R176: a complete classification; a recall takes an image of 512 bytes. -/
theorem setupOk_classified {j : StoreJob} {r : Running} {why : ClassifyFor} {header body : List Byte} {s : State}
    (h : SetupOk s) (hb : body.length = 512) : SetupOk (classified j r why header body s) := by
  have h1 := setupOk_setDir j.slot (classifySlot j.slot header body) h
  unfold classified
  cases why with
  | refresh res => exact setupOk_endJob h1
  | startCheck =>
    simp only
    split
    · exact setupOk_finishAbandoned h1
    · exact setupOk_applyDecision h1 fun p hp => phaseOk_startDecision hp
  | protectOff =>
    simp only
    split
    · exact setupOk_finishAbandoned h1
    · split
      next => exact setupOk_setPhase h1 (phaseOk_of_not_classify (by simp))
      all_goals exact setupOk_endJob h1
  | _ => -- a recall
    simp only
    split
    · exact setupOk_finishAbandoned h1
    · split
      next =>
        split
        next u c hu => exact setupOk_endJob (setupOk_adopt h1 (setupInRange_readImage hb hu))
        next => exact setupOk_endJob h1
      all_goals exact setupOk_endJob h1

theorem setupOk_jobRead {j : StoreJob} {r : Running} {page : List Byte} {s : State} (h : SetupOk s)
    (hr : s.store.running = some r) (hp : page.length = 256) : SetupOk (jobRead j r page s) := by
  unfold jobRead
  split
  next why pages hphase =>
    have hpages := h.2.phase hr why pages hphase
    split
    next hd b =>
      have hb : b.length = 256 := hpages b (by simp)
      exact setupOk_classified h (by rw [List.length_append, hb, hp])
    next =>
      split
      · exact setupOk_finishAbandoned h
      · refine setupOk_setPhase h ?_
        rintro w qs ⟨⟩ q hq
        rcases List.mem_append.mp hq with hq | hq
        · exact hpages q hq
        · rw [List.mem_singleton.mp hq, hp]
  next => exact h

theorem setupOk_readDone {page : List Byte} {s : State} (h : SetupOk s) (hp : page.length = 256) :
    SetupOk (readDone page s) := by
  unfold readDone
  split
  next r j rest hr hq => exact setupOk_jobRead h hr hp
  next => exact h.of_eq (by simp) (by simp)
  next => exact h

theorem setupOk_jobProgrammed {j : StoreJob} {p : JobPhase} {data : List Byte} {s : State} (h : SetupOk s) :
    SetupOk (jobProgrammed j p data s) := by
  have hnext : ∀ q : JobPhase, (∀ why pages, q ≠ .classify why pages) → SetupOk (setPhase q s) :=
    fun q hq => setupOk_setPhase h (phaseOk_of_not_classify hq)
  have hend : ∀ e, SetupOk (endJob .done (setDir j.slot e s)) := fun e => setupOk_endJob (setupOk_setDir _ e h)
  cases p with
  | saveBody1 | saveBody2 | offBody1 hd b | offBody2 hd b => exact hnext _ (by simp)
  | saveHeader | offHeader hd b => exact hend _
  | protectOn =>
    simp only [jobProgrammed]
    split
    · exact hend _
    · exact setupOk_endJob h
  | classify why pages | saveErase | eraseSector | offErase hd b => exact h

theorem setupOk_jobErased {j : StoreJob} {p : JobPhase} {s : State} (h : SetupOk s) : SetupOk (jobErased j p s) := by
  unfold jobErased
  split
  · exact setupOk_setPhase h (phaseOk_of_not_classify (by simp))
  · exact setupOk_endJob (setupOk_setDir _ _ h)
  · exact setupOk_setPhase h (phaseOk_of_not_classify (by simp))
  · exact h

theorem setupOk_alteredThen {f : StoreJob → JobPhase → State → State} {s : State} (h : SetupOk s)
    (hf : ∀ j p u, SetupOk u → SetupOk (f j p u)) : SetupOk (alteredThen f s) := by
  unfold alteredThen
  split
  next =>
    simp only
    split
    · exact setupOk_finishAbandoned (setupOk_setAltered h)
    · exact hf _ _ _ (setupOk_setAltered h)
  next => exact h

theorem setupOk_jobTimeout {j : StoreJob} {r : Running} {s : State} (h : SetupOk s) : SetupOk (jobTimeout j r s) := by
  have hd := setupOk_setDir j.slot .unknown h
  unfold jobTimeout
  split
  · exact setupOk_endJob hd
  · exact setupOk_endJob hd
  · exact setupOk_setPhase hd (phaseOk_start _)
  · exact setupOk_setPhase hd (phaseOk_start _)
  · exact setupOk_setPhase h (phaseOk_start _)

theorem setupOk_stepTimeout {s : State} (h : SetupOk s) : SetupOk (stepTimeout s) := by
  have h1 : SetupOk (monOccur (flagBit flagStoreFault) s) := h.of_store (by simp) (by simp)
  simp only [stepTimeout]
  split
  next => exact setupOk_jobTimeout h1
  next => exact h1.of_eq (by simp) (by simp)
  next => exact h1

theorem foldl_autosaveActs_frame (b : Bool) (js : List StoreJob) (s : State) :
    (js.foldl (autosaveActs b) s).setup = s.setup ∧ (js.foldl (autosaveActs b) s).store.running = s.store.running := by
  induction js generalizing s with
  | nil => exact ⟨rfl, rfl⟩
  | cons j js ih => simpa using ih (autosaveActs b s j)

/-- R167: the end of a step with an effect. -/
theorem setupOk_endStep {f : State → State} {s : State} (h : SetupOk s) (hf : ∀ u, SetupOk u → SetupOk (f u)) :
    SetupOk (endStep f s) := by
  have h1 := hf { s with store := { s.store with step := none, autosaves := [] } } (h.of_eq rfl rfl)
  unfold endStep
  obtain ⟨hs, hr⟩ := foldl_autosaveActs_frame s.store.scan.isSome s.store.autosaves
    (startStep (lendIfAsked (f { s with store := { s.store with step := none, autosaves := [] } })))
  exact h1.of_eq (hs.trans (by simp)) (hr.trans (by simp))

theorem setupOk_startJobNow {s : State} (h : SetupOk s) : SetupOk (startJobNow s) := by
  unfold startJobNow
  split
  next => exact h
  next j rest _ =>
    split
    next p hp =>
      refine SetupOk.of_eq (s := { s with store := { s.store with running := some ⟨p, false, false⟩ } })
        ⟨h.1, pagesOk_of_phase ?_⟩ (by simp) (by simp)
      rintro r ⟨⟩
      exact phaseOk_startDecision hp
    next => exact setupOk_endJob h

/-- R186: RESTART ends the head job. -/
theorem setupOk_storeAbandon {s : State} (h : SetupOk s) : SetupOk (storeAbandon s) := by
  unfold storeAbandon
  split
  next => exact setupOk_endJob h
  next r hr =>
    split
    next => exact h
    next =>
      split
      · refine ⟨h.1, pagesOk_of_phase ?_⟩
        rintro r' ⟨⟩
        exact (h.2.phase hr :)
      · exact (setupOk_finishAbandoned (r := r) h).of_eq (by simp) (by simp)

theorem restartBlocks_record (s : State) :
    (restartBlocks s).setup = s.setup ∧ (restartBlocks s).store.running = s.store.running := by
  simp [restartBlocks, powerRestart, acqRestart]

theorem setupOk_restartPart {tag : Byte} {s : State} (h : SetupOk s) : SetupOk (restartPart tag s) := by
  have hblocks : SetupOk (restartBlocks { s with link := { s.link with inbound := [] } }) :=
    h.of_eq (restartBlocks_record _).1 (restartBlocks_record _).2
  simp only [restartPart]
  refine SetupOk.of_store (setupOk_storeAbandon (hblocks.of_store ?_ ?_)) (rebuildAnnotation_frame _).1 (by simp)
  · simp [clearLink]
  · simp [clearLink]

theorem setupOk_coldState (s : State) : SetupOk (coldState s) := by
  refine ⟨?_, pagesOk_of_none ?_⟩
  · rw [show (coldState s).setup = Setup.default by simp [coldState, State.reset]]
    exact setupInRange_default
  · simp [coldState, State.reset, Store.cold]

/-! ## The panel -/

theorem setupInRange_runAction {a : KeyAction} {s : State} (h : SetupInRange s.setup) :
    SetupInRange (runAction a s).1.setup := by
  cases a with
  | chan n => rw [runAction, (adopt_record _ s).1]; exact setupInRange_toggled n h
  | defaults => rw [runAction, (adopt_record _ s).1]; exact setupInRange_default
  | runstop =>
    simp only [runAction]
    split <;> simpa using h
  | nothing | wake | single | force | clear => simpa [runAction] using h
  | _ k => -- a save or a recall
    simp only [runAction, actJob]
    split <;> simpa using h

theorem setupInRange_pressInOn {k : Nat} {s : State} (h : SetupInRange s.setup) : SetupInRange (pressInOn k s).setup := by
  unfold pressInOn
  split
  next => simpa using h
  next b _ =>
    split
    · simpa using h
    · split
      · simpa using h
      · simpa using setupInRange_runAction (a := b.action) h

theorem setupInRange_pressInStandby {k : Nat} {s : State} (h : SetupInRange s.setup) :
    SetupInRange (pressInStandby k s).setup := by
  unfold pressInStandby
  split
  next =>
    split
    · simpa using h
    · exact h
  next => exact h

theorem setupInRange_pressKey {k : Nat} {s : State} (h : SetupInRange s.setup) : SetupInRange (pressKey k s).setup := by
  have h1 : SetupInRange (activity (setKey k { keyAt s k with down := true, count := 0 } s)).setup := by simpa using h
  simp only [pressKey]
  split
  · exact setupInRange_pressInOn h1
  · simpa [pressInDark] using h1
  · exact setupInRange_pressInStandby h1

theorem setupInRange_offerBatch {n : Nat} {b : KnobBinding} {s : State} (h : SetupInRange s.setup) :
    SetupInRange (offerBatch n b s).setup := by
  simp only [offerBatch]
  split
  · exact h
  · rw [(adopt_record _ _).1]
    exact setupInRange_batchSetup b _ h

theorem setupInRange_countDetent {n : Nat} {d : Dir} {s : State} (h : SetupInRange s.setup) :
    SetupInRange (countDetent n d s).setup := by
  simp only [countDetent]
  split
  · simpa using h
  · exact setupInRange_offerBatch (by simpa using h)

theorem setupInRange_takeDetent {n : Nat} {d : Dir} {s : State} (h : SetupInRange s.setup) :
    SetupInRange (takeDetent n d s).setup := by
  have h1 : SetupInRange (activity s).setup := by simpa using h
  simp only [takeDetent]
  split
  · split
    · exact h1
    · exact setupInRange_countDetent h1
  · simpa using h1
  · exact h1

theorem setupInRange_batchResult {n : Nat} {s : State} (h : SetupInRange s.setup) : SetupInRange (batchResult n s).setup := by
  simp only [batchResult]
  split
  · exact setupInRange_offerBatch (by simpa using h)
  · simpa using h

/-! ## The scans and the codes -/

theorem setupInRange_scanKey {k : Nat} {s : State} (h : SetupInRange s.setup) : SetupInRange (scanKey s k).setup := by
  simp only [scanKey]
  split
  · split
    · exact h
    · simpa using h
  · split
    · simpa using h
    · split
      · exact setupInRange_pressKey h
      · simpa using h

theorem setupInRange_scanKnob {n : Nat} {s : State} (h : SetupInRange s.setup) : SetupInRange (scanKnob s n).setup := by
  have h1 : ∀ x : Knob, SetupInRange (if x = knobAt s n then s else setKnob n x s).setup := fun x => by
    split
    · exact h
    · simpa using h
  simp only [scanKnob]
  split
  · exact setupInRange_takeDetent (h1 _)
  · exact h1 _

/-- A property of the record that each of a list of steps keeps. -/
theorem foldl_keeps {α : Type} {P : State → Prop} {f : State → α → State} (hf : ∀ s x, P s → P (f s x)) (xs : List α)
    (s : State) (h : P s) : P (xs.foldl f s) := by
  induction xs generalizing s with
  | nil => exact h
  | cons x xs ih => exact ih (f s x) (hf s x h)

theorem setupInRange_scansAt {s : State} (h : SetupInRange s.setup) : SetupInRange (scansAt s).setup := by
  have hknobs : SetupInRange (scanKnobs s).setup :=
    foldl_keeps (P := fun u => SetupInRange u.setup) (fun _ _ => setupInRange_scanKnob) _ s h
  have hkeys : ∀ u : State, SetupInRange u.setup → SetupInRange (scanKeys u).setup := fun u hu => by
    unfold scanKeys
    rw [(foldl_scanRepeat_frame _ _).1]
    exact foldl_keeps (P := fun u => SetupInRange u.setup) (fun _ _ => setupInRange_scanKey) _ u hu
  have h1 : SetupInRange (if ticksSinceReset s % 15625 = 0 then scanKnobs s else s).setup := by
    split
    · exact hknobs
    · exact h
  simp only [scansAt]
  by_cases hk : ticksSinceReset s % 125000 = 0
  · rw [if_pos hk]
    exact hkeys _ h1
  · rw [if_neg hk]
    exact h1

theorem setupInRange_passCode {s : State} (x : Sample) (h : SetupInRange s.setup) : SetupInRange (passCode s x).setup := by
  have h1 : SetupInRange (takeCode s x).setup := by simpa using h
  simp only [passCode, scanAtTick]
  split
  · exact setupInRange_scansAt h1
  · exact h1

theorem setupOk_passCodes {s : State} (xs : List Sample) (h : SetupOk s) : SetupOk (passCodes xs s) :=
  ⟨foldl_keeps (P := fun u => SetupInRange u.setup) (fun _ x => setupInRange_passCode x) xs s h.1,
    h.2.of_running (by simp)⟩

end Sys2Proof.Machine
end

section
/-! SUPPORT. Every row keeps the record within its ranges and sets; the statement of it for a step (O53). -/

namespace Sys2Proof.Machine

/-! ## Rows that leave the record and the running job as they were -/

/-- The record and the running job of the store are as they were. -/
def SameRecord (s t : State) : Prop := t.setup = s.setup ∧ t.store.running = s.store.running

theorem SameRecord.trans {s t u : State} (h : SameRecord s t) (h' : SameRecord t u) : SameRecord s u :=
  ⟨h'.1.trans h.1, h'.2.trans h.2⟩

theorem NextMeets.setupOk {s : State} {o : Host.Outcome State Fault Refusal} (h : NextMeets (SameRecord s) o)
    (hs : SetupOk s) : NextMeets SetupOk o :=
  fun t ht => hs.of_eq (h t ht).1 (h t ht).2

theorem live_same {f : State → State} {s : State} (hf : SameRecord s (f s)) : NextMeets (SameRecord s) (live f s) :=
  live_keeps ⟨rfl, rfl⟩ fun _ => hf

theorem order_same {kind tag : Byte} {lenOk : Nat → Bool} {body : List Byte} {act : State → State} {s : State}
    (hact : ∀ u, SameRecord u (act u)) : NextMeets (SameRecord s) (order kind lenOk tag body act s) :=
  order_keeps (fun _ _ h hs hr => h.trans ⟨hs, by rw [hr]⟩) ⟨rfl, rfl⟩ fun _ u hu => hu.trans (hact u)

theorem atHead_same (f : Frame) (s : State) : SameRecord s (atHead f s) := by
  unfold atHead
  split
  · exact ⟨rfl, rfl⟩
  · exact ⟨by simp, by simp⟩

theorem requestOn_same (c : MoveCause) (s : State) : SameRecord s (requestOn c s) := by
  unfold requestOn SameRecord
  split <;> simp

theorem requestStandby_same (c : MoveCause) (s : State) : SameRecord s (requestStandby c s) := by
  unfold requestStandby SameRecord
  split <;> simp

theorem requestDark_same (c : MoveCause) (s : State) : SameRecord s (requestDark c s) := by
  unfold requestDark SameRecord
  split <;> simp

theorem whenDue_keeps {P : State → Prop} {due : State → Bool} {f : State → State} {s : State} (h : P s) (hf : P (f s)) :
    P (whenDue due f s) := by
  unfold whenDue
  split
  · exact hf
  · exact h

/-! ## The rows of LINK and of time -/

theorem selectPeriodStart_same (s : State) : NextMeets (SameRecord s) (execSelectPeriodStart s) := by
  unfold execSelectPeriodStart
  (repeat' split) <;> exact nextMeets_next (by simp [SameRecord])

theorem selectPeriodEnd_same (bytes : List Byte) (stray : List Bool) (s : State) :
    NextMeets (SameRecord s) (execSelectPeriodEnd bytes stray s) := by
  unfold execSelectPeriodEnd
  split
  · exact nextMeets_next ⟨rfl, rfl⟩
  · split
    · exact nextMeets_next (by simp [SameRecord])
    · refine nextMeets_next ?_
      split <;> simp [SameRecord]

theorem orderBadKind_same (kind tag : Byte) (body : List Byte) (s : State) :
    NextMeets (SameRecord s) (execOrderBadKind kind tag body s) := by
  refine live_same ?_
  simp only
  split
  · exact ⟨rfl, rfl⟩
  · have h := atHead_same ⟨kind, tag, body⟩ s
    split
    · exact h.trans (by simp [SameRecord])
    · exact h

theorem drawColumn_same (s : State) : NextMeets (SameRecord s) (execDrawColumn s) := by
  unfold execDrawColumn
  (repeat' split) <;> simp [NextMeets, SameRecord]

theorem waveReadDone_same (s : State) : NextMeets (SameRecord s) (execWaveReadDone s) := by
  unfold execWaveReadDone
  (repeat' split) <;> simp [NextMeets, SameRecord]

theorem laneConditionChange_same (n : Chan) (lock : Bool) (s : State) :
    NextMeets (SameRecord s) (execLaneConditionChange n lock s) := by
  simp only [execLaneConditionChange]
  split
  · exact nextMeets_next ⟨rfl, rfl⟩
  · exact nextMeets_next (by simp [SameRecord])

theorem drawJobStart_same (s : State) : NextMeets (SameRecord s) (execDrawJobStart s) := by
  have h := whenDue_keeps (due := releaseDue) (f := armHeld) (P := SameRecord s) ⟨rfl, rfl⟩ (by simp [SameRecord])
  exact live_same (h.trans (by simp [SameRecord]))

theorem frameEvent_same (s : State) : NextMeets (SameRecord s) (execFrameEvent s) := by
  refine live_same ?_
  split
  · split
    · simp [SameRecord]
    · exact ⟨rfl, rfl⟩
  · exact ⟨rfl, rfl⟩

/-! ## The rows that may write the record or move the running job on -/

theorem setupOk_order {kind tag : Byte} {lenOk : Nat → Bool} {body : List Byte} {act : State → State} {s : State}
    (h : SetupOk s) (hact : lenOk body.length = true → ∀ u, SetupOk u → SetupOk (act u)) :
    NextMeets SetupOk (order kind lenOk tag body act s) :=
  order_keeps (fun _ _ => SetupOk.of_store) h hact

theorem setupOk_answer {kind tag : Byte} {st : Status} {items : List Byte} {s : State} (h : SetupOk s) :
    SetupOk (answer kind tag st items s) :=
  h.of_store (by simp) (by simp)

theorem fieldSet_keeps {tag : Byte} {body : List Byte} {s : State} (h : SetupOk s) :
    NextMeets SetupOk (execFieldSet tag body s) := by
  refine setupOk_order h fun _ u hu => ?_
  simp only
  split
  · exact setupOk_answer hu
  · split
    · exact setupOk_answer hu
    next f _ x hx =>
      split
      · exact setupOk_answer hu
      next v c hv =>
        exact setupOk_answer (setupOk_adopt hu (setupInRange_put hu.1 (valueInRange_of_accept hv (offerInForm_of_body hx))))

theorem setupWrite_keeps {tag : Byte} {body : List Byte} {s : State} (h : SetupOk s) :
    NextMeets SetupOk (execSetupWrite tag body s) := by
  refine setupOk_order h fun hl u hu => ?_
  split
  next w clamps hw => exact setupOk_answer (setupOk_adopt hu (setupInRange_readImage (by simpa [lenIs] using hl) hw))
  next => exact setupOk_answer hu

theorem setupDefault_keeps {tag : Byte} {body : List Byte} {s : State} (h : SetupOk s) :
    NextMeets SetupOk (execSetupDefault tag body s) :=
  setupOk_order h fun _ _ hu => setupOk_answer (setupOk_adopt hu setupInRange_default)

theorem flashReadPageEnd_keeps {page : Vector Byte 256} {s : State} (h : SetupOk s) :
    NextMeets SetupOk (execFlashReadPageEnd page s) := by
  refine live_keeps h fun hs => ?_
  split
  · split
    · exact setupOk_endStep hs fun u hu => setupOk_readDone hu (by simp)
    · exact hs
  · exact hs

theorem flashProgramPageEnd_keeps {s : State} (h : SetupOk s) : NextMeets SetupOk (execFlashProgramPageEnd s) := by
  refine live_keeps h fun hs => ?_
  split
  · split
    · split
      · exact setupOk_endStep hs fun u hu => setupOk_alteredThen hu fun _ _ _ => setupOk_jobProgrammed
      · exact hs
    · exact hs
  · exact hs

theorem flashEraseSectorEnd_keeps {s : State} (h : SetupOk s) : NextMeets SetupOk (execFlashEraseSectorEnd s) := by
  refine live_keeps h fun hs => ?_
  split
  · split
    · exact setupOk_endStep hs fun u hu => setupOk_alteredThen hu fun _ _ _ => setupOk_jobErased
    · exact hs
  · exact hs

theorem flashStepTimeout_keeps {s : State} (h : SetupOk s) : NextMeets SetupOk (execFlashStepTimeout s) := by
  refine live_keeps h fun hs => ?_
  split
  · exact setupOk_endStep hs fun _ => setupOk_stepTimeout
  · exact hs

theorem keyPress_keeps {key : Fin 64} {s : State} (h : SetupOk s) : NextMeets SetupOk (execKeyPress key s) := by
  refine live_keeps (h.of_eq (by simp) (by simp)) fun hs => ?_
  split
  · exact hs
  · exact ⟨setupInRange_pressKey hs.1, hs.2.of_running (by simp)⟩

theorem knobDetent_keeps {knob : Fin 8} {dir : Dir} {s : State} (h : SetupOk s) :
    NextMeets SetupOk (execKnobDetent knob dir s) := by
  refine live_keeps (h.of_eq (by simp) (by simp)) fun hs => ?_
  exact ⟨setupInRange_takeDetent (by simpa using hs.1), hs.2.of_running (by simp)⟩

theorem knobBatchResult_keeps {knob : Fin 8} {s : State} (h : SetupOk s) : NextMeets SetupOk (execKnobBatchResult knob s) := by
  refine live_keeps h fun hs => ?_
  split
  · refine ⟨setupInRange_batchResult hs.1, hs.2.of_running ?_⟩
    simp only [batchResult]
    split <;> simp
  · exact hs

theorem edgeTrigger_keeps {codes : List Sample} {s : State} (h : SetupOk s) : NextMeets SetupOk (execEdgeTrigger codes s) :=
  codesRow_keeps h (setupOk_passCodes codes)

theorem pointWritten_keeps {codes : List Sample} {s : State} (h : SetupOk s) :
    NextMeets SetupOk (execPointWritten codes s) := by
  refine codesRow_keeps h fun hs => ?_
  have h1 := setupOk_passCodes codes hs
  simp only
  split
  · exact h1.of_eq (by simp) (by simp)
  · exact h1

theorem rollColumn_keeps {codes : List Sample} {s : State} (h : SetupOk s) : NextMeets SetupOk (execRollColumn codes s) := by
  refine codesRow_keeps h fun hs => ?_
  have h1 := setupOk_passCodes codes hs
  simp only
  split
  · exact h1.of_eq (by simp) (by simp)
  · exact h1

/-- R8: every row keeps the record within its ranges and sets, with the pages read. -/
theorem exec_keeps (i : Instr) {s : State} (h : SetupOk s) : NextMeets SetupOk (exec i s) := by
  cases i with
  | coldReset => exact nextMeets_next (setupOk_coldState s)
  | resetNLow => exact nextMeets_next (h.of_eq rfl rfl)
  | selectPeriodStart => exact (selectPeriodStart_same s).setupOk h
  | selectPeriodEnd bytes stray => exact (selectPeriodEnd_same bytes stray s).setupOk h
  | orderBadKind kind tag body => exact (orderBadKind_same kind tag body s).setupOk h
  | drawColumn => exact (drawColumn_same s).setupOk h
  | waveReadDone => exact (waveReadDone_same s).setupOk h
  | laneConditionChange n lock => exact (laneConditionChange_same n lock s).setupOk h
  | restart tag body => exact setupOk_order h fun _ _ => setupOk_restartPart
  | fieldSet tag body => exact fieldSet_keeps h
  | setupWrite tag body => exact setupWrite_keeps h
  | setupDefault tag body => exact setupDefault_keeps h
  | flashReadPageEnd page => exact flashReadPageEnd_keeps h
  | flashProgramPageEnd => exact flashProgramPageEnd_keeps h
  | flashEraseSectorEnd => exact flashEraseSectorEnd_keeps h
  | flashStepTimeout => exact flashStepTimeout_keeps h
  | storeJobStart => exact live_keeps h fun hs => whenDue_keeps hs (setupOk_startJobNow hs)
  | keyPress key => exact keyPress_keeps h
  | knobDetent knob dir => exact knobDetent_keeps h
  | knobBatchResult knob => exact knobBatchResult_keeps h
  | edgeTrigger codes => exact edgeTrigger_keeps h
  | pointWritten codes => exact pointWritten_keeps h
  | rollColumn codes => exact rollColumn_keeps h
  | keyRelease key =>
    refine live_keeps (h.of_eq (by simp) (by simp)) fun hs => ?_
    split
    · exact hs.of_eq (by simp) (by simp)
    · exact hs
  | power tag body =>
    refine (order_same fun u => ?_).setupOk h
    have hreq : ∀ v, SameRecord u v → SameRecord u (answerPower tag v) := fun v hv =>
      hv.trans (by simp [answerPower, SameRecord])
    split
    · exact hreq _ (requestOn_same _ u)
    · split
      · simp [SameRecord]
      · exact hreq _ (requestDark_same _ u)
    · exact hreq _ (requestStandby_same _ u)
    · simp [SameRecord]
  | idleTimerExpiry =>
    exact (live_same (whenDue_keeps (P := SameRecord s) ⟨rfl, rfl⟩ (requestDark_same .idle s))).setupOk h
  | segmentReady | autoTrigger | captureEnd | columnsLeftZero | armAtRelease =>
    exact (live_same (whenDue_keeps (P := SameRecord s) ⟨rfl, rfl⟩ (by simp [SameRecord]))).setupOk h
  | drawJobStart => exact (drawJobStart_same s).setupOk h
  | frameEvent => exact (frameEvent_same s).setupOk h
  | frameComplete bytes | lenAbove1024 bytes => exact (live_same (by simp [SameRecord])).setupOk h
  | frameSent | keyRepeat key =>
    refine (live_same ?_).setupOk h
    (repeat' split) <;> simp [SameRecord]
  | _ tag body =>
    refine (order_same fun u => ?_).setupOk h
    simp only [SameRecord]
    (repeat' split) <;> simp

/-- Settles O53: the record within its ranges and the pages read are kept by every row and by a tick that passes. -/
theorem everyStepKeepsTheSetupInRange : Obligations.EveryStepKeepsTheSetupInRange := fun _ _ h =>
  step_keeps (P := SetupOk) (fun _ _ => SetupOk.of_store) (fun i _ => exec_keeps i) (fun _ => setupOk_passCodes _) h _

end Sys2Proof.Machine
end

section
/-! SUPPORT. What a change leaves of MON's mask, and the fields no block hears of; a change stores the record and counts (O14). -/

namespace Sys2Proof.Machine

/-! ## The mask of MON -/

theorem monOccur_mask (fs : BitVec 76) (s : State) : (monOccur fs s).mon.mask = s.mon.mask := by
  simp only [monOccur]
  split <;> simp

theorem laneFollow_mask (n : Chan) (s : State) : (laneFollow n s).mon.mask = s.mon.mask := by
  simp only [laneFollow]
  split
  · split
    · rfl
    · exact monOccur_mask _ s
  · rfl

theorem laneAfterChange_mask (a b : Setup) (s : State) : (laneAfterChange a b s).mon.mask = s.mon.mask := by
  refine foldl_keeps (P := fun u => u.mon.mask = s.mon.mask) (fun u n hu => ?_) Chan.all s rfl
  split
  · exact (laneFollow_mask n u).trans hu
  · exact hu

theorem segRejectFollow_mask (o : SegOutcome) (s : State) : (segRejectFollow o s).mon.mask = s.mon.mask := by
  cases o with
  | rejected => exact monOccur_mask _ s
  | pass => rfl

theorem captureEnd_mask (s : State) : (captureEnd s).mon.mask = s.mon.mask := by
  unfold captureEnd
  split
  next => rfl
  next i _ =>
    simp only
    split
    · simp [monCaptureEnd, monOccur_mask]
    · simp [finishSegment, segRejectFollow_mask, monCaptureEnd, monOccur_mask]

theorem acceptTrigger_mask (kind : TrigKind) (tag : Tick) (s : State) : (acceptTrigger kind tag s).mon.mask = s.mon.mask := by
  simp only [acceptTrigger]
  split
  · split
    · simp
    · simp [captureEnd_mask]
  · simp

theorem trigChange_mask (old : Setup) (s : State) : (trigChange old s).mon.mask = s.mon.mask := by
  simp only [trigChange]
  (repeat' split) <;> simp [acceptTrigger_mask]

theorem tellTrig_mask (a b : Setup) (s : State) : (tellTrig a b s).mon.mask = s.mon.mask := by
  unfold tellTrig
  split
  · exact trigChange_mask a s
  · rfl

theorem adopt_mask (u : Setup) (s : State) : (adopt u s).mon.mask = s.mon.mask := by
  unfold adopt
  split
  · rfl
  · simp [tellBlocks, tellTrig_mask, laneAfterChange_mask]

/-! ## Fields that no block hears of -/

/-- R1: the fields of a channel that ACQ, RASTER or COMPOSE hears of. -/
def heardChan (c : ChanSetup) : Bool × Nat × Int × Coupling × Bool := (c.on, c.scale, c.pos, c.coupling, c.bwlimit)

/-- R2, R3: the device fields that ACQ or RASTER hears of: those of the class ACQ, of the class TRIG, of the class MAP. -/
def heardDev (u : Setup) : (Nat × Nat × Nat × AcqMode × RunMode × Nat × Bool) ×
    (TrigSource × Slope × Int × Nat × TrigMode × Nat × Nat) × Persist × Style :=
  ((u.tbase, u.depth, u.pretrig, u.acqmode, u.runmode, u.segcount, u.roll),
    (u.tsrc, u.tslope, u.tlevel, u.thyst, u.tmode, u.tauto, u.holdoff), u.persist, u.style)

/-- R13: two records alike in every field that a block hears of. -/
def HeardAlike (a b : Setup) : Prop := (∀ n, heardChan (a.ch.get n) = heardChan (b.ch.get n)) ∧ heardDev a = heardDev b

theorem tellBlocks_of_heardAlike {a b : Setup} (h : HeardAlike a b) (s : State) : tellBlocks a b s = s := by
  obtain ⟨hchan, hdev⟩ := h
  simp only [heardChan, Prod.mk.injEq] at hchan
  simp only [heardDev, Prod.mk.injEq] at hdev
  have hlane : laneAfterChange a b s = s := by simp [laneAfterChange, Chan.all, hchan]
  have hacq : carriesAcq a b = false := by simp [carriesAcq, acqChanChange, Chan.all, hchan, hdev]
  have htrig : carriesTrig a b = false := by simp [carriesTrig, hdev]
  have hmap : (mapChannels a b).nonempty = false := by simp [mapChannels, PerChan.nonempty, PerChan.ofFn, hchan, hdev]
  have hannot : refreshesAnnotation a b = false := by simp [refreshesAnnotation, Chan.all, hchan, hdev]
  simp [tellBlocks, tellAcq, tellTrig, tellMap, tellAnnotation, hlane, hacq, htrig, hmap, hannot]

theorem heardAlike_setChan {u : Setup} {n : Chan} {c : ChanSetup} (h : heardChan c = heardChan (u.ch.get n)) :
    HeardAlike u { u with ch := u.ch.set n c } := by
  refine ⟨fun m => ?_, rfl⟩
  simp only [perChan_get_set]
  split
  next hm => rw [hm, h]
  next => rfl

theorem heardAlike_refl (u : Setup) : HeardAlike u u := ⟨fun _ => rfl, rfl⟩

/-- R1: COLOR and REJECT are heard of by no block. -/
theorem heardAlike_put_chan {n : Chan} {f : ChanField} (u : Setup) (v : FieldValue) (hf : f = .color ∨ f = .reject) :
    HeardAlike u (u.put (.chan n f) v) := by
  cases v with
  | number x =>
    refine heardAlike_setChan ?_
    rcases hf with rfl | rfl <;> rfl
  | limit t | text cs => exact heardAlike_refl u

theorem heardAlike_put_limit {n : Chan} {q : Quantity} {t : LimitType} (u : Setup) (v : FieldValue) :
    HeardAlike u (u.put (.limit n q t) v) := by
  cases v with
  | limit x => exact heardAlike_setChan rfl
  | number x | text cs => exact heardAlike_refl u

/-- R2, R3: the device fields of the classes MON, VIEW and META. -/
def unheardDevFields : List DevField :=
  [.recapture, .stoprej, .decay, .hitw, .grat, .tbright, .gbright, .blratio, .bllevel, .orient, .annot, .curV1, .curV2, .curH1,
    .curH2, .curShow, .name]

theorem heardAlike_put_dev {g : DevField} (u : Setup) (v : FieldValue) (hg : g ∈ unheardDevFields) :
    HeardAlike u (u.put (.dev g) v) := by
  cases v with
  | limit x => cases g <;> exact heardAlike_refl u
  | text cs => cases g <;> exact heardAlike_refl u
  | number x =>
    fin_cases hg <;> exact heardAlike_refl u

theorem adopt_of_heardAlike {u : Setup} {s : State} (h : HeardAlike s.setup u) (hu : u ≠ s.setup) :
    adopt u s = { s with setup := u, gen := s.gen + 1 } := by
  rw [adopt, if_neg hu, tellBlocks_of_heardAlike h]

/-- Settles O14: what a change leaves is the frame of `adopt`; a change of a field that no block hears of tells no block. -/
theorem changeStoresAndCounts : Obligations.ChangeStoresAndCounts := by
  refine ⟨fun u s => ?_, fun f v s hf hne => adopt_of_heardAlike ?_ hne⟩
  · refine ⟨fun h => if_pos h, fun h => ⟨(adopt_record u s).1, ?_⟩, ?_⟩
    · rw [(adopt_record u s).2, if_neg h]
    · simp [adopt_mask]
  · cases f with
    | chan n g => cases g <;> simp_all [heardAlike_put_chan]
    | limit n q t => exact heardAlike_put_limit s.setup v
    | dev g => exact heardAlike_put_dev s.setup v hf

end Sys2Proof.Machine
end

section
/-! SUPPORT. FIELD.SET: the kinds of the fields, what a body offers and what a field takes, then each outcome of the order
(O16, O17). -/

namespace Sys2Proof.Machine

/-! ## What a body offers (R213, R214) -/

theorem offeredValue_number {f : Field} {body : List Byte}
    (hk : (∃ lo hi, f.kind = .numeric lo hi) ∨ ∃ c, f.kind = .coded c) :
    offeredValue f body = if body.length = 7 then some (.number (intAt body 3 4)) else none := by
  rcases hk with ⟨lo, hi, hk⟩ | ⟨c, hk⟩ <;> simp only [offeredValue, hk]

theorem offeredValue_limit_absent {f : Field} {body : List Byte} (hk : f.kind = .limit) (hl : body.length = 7)
    (hp : byteAt body 2 = 0) : offeredValue f body = some (.limit none) := by
  simp [offeredValue, hk, hl, hp]

theorem offeredValue_limit_present {f : Field} {body : List Byte} (hk : f.kind = .limit) (hl : body.length = 7)
    (hp : byteAt body 2 = 1) : offeredValue f body = some (.limit (some (intAt body 3 4))) := by
  simp [offeredValue, hk, hl, hp]

theorem offeredValue_limit_none {f : Field} {body : List Byte} (hk : f.kind = .limit) (hp : 2 ≤ (byteAt body 2).toNat) :
    offeredValue f body = none := by
  simp only [offeredValue, hk]
  split
  · split
    · omega
    · omega
    · rfl
  · rfl

theorem offeredValue_text {f : Field} {body : List Byte} (hk : f.kind = .text) :
    offeredValue f body = if body.length = 19 then some (.text (body.drop 3)) else none := by
  simp only [offeredValue, hk]

/-- R6: NAME is the one field of text. -/
theorem field_kind_text_iff (f : Field) : f.kind = .text ↔ f = .dev .name := by
  cases f with
  | chan n f => cases f <;> simp [Field.kind, ChanField.kind]
  | limit n q t => simp [Field.kind]
  | dev f => cases f <;> simp [Field.kind, DevField.kind]

/-- R214: a body of the other form offers no value for a field. -/
theorem offeredValue_badLength {f : Field} {body : List Byte}
    (h : body.length = 19 ↔ f ≠ .dev .name) : offeredValue f body = none := by
  rw [ne_eq, ← field_kind_text_iff] at h
  cases hk : f.kind with
  | text => simp only [offeredValue, hk, if_neg (fun h19 => h.mp h19 hk)]
  | numeric lo hi | coded c | limit =>
    have h19 : body.length = 19 := h.mpr (by simp [hk])
    simp [offeredValue, hk, h19]

/-! ## What a field takes (R8) -/

theorem acceptValue_numeric {f : Field} {lo hi : Int} (hk : f.kind = .numeric lo hi) (x : Int) :
    acceptValue f (.number x) = some (.number (clampInt lo hi x), decide (x < lo ∨ hi < x)) := by
  have hc : clampInt lo hi x ≠ x ↔ x < lo ∨ hi < x := by
    simp only [clampInt]
    (repeat' split) <;> omega
  simp only [acceptValue, hk, hc]

theorem acceptValue_coded {f : Field} {count : Nat} (hk : f.kind = .coded count) (x : Int) :
    acceptValue f (.number x) = if 0 ≤ x ∧ x < count then some (.number x, false) else none := by
  simp only [acceptValue, hk]

theorem acceptValue_limit {f : Field} (hk : f.kind = .limit) (v : Option Int) :
    acceptValue f (.limit v) = some (.limit v, false) := by
  simp only [acceptValue, hk]

theorem acceptValue_text {f : Field} (hk : f.kind = .text) (cs : List Byte) :
    acceptValue f (.text cs) = some (.text (cleanName cs), cs.any (fun c => !printable c)) := by
  simp only [acceptValue, hk]

theorem cleanName_eq (cs : List Byte) :
    cleanName cs = cs.map (fun c => if 0x20 ≤ c.toNat ∧ c.toNat ≤ 0x7E then c else 0x20) := by
  simp only [cleanName, printable, Bool.and_eq_true, decide_eq_true_eq]

theorem not_printable (c : Byte) : (!printable c) = decide (c.toNat < 0x20 ∨ 0x7E < c.toNat) := by
  simp only [printable, Bool.not_and, Bool.decide_or]
  simp only [← decide_not, Nat.not_le]

/-! ## Ids -/

theorem mem_of_tabGet? {α : Type} {t : List (Nat × α)} {k : Nat} {x : α} (h : tabGet? t k = some x) : (k, x) ∈ t := by
  induction t with
  | nil => cases h
  | cons e t ih =>
    obtain ⟨a, y⟩ := e
    simp only [tabGet?] at h
    split at h
    next hk => simp_all
    next => exact List.mem_cons_of_mem _ (ih h)

/-- R218: the id of NAME and of no other field. -/
theorem fieldOfId_eq_name_iff (id : Nat) : fieldOfId id = some (.dev .name) ↔ id = 0x21 := by
  refine ⟨fun h => ?_, fun h => h ▸ rfl⟩
  by_cases hid : id < 256
  · have hpage : id / 256 = 0 := by omega
    have hmem : (id, DevField.name) ∈ devFieldIds := by
      refine mem_of_tabGet? ?_
      simpa [fieldOfId, hpage, Chan.ofNum?] using h
    simpa [devFieldIds] using hmem
  · have hpage : id / 256 ≠ 0 := by omega
    unfold fieldOfId at h
    split at h
    · split at h
      · simp at h
      · simp at h
    · simp [hpage] at h

/-! ## The outcomes of FIELD.SET (R17) -/

/-- R17: the status with which a FIELD.SET body is refused, or the field, the value stored for it and whether it was
clamped. -/
def fieldSetVerdict (body : List Byte) : Except Status (Field × FieldValue × Bool) :=
  match fieldOfId (bodyId body) with
  | none => .error .badField
  | some f =>
    match (offeredValue f body).bind (acceptValue f) with
    | none => .error .badValue
    | some (v, c) => .ok (f, v, c)

/-- R17, R214: a FIELD.SET that is dispatched stores the value its verdict names or answers a refusal. -/
theorem fieldSet_ready {tag : Byte} {body : List Byte} {s : State} (h : Ready 0x08 tag body s)
    (hl : body.length = 7 ∨ body.length = 19) :
    exec (.fieldSet tag body) s = .next (match fieldSetVerdict body with
      | .error st => answered 0x08 tag st (fieldItems (bodyId body) (refusedItems (bodyId body)) s) s
      | .ok (f, v, c) => fieldStore tag (bodyId body) f v c (popInbound s)) := by
  have hlen : (body.length == 7 || body.length == 19) = true := by simpa using hl
  have hitems : fieldItems (bodyId body) (refusedItems (bodyId body)) (popInbound s) =
      fieldItems (bodyId body) (refusedItems (bodyId body)) s := rfl
  refine (order_ready h _ _ hlen).trans (congrArg _ ?_)
  simp only [fieldSetVerdict, hitems, answer_popInbound]
  cases fieldOfId (bodyId body) with
  | none => rfl
  | some f =>
    cases hx : offeredValue f body with
    | none => simp [hx]
    | some x => cases hv : acceptValue f x <;> simp [hx, hv]

theorem fieldSet_refused {tag : Byte} {body : List Byte} {s : State} {st : Status} (h : Ready 0x08 tag body s)
    (hl : body.length = 7 ∨ body.length = 19) (hv : fieldSetVerdict body = .error st) :
    exec (.fieldSet tag body) s = .next (answered 0x08 tag st (fieldItems (bodyId body) (refusedItems (bodyId body)) s) s) := by
  rw [fieldSet_ready h hl, hv]

/-- R215: the items of a refusal that names another id than NAME's. -/
theorem fieldItems_refused {id : Nat} (s : State) (h : id ≠ 0x21) :
    fieldItems id (refusedItems id) s = be 2 id ++ [0, 0, 0, 0, 0] ++ be 4 s.gen.toNat := by
  simp [fieldItems, refusedItems, h, List.replicate]

theorem fieldSetVerdict_badValue {body : List Byte} {f : Field} (hf : fieldOfId (bodyId body) = some f)
    (hx : (offeredValue f body).bind (acceptValue f) = none) : fieldSetVerdict body = .error .badValue := by
  simp only [fieldSetVerdict, hf, hx]

/-- R17: the answer of an accepted FIELD.SET, over the record with its field written. -/
theorem fieldStore_popInbound (tag : Byte) (id : Nat) (f : Field) (v : FieldValue) (c : Bool) (s : State) :
    fieldStore tag id f v c (popInbound s) = answer 0x08 tag (if c then .clamped else .ok)
      (be 2 id ++ valueItems v ++ be 4 (if s.setup.put f v = s.setup then s.gen else s.gen + 1).toNat)
      (adopt (s.setup.put f v) (popInbound s)) := by
  simp only [fieldStore, fieldItems, (adopt_record _ _).2]
  rfl

/-- Settles O16: the verdict of the body is what its offered value and its field's kind make of it. -/
theorem fieldSetStoresOneField : Obligations.FieldSetStoresOneField := by
  refine ⟨fun tag body s f x v c h hl hf hx hv => ?_, ?_, fun f body => ⟨?_, ?_, ?_⟩, fun f => ⟨?_, ?_, ?_, ?_⟩⟩
  · have hverdict : fieldSetVerdict body = .ok (f, v, c) := by
      simp only [fieldSetVerdict, bodyId, hf, hx, Option.bind_some, hv]
    rw [fieldSet_ready h hl, hverdict]
    simp only [fieldStore_popInbound]
    cases v with
    | number a | text cs => rfl
    | limit t => cases t <;> rfl
  · refine ⟨by decide, by decide, fun n => ⟨?_, ?_, fun _ _ => rfl⟩, rfl⟩
    · simp [Field.kind, ChanField.kind]
    · simp [Field.kind, ChanField.kind]
  · intro hl hk
    rw [offeredValue_number hk, if_pos hl]
  · intro hl hk
    exact ⟨offeredValue_limit_absent hk hl, offeredValue_limit_present hk hl⟩
  · intro hl hk
    rw [offeredValue_text hk, if_pos hl]
  · exact fun lo hi x hk => acceptValue_numeric hk x
  · exact fun c x hk => acceptValue_coded hk x
  · exact fun v hk => acceptValue_limit hk v
  · intro cs hk
    simp only [acceptValue_text hk, cleanName_eq, not_printable]

/-- Settles O17: each of the four refusals is a verdict of the body. -/
theorem fieldSetRefusalChangesNothing : Obligations.FieldSetRefusalChangesNothing := by
  intro tag body s h hl
  have hname : ∀ f, fieldOfId (bodyId body) = some f → f ≠ .dev .name → bodyId body ≠ 0x21 := fun f hf hne hid =>
    hne (Option.some.inj (hf.symm.trans ((fieldOfId_eq_name_iff _).mpr hid)))
  refine ⟨fun hf => ?_, fun f hf hlen => ?_, fun n q t hf _ hp => ?_, fun f c hf h7 hk hout => ?_⟩
  · have hid : bodyId body ≠ 0x21 := fun hid => by
      cases hf.symm.trans ((fieldOfId_eq_name_iff _).mpr hid)
    rw [fieldSet_refused h hl (st := .badField) (by simp only [fieldSetVerdict, bodyId, hf]), fieldItems_refused s hid]
    rfl
  · have hx : (offeredValue f body).bind (acceptValue f) = none := by rw [offeredValue_badLength hlen]; rfl
    rw [fieldSet_refused h hl (fieldSetVerdict_badValue hf hx), fieldItems, refusedItems]
    by_cases hn : f = .dev .name
    · rw [if_pos hn, if_pos ((fieldOfId_eq_name_iff _).mp (hn ▸ hf))]
      rfl
    · rw [if_neg hn, if_neg (hname f hf hn)]
      rfl
  · have hx : (offeredValue (.limit n q t) body).bind (acceptValue (.limit n q t)) = none := by
      rw [offeredValue_limit_none rfl hp]
      rfl
    rw [fieldSet_refused h hl (fieldSetVerdict_badValue hf hx), fieldItems_refused s (hname _ hf (by simp))]
    rfl
  · have hx : (offeredValue f body).bind (acceptValue f) = none := by
      rw [offeredValue_number (.inr ⟨c, hk⟩), if_pos h7, Option.bind_some, acceptValue_coded hk, if_neg (by omega)]
    have hn : f ≠ .dev .name := fun hn => by
      rw [hn] at hk
      cases hk
    rw [fieldSet_refused h hl (fieldSetVerdict_badValue hf hx), fieldItems_refused s (hname f hf hn)]
    rfl

end Sys2Proof.Machine
end

section
/-! SUPPORT. FIELD.GET and SETUP.READ: ids of two bytes, derived values and their answers (O18). -/

namespace Sys2Proof.Machine

/-! ## Ids of two bytes -/

theorem bodyId_eq_natOf {body : List Byte} (h : body.length = 2) : bodyId body = natOf body := by
  simp only [bodyId, natAt, slice, List.drop_zero, List.take_of_length_le (Nat.le_of_eq h)]

/-- R213: two bytes are the number they spell. -/
theorem be_natOf_two {body : List Byte} (h : body.length = 2) : be 2 (natOf body) = body := by
  obtain ⟨a, b, rfl⟩ := List.length_eq_two.mp h
  have ha := a.isLt
  have hb := b.isLt
  simp only [natOf, be, List.foldl, List.cons.injEq, and_true]
  exact ⟨BitVec.eq_of_toNat_eq (by simp; omega), BitVec.eq_of_toNat_eq (by simp; omega)⟩

theorem ofNat_div_congr (v w d : Nat) (h : v / d % 256 = w / d % 256) : BitVec.ofNat 8 (v / d) = BitVec.ofNat 8 (w / d) :=
  BitVec.eq_of_toNat_eq (by simpa using h)

/-- R213: four bytes hold a number modulo 2^32. -/
theorem beInt_natCast (v : Nat) : beInt 4 (v : Int) = be 4 v := by
  have hv : ((v : Int) % ((256 ^ 4 : Nat) : Int)).toNat = v % 4294967296 := by omega
  simp only [beInt, hv, be, List.cons.injEq, and_true]
  exact ⟨ofNat_div_congr _ _ _ (by omega), ofNat_div_congr _ _ _ (by omega), ofNat_div_congr _ _ _ (by omega),
    ofNat_div_congr _ _ _ (by omega)⟩

theorem chan_ofNum?_eq_some {k : Nat} {n : Chan} : Chan.ofNum? k = some n ↔ k = n.num := by
  constructor
  · intro h
    unfold Chan.ofNum? at h
    split at h
    case h_5 => cases h
    all_goals
      obtain rfl := Option.some.inj h
      rfl
  · rintro rfl
    cases n <;> rfl

/-! ## Derived values (R9) -/

/-- R95: the range the view segment recorded for a channel, while it is current and holds the channel. -/
theorem derivedK_of_view {s : State} {n : Chan} {k : Nat} {ser : Serial} {i : SegInfo} (hv : s.raster.view = some (k, ser))
    (hs : segAt s k = ⟨.done, ser, some i⟩) (hn : i.geo.enabled.get n = true) :
    derivedK s n = expansion (hwOf (i.geo.range.get n)) (s.setup.ch.get n).scale := by
  simp [derivedK, hv, doneWith, hs, hn]

/-- R94: without such a view segment K is that of the present range. -/
theorem derivedK_of_no_view {s : State} {n : Chan}
    (h : ¬ ∃ k ser i, s.raster.view = some (k, ser) ∧ segAt s k = ⟨.done, ser, some i⟩ ∧ i.geo.enabled.get n = true) :
    derivedK s n = expansion (hwOf (s.setup.range n)) (s.setup.ch.get n).scale := by
  simp only [derivedK]
  split
  next k ser hv =>
    split
    next hd =>
      split
      next i hi =>
        split
        next hn =>
          simp only [doneWith, Bool.and_eq_true, decide_eq_true_eq] at hd
          obtain ⟨hstate, hser⟩ := hd
          refine absurd ⟨k, ser, i, hv, ?_, hn⟩ h
          rw [← hstate, ← hser, ← hi]
        next => rfl
      next => rfl
    next => rfl
  next => rfl

theorem derivedValue_none {s : State} {id : Nat} (hdev : id ∉ [0x80, 0x81, 0x82])
    (hchan : ∀ n : Chan, id ≠ 256 * n.num + 0x80 ∧ id ≠ 256 * n.num + 0x81) : derivedValue s id = none := by
  simp only [List.mem_cons, List.not_mem_nil, or_false, not_or] at hdev
  obtain ⟨h80, h81, h82⟩ := hdev
  unfold derivedValue
  split
  next n hn =>
    have hpage := chan_ofNum?_eq_some.mp hn
    obtain ⟨hne80, hne81⟩ := hchan n
    rw [if_neg (by omega), if_neg (by omega)]
  next => rw [if_neg h80, if_neg h81, if_neg h82]

/-! ## The outcomes of FIELD.GET (R18) -/

section
variable {tag : Byte} {body : List Byte} {s : State}

theorem fieldGet_field (h : Ready 0x09 tag body s) (hl : body.length = 2) {f : Field} (hf : fieldOfId (natOf body) = some f) :
    exec (.fieldGet tag body) s = .next (answered 0x09 tag .ok (body ++ valueItems (s.setup.get f) ++ be 4 s.gen.toNat) s) := by
  refine (order_ready h _ _ (by simp [lenIs, hl])).trans (congrArg _ ?_)
  simp only [bodyId_eq_natOf hl, hf, answer_popInbound, fieldItems, be_natOf_two hl]
  rfl

theorem fieldGet_derived (h : Ready 0x09 tag body s) (hl : body.length = 2) {v : Nat} (hf : fieldOfId (natOf body) = none)
    (hv : derivedValue s (natOf body) = some v) :
    exec (.fieldGet tag body) s = .next (answered 0x09 tag .ok (body ++ valueItems (.number v) ++ be 4 s.gen.toNat) s) := by
  have hpop : derivedValue (popInbound s) (natOf body) = some v := hv
  refine (order_ready h _ _ (by simp [lenIs, hl])).trans (congrArg _ ?_)
  simp only [bodyId_eq_natOf hl, hf, hpop, answer_popInbound, fieldItems, be_natOf_two hl]
  rfl

theorem fieldGet_badField (h : Ready 0x09 tag body s) (hl : body.length = 2) (hf : fieldOfId (natOf body) = none)
    (hv : derivedValue s (natOf body) = none) :
    exec (.fieldGet tag body) s = .next (answered 0x09 tag .badField (body ++ [0, 0, 0, 0, 0] ++ be 4 s.gen.toNat) s) := by
  have hpop : derivedValue (popInbound s) (natOf body) = none := hv
  have hid : natOf body ≠ 0x21 := fun hid => by
    rw [(fieldOfId_eq_name_iff _).mpr hid] at hf
    cases hf
  refine (order_ready h _ _ (by simp [lenIs, hl])).trans (congrArg _ ?_)
  simp only [bodyId_eq_natOf hl, hf, hpop, answer_popInbound, fieldItems_refused _ hid, be_natOf_two hl]
  rfl

end

/-! ## SETUP.READ (R19) and the settling of O18 -/

theorem setupRead_ready {tag : Byte} {s : State} (h : Ready 0x0A tag [] s) :
    exec (.setupRead tag []) s = .next (answered 0x0A tag .ok (be 4 s.gen.toNat ++ imageOf s.setup) s) := by
  refine (order_ready h _ _ rfl).trans (congrArg _ ?_)
  rw [answer_popInbound]
  rfl

/-- R218: the ids of the derived values of a channel name no field, and their values. -/
theorem derivedValue_chan (s : State) (n : Chan) :
    (fieldOfId (256 * n.num + 0x80) = none ∧ derivedValue s (256 * n.num + 0x80) = some (s.setup.range n)) ∧
    fieldOfId (256 * n.num + 0x81) = none ∧ derivedValue s (256 * n.num + 0x81) = some (derivedK s n) := by
  cases n <;> exact ⟨⟨rfl, rfl⟩, rfl, rfl⟩

/-- Settles O18: each id is a field's, a derived value's or neither; K follows the view segment. -/
theorem recordIsReadBack : Obligations.RecordIsReadBack := by
  refine ⟨fun tag body s h hl => ⟨fun f hf => fieldGet_field h hl hf, fun v hv => ?_, fun hf hdev hchan => ?_⟩,
    fun tag s h => setupRead_ready h⟩
  · have hderived : fieldOfId (natOf body) = none ∧ derivedValue s (natOf body) = some v := by
      rcases hv with ⟨hid, rfl⟩ | ⟨hid, rfl⟩ | ⟨hid, rfl⟩ | ⟨n, hid, rfl⟩ | ⟨n, range, hid, hrange, rfl⟩
      · rw [hid]; exact ⟨rfl, rfl⟩
      · rw [hid]; exact ⟨rfl, rfl⟩
      · rw [hid]; exact ⟨rfl, rfl⟩
      · rw [hid]; exact (derivedValue_chan s n).1
      · obtain ⟨-, hnone, hk⟩ := derivedValue_chan s n
        rw [hid, hk]
        refine ⟨hnone, congrArg some ?_⟩
        rcases hrange with ⟨k, ser, i, hview, hseg, hn, rfl⟩ | ⟨hno, rfl⟩
        · exact derivedK_of_view hview hseg hn
        · exact derivedK_of_no_view hno
    rw [fieldGet_derived h hl hderived.1 hderived.2, valueItems, beInt_natCast]
    simp only [List.append_assoc, List.cons_append, List.nil_append]
  · exact fieldGet_badField h hl hf (derivedValue_none hdev hchan)

end Sys2Proof.Machine
end

section
/-! SUPPORT. The reading of a setup image: which item each field has, what the reading stores, counts and refuses (O19). -/

namespace Sys2Proof.Machine

/-! ## The items of the image -/

/-- The field that stands for an item of the image: a threshold's group by its HA threshold. -/
def Field.place : Field → Field
  | .limit n q _ => .limit n q .ha
  | f => f

/-- The place of an item of the image. -/
def ImageItem.place : ImageItem → Field
  | .field _ _ _ f => f.place
  | .group _ n q => .limit n q .ha

/-- R218: offset, number of codes and id of an item that is checked against a set. -/
def ImageItem.checked : ImageItem → Option (Nat × Nat × Nat)
  | .field off _ _ f => match f.kind with | .coded count => some (off, count, f.id) | _ => none
  | .group off n q => some (off, 16, (Field.limit n q .ha).id)

/-- R218: offset, bytes, sign and field of an item that holds a number. -/
def ImageItem.numeric : ImageItem → Option (Nat × Nat × Bool × Field)
  | .field off bytes signed f => match f.kind with | .numeric _ _ => some (off, bytes, signed, f) | _ => none
  | .group _ _ _ => none

/-- R218: an item holds a number, or one byte with a code, or a group. -/
def ImageItem.plain : ImageItem → Bool
  | .field _ bytes signed f => match f.kind with | .numeric _ _ => true | .coded _ => bytes == 1 && !signed | _ => false
  | .group _ _ _ => true

theorem imageItems_plain : ∀ i ∈ imageItems, i.plain = true := by decide +kernel

theorem imageItems_places_nodup : (imageItems.map ImageItem.place).Nodup := by decide +kernel

theorem group_mem_imageItems (n : Chan) (q : Quantity) : .group (96 * (n.num - 1) + 16 + 20 * q.num) n q ∈ imageItems := by
  cases n <;> cases q <;> decide +kernel

theorem fieldOfId_id (f : Field) : fieldOfId f.id = some f := by
  cases f with
  | chan n f => cases n <;> cases f <;> rfl
  | limit n q t => cases n <;> cases q <;> cases t <;> rfl
  | dev f => cases f <;> rfl

/-! ## What a written field reads -/

theorem put_dev_number (u : Setup) (f : DevField) (x : Int) : u.put (.dev f) (.number x) = u.putNum f x := by
  cases f <;> rfl

theorem get_dev (u : Setup) {f : DevField} (hf : f ≠ .name) : u.get (.dev f) = .number (u.getNum f) := by
  cases f
  case name => exact absurd rfl hf
  all_goals rfl

/-- The record with the limits of one channel replaced. -/
def Setup.setLimits (u : Setup) (n : Chan) (l : PerQuantity LimitGroup) : Setup :=
  { u with ch := u.ch.set n { u.ch.get n with limits := l } }

/-- A replacement of limits shows in the thresholds of that channel alone. -/
theorem get_setLimits (u : Setup) (n : Chan) (l : PerQuantity LimitGroup) (g : Field) :
    (u.setLimits n l).get g = match g with
      | .limit m q t => if m = n then .limit ((l.get q).get t) else u.get (.limit m q t)
      | _ => u.get g := by
  cases g with
  | chan m f =>
    simp only [Setup.setLimits, Setup.get, perChan_get_set]
    split
    next hm => subst hm; cases f <;> rfl
    next => rfl
  | limit m q t =>
    simp only [Setup.setLimits, Setup.get, perChan_get_set]
    split <;> rfl
  | dev f => cases f <;> rfl

/-- A written field leaves the fields of other items as they were. -/
theorem get_put_other {f g : Field} (u : Setup) (v : FieldValue) (h : g.place ≠ f.place) : (u.put f v).get g = u.get g := by
  cases f with
  | chan n f =>
    cases v with
    | limit t | text cs => rfl
    | number x =>
      cases g with
      | chan m f' =>
        have hne : m = n → f' ≠ f := fun hm hf => h (by rw [hm, hf])
        simp only [Setup.put, Setup.get, perChan_get_set]
        split
        next hm => rw [chan_getNum_putNum, if_neg (hne hm), hm]
        next => rfl
      | limit m q t =>
        simp only [Setup.put, Setup.get, perChan_get_set]
        split
        next hm => subst hm; cases f <;> rfl
        next => rfl
      | dev f' => cases f' <;> rfl
  | limit n q t =>
    cases v with
    | number x | text cs => rfl
    | limit x =>
      refine (get_setLimits u n ((u.ch.get n).limits.set q (((u.ch.get n).limits.get q).set t x)) g).trans ?_
      cases g with
      | chan m f' | dev f' => rfl
      | limit m r w =>
        have hne : m = n → r ≠ q := fun hm hr => h (by rw [Field.place, Field.place, hm, hr])
        simp only
        split
        next hm => rw [perQuantity_get_set, if_neg (hne hm), hm]; rfl
        next => rfl
  | dev f =>
    cases v with
    | limit t => cases f <;> rfl
    | text cs =>
      cases f
      case name =>
        cases g with
        | chan m f' | limit m q t => rfl
        | dev f' => cases f'; case name => exact absurd rfl h
                    all_goals rfl
      all_goals rfl
    | number x =>
      rw [put_dev_number]
      cases g with
      | chan m f' | limit m q t => cases f <;> rfl
      | dev f' =>
        by_cases hname : f' = .name
        · subst hname; cases f <;> rfl
        · have hne : f' ≠ f := fun hf => h (by rw [hf])
          rw [get_dev _ hname, get_dev _ hname, dev_getNum_putNum, if_neg hne]

theorem get_put_number {f : Field} {x : Int} (u : Setup) (hk : (∃ lo hi, f.kind = .numeric lo hi) ∨ ∃ c, f.kind = .coded c)
    (hx : fits f.kind x = true) : (u.put f (.number x)).get f = .number x := by
  cases f with
  | chan n f => simp only [Setup.put, Setup.get, perChan_get_set, if_true, chan_getNum_putNum_same _ f x hx]
  | limit n q t => simp [Field.kind] at hk
  | dev f =>
    have hf : f ≠ .name := fun hf => by simp [hf, Field.kind, DevField.kind] at hk
    rw [put_dev_number, get_dev _ hf, dev_getNum_putNum_same u f x hf hx]

/-- R8, R213: an accepted number, stored, is what the field then holds. -/
theorem get_put_accepted {f : Field} {x : Int} {v : FieldValue} {c : Bool} (u : Setup)
    (h : acceptValue f (.number x) = some (v, c)) : (u.put f v).get f = v := by
  have hv := valueInRange_of_accept h trivial
  cases hk : f.kind with
  | numeric lo hi =>
    rw [acceptValue_numeric hk] at h
    obtain ⟨rfl, -⟩ := Prod.mk.inj (Option.some.inj h)
    exact get_put_number u (.inl ⟨lo, hi, hk⟩) hv
  | coded count =>
    rw [acceptValue_coded hk] at h
    split at h
    · obtain ⟨rfl, -⟩ := Prod.mk.inj (Option.some.inj h)
      exact get_put_number u (.inr ⟨count, hk⟩) hv
    · cases h
  | limit | text => simp [acceptValue, hk] at h

/-! ## Reading one item -/

/-- R218: the id with which an item of an image is refused. -/
def itemError (img : List Byte) : ImageItem → Option Nat
  | .field off bytes signed f =>
    match acceptValue f (.number (imageNum img off bytes signed)) with
    | some _ => none
    | none => some f.id
  | .group off n q => if (byteAt img off).toNat < 16 then none else some (Field.limit n q .ha).id

/-- R20: an item whose number is brought into range. -/
def itemClamped (img : List Byte) : ImageItem → Bool
  | .field off bytes signed f =>
    match acceptValue f (.number (imageNum img off bytes signed)) with
    | some (_, c) => c
    | none => false
  | .group _ _ _ => false

theorem readItem_error_iff (img : List Byte) (acc : Setup × Nat) (i : ImageItem) (id : Nat) :
    readItem img acc i = .error id ↔ itemError img i = some id := by
  cases i with
  | field off bytes signed f => cases h : acceptValue f (.number (imageNum img off bytes signed)) <;> simp [readItem, itemError, h]
  | group off n q => by_cases h : (byteAt img off).toNat < 16 <;> simp [readItem, itemError, h]

theorem readItem_count {img : List Byte} {acc acc' : Setup × Nat} {i : ImageItem} (h : readItem img acc i = .ok acc') :
    acc'.2 = acc.2 + (itemClamped img i).toNat := by
  cases i with
  | field off bytes signed f =>
    simp only [readItem] at h
    split at h
    next v c hv =>
      obtain rfl := Except.ok.inj h
      simp only [itemClamped, hv]
    next => cases h
  | group off n q =>
    simp only [readItem] at h
    split at h
    next =>
      obtain rfl := Except.ok.inj h
      rfl
    next => cases h

/-- An item changes no field of another item, and not NAME. -/
theorem readItem_other {img : List Byte} {acc acc' : Setup × Nat} {i : ImageItem} {g : Field}
    (h : readItem img acc i = .ok acc') (hg : g.place ≠ i.place) : acc'.1.get g = acc.1.get g := by
  cases i with
  | field off bytes signed f =>
    simp only [readItem] at h
    split at h
    next v c hv =>
      obtain rfl := Except.ok.inj h
      exact get_put_other _ _ hg
    next => cases h
  | group off n q =>
    simp only [readItem] at h
    split at h
    next =>
      obtain rfl := Except.ok.inj h
      refine (get_setLimits acc.1 n ((acc.1.ch.get n).limits.set q (imageGroup img off)) g).trans ?_
      cases g with
      | chan m f' | dev f' => rfl
      | limit m r w =>
        have hne : m = n → r ≠ q := fun hm hr => hg (by rw [Field.place, ImageItem.place, hm, hr])
        simp only
        split
        next hm => rw [perQuantity_get_set, if_neg (hne hm), hm]; rfl
        next => rfl
    next => cases h

/-- What a record holds of an item of an image. -/
def Holds (img : List Byte) (u : Setup) : ImageItem → Prop
  | .field off bytes signed f => ∃ c, acceptValue f (.number (imageNum img off bytes signed)) = some (u.get f, c)
  | .group off n q => ∀ t, u.get (.limit n q t) = .limit ((imageGroup img off).get t)

theorem readItem_holds {img : List Byte} {acc acc' : Setup × Nat} {i : ImageItem} (h : readItem img acc i = .ok acc') :
    Holds img acc'.1 i := by
  cases i with
  | field off bytes signed f =>
    simp only [readItem] at h
    split at h
    next v c hv =>
      obtain rfl := Except.ok.inj h
      exact ⟨c, by rw [get_put_accepted acc.1 hv, hv]⟩
    next => cases h
  | group off n q =>
    simp only [readItem] at h
    split at h
    next =>
      obtain rfl := Except.ok.inj h
      intro t
      refine (get_setLimits acc.1 n ((acc.1.ch.get n).limits.set q (imageGroup img off)) (.limit n q t)).trans ?_
      simp only [if_true, perQuantity_get_set]
    next => cases h

/-- What a record holds of an item depends on the fields of that item alone. -/
theorem Holds.of_get {img : List Byte} {u v : Setup} {i : ImageItem} (h : Holds img u i)
    (hv : ∀ g : Field, g.place = i.place → v.get g = u.get g) : Holds img v i := by
  cases i with
  | field off bytes signed f =>
    obtain ⟨c, hc⟩ := h
    exact ⟨c, by rw [hv f rfl, hc]⟩
  | group off n q => exact fun t => (hv _ rfl).trans (h t)

/-! ## Reading the items in turn -/

theorem readItems_error_iff (img : List Byte) (items : List ImageItem) (acc : Setup × Nat) (id : Nat) :
    readItems img items acc = .error id ↔ items.findSome? (itemError img) = some id := by
  induction items generalizing acc with
  | nil => simp [readItems]
  | cons i rest ih =>
    have hi := readItem_error_iff img acc i
    rw [readItems, List.findSome?_cons]
    cases hr : readItem img acc i with
    | ok acc' =>
      have hnone : itemError img i = none := by
        rw [Option.eq_none_iff_forall_ne_some]
        intro a ha
        rw [(hi a).mpr ha] at hr
        cases hr
      simp only [hnone]
      exact ih acc'
    | error a => simp [(hi a).mp hr]

theorem readItems_other {img : List Byte} {items : List ImageItem} {acc acc' : Setup × Nat} {g : Field}
    (h : readItems img items acc = .ok acc') (hg : ∀ i ∈ items, g.place ≠ i.place) : acc'.1.get g = acc.1.get g := by
  induction items generalizing acc with
  | nil =>
    obtain rfl := Except.ok.inj h
    rfl
  | cons i rest ih =>
    simp only [readItems] at h
    split at h
    next acc1 h1 =>
      exact (ih h fun j hj => hg j (List.mem_cons_of_mem i hj)).trans (readItem_other h1 (hg i List.mem_cons_self))
    next => cases h

theorem readItems_count {img : List Byte} {items : List ImageItem} {acc acc' : Setup × Nat}
    (h : readItems img items acc = .ok acc') : acc'.2 = acc.2 + items.countP (itemClamped img) := by
  induction items generalizing acc with
  | nil =>
    obtain rfl := Except.ok.inj h
    rfl
  | cons i rest ih =>
    simp only [readItems] at h
    split at h
    next acc1 h1 =>
      rw [ih h, readItem_count h1, List.countP_cons]
      cases itemClamped img i with
      | false => simp
      | true => simp only [Bool.toNat_true, if_true]; omega
    next => cases h

/-- Items of which no two write one field all show in the record that is read. -/
theorem readItems_holds {img : List Byte} {items : List ImageItem} {acc acc' : Setup × Nat}
    (hn : (items.map ImageItem.place).Nodup) (h : readItems img items acc = .ok acc') : ∀ i ∈ items, Holds img acc'.1 i := by
  induction items generalizing acc with
  | nil => simp
  | cons i rest ih =>
    rw [List.map_cons, List.nodup_cons] at hn
    obtain ⟨hi, hrest⟩ := hn
    simp only [readItems] at h
    split at h
    next acc1 h1 =>
      intro j hj
      rcases List.mem_cons.mp hj with rfl | hj
      · refine (readItem_holds h1).of_get fun g hg => readItems_other h fun k hk hgk => hi ?_
        exact hg ▸ hgk ▸ List.mem_map_of_mem hk
      · exact ih hrest h j hj
    next => cases h

end Sys2Proof.Machine
end

section
/-! SUPPORT. The reading of a whole image: its refusal, its record and its count; SETUP.WRITE and SETUP.DEFAULT (O19). -/

namespace Sys2Proof.Machine

/-! ## Bytes of an image -/

theorem natAt_one (bs : List Byte) (off : Nat) : natAt bs off 1 = (byteAt bs off).toNat := by
  simp only [natAt, slice, byteAt, List.getD_eq_getElem?_getD, ← List.head?_drop]
  cases bs.drop off <;> simp [natOf]

theorem imageNum_byte (img : List Byte) (off : Nat) : imageNum img off 1 false = ((byteAt img off).toNat : Int) := by
  simp [imageNum, natAt_one]

theorem imageGroup_get (img : List Byte) (off : Nat) (t : LimitType) : (imageGroup img off).get t =
    if (byteAt img off).getLsbD t.num then some (intAt img (off + 4 + 4 * t.num) 4) else none := by
  cases t <;> rfl

/-! ## The checks of the image -/

/-- R218: the id of a checked item whose byte is outside its set. -/
def checkFails (img : List Byte) (e : Nat × Nat × Nat) : Option Nat :=
  if e.2.1 ≤ (byteAt img e.1).toNat then some e.2.2 else none

theorem checkFails_eq_none {img : List Byte} {e : Nat × Nat × Nat} :
    checkFails img e = none ↔ (byteAt img e.1).toNat < e.2.1 := by
  simp [checkFails]

theorem checkFails_eq_some {img : List Byte} {e : Nat × Nat × Nat} {id : Nat} :
    checkFails img e = some id ↔ e.2.2 = id ∧ e.2.1 ≤ (byteAt img e.1).toNat := by
  simp [checkFails, and_comm]

/-- R218: an item is refused just when it is checked and its byte is outside its set. -/
theorem itemError_eq_checked {img : List Byte} {i : ImageItem} (h : i.plain = true) :
    itemError img i = i.checked.bind (checkFails img) := by
  cases i with
  | field off bytes signed f =>
    cases hk : f.kind with
    | numeric lo hi => simp [itemError, ImageItem.checked, hk, acceptValue_numeric hk]
    | coded count =>
      obtain ⟨rfl, rfl⟩ : bytes = 1 ∧ signed = false := by simpa [ImageItem.plain, hk] using h
      by_cases hin : (byteAt img off).toNat < count
      · simp [itemError, ImageItem.checked, hk, checkFails, imageNum_byte, acceptValue_coded hk, hin]
      · simp [itemError, ImageItem.checked, hk, checkFails, imageNum_byte, acceptValue_coded hk, hin, Nat.le_of_not_lt hin]
    | limit | text => simp [ImageItem.plain, hk] at h
  | group off n q =>
    by_cases hin : (byteAt img off).toNat < 16
    · simp [itemError, ImageItem.checked, checkFails, hin]
    · simp [itemError, ImageItem.checked, checkFails, hin, Nat.le_of_not_lt hin]

theorem findSome?_checked {img : List Byte} {items : List ImageItem} (h : ∀ i ∈ items, i.plain = true) :
    items.findSome? (itemError img) = (items.filterMap ImageItem.checked).findSome? (checkFails img) := by
  induction items with
  | nil => rfl
  | cons i rest ih =>
    rw [List.findSome?_cons, List.filterMap_cons, itemError_eq_checked (h i List.mem_cons_self),
      ih fun j hj => h j (List.mem_cons_of_mem i hj)]
    cases i.checked with
    | none => rfl
    | some e => rfl

/-- R218: the places of the image that are checked, and those that hold numbers, in increasing offset. -/
def checkedPlaces : List (Nat × Nat × Nat) := imageItems.filterMap ImageItem.checked

def numericPlaces : List (Nat × Nat × Bool × Field) := imageItems.filterMap ImageItem.numeric

theorem readImage_error_iff (img : List Byte) (id : Nat) :
    readImage img = .error id ↔ checkedPlaces.findSome? (checkFails img) = some id := by
  rw [checkedPlaces, ← findSome?_checked imageItems_plain, ← readItems_error_iff img imageItems (Setup.default, 0), readImage]
  cases readItems img imageItems (Setup.default, 0) with
  | ok acc => simp
  | error a => simp

/-! ## The count of the numbers brought into range -/

/-- R20: a number of the image outside its field's range. -/
def outOfRange (img : List Byte) (e : Nat × Nat × Bool × Field) : Bool :=
  match e.2.2.2.kind with
  | .numeric lo hi => decide (imageNum img e.1 e.2.1 e.2.2.1 < lo ∨ hi < imageNum img e.1 e.2.1 e.2.2.1)
  | _ => false

theorem itemClamped_eq_numeric (img : List Byte) (i : ImageItem) :
    itemClamped img i = (i.numeric.map (outOfRange img)).getD false := by
  cases i with
  | field off bytes signed f =>
    cases hk : f.kind with
    | numeric lo hi => simp [itemClamped, ImageItem.numeric, outOfRange, hk, acceptValue_numeric hk]
    | coded count =>
      simp only [itemClamped, ImageItem.numeric, hk, acceptValue_coded hk]
      split <;> simp_all
    | limit | text => simp [itemClamped, ImageItem.numeric, acceptValue, hk]
  | group off n q => rfl

theorem countP_itemClamped (img : List Byte) :
    imageItems.countP (itemClamped img) = (numericPlaces.filter (outOfRange img)).length := by
  rw [numericPlaces, ← List.countP_eq_length_filter, List.countP_filterMap]
  exact List.countP_congr fun i _ => by rw [itemClamped_eq_numeric]

/-! ## The record an image offers -/

/-- R20, R218: the record of a readable image holds every item, its NAME cleaned, its count as R20 has it. -/
theorem readImage_ok {img : List Byte} {u : Setup} {c : Nat} (h : readImage img = .ok (u, c)) :
    (∀ i ∈ imageItems, Holds img u i) ∧ u.name = cleanName (slice img 430 16) ∧
    c = (numericPlaces.filter (outOfRange img)).length + ((slice img 430 16).any (fun b => !printable b)).toNat := by
  unfold readImage at h
  split at h
  next u1 c1 h1 =>
    obtain ⟨rfl, rfl⟩ := Prod.mk.inj (Except.ok.inj h)
    have hcount := readItems_count h1
    refine ⟨fun i hi => (readItems_holds imageItems_places_nodup h1 i hi).of_get fun g hg => ?_, rfl, ?_⟩
    · have hplain := imageItems_plain i hi
      cases g with
      | chan n f | limit n q t => rfl
      | dev f =>
        cases f
        case name =>
          cases i with
          | group off n q => cases hg
          | field off bytes signed f =>
            cases f with
            | limit n q t | chan n f => cases hg
            | dev f =>
              obtain rfl : DevField.name = f := Field.dev.inj hg
              cases hplain
        all_goals rfl
    · rw [← countP_itemClamped]
      simpa using hcount
  next => cases h

theorem readImage_total {img : List Byte} (h : ∀ e ∈ checkedPlaces, (byteAt img e.1).toNat < e.2.1) :
    ∃ u c, readImage img = .ok (u, c) := by
  cases hr : readImage img with
  | ok p => exact ⟨p.1, p.2, rfl⟩
  | error id =>
    have hnone : checkedPlaces.findSome? (checkFails img) = none :=
      List.findSome?_eq_none_iff.mpr fun e he => checkFails_eq_none.mpr (h e he)
    rw [readImage_error_iff, hnone] at hr
    cases hr

/-- R218: a number of the image is accepted into its field. -/
theorem holds_numeric {img : List Byte} {u : Setup} (h : ∀ i ∈ imageItems, Holds img u i) :
    ∀ e ∈ numericPlaces, ∃ b, acceptValue e.2.2.2 (.number (imageNum img e.1 e.2.1 e.2.2.1)) = some (u.get e.2.2.2, b) := by
  intro e he
  obtain ⟨i, hi, hie⟩ := List.mem_filterMap.mp he
  cases i with
  | field off bytes signed f =>
    simp only [ImageItem.numeric] at hie
    split at hie
    · obtain rfl := Option.some.inj hie
      exact h _ hi
    · cases hie
  | group off n q => cases hie

/-- R218: a code of the image is taken as it stands. -/
theorem holds_coded {img : List Byte} {u : Setup} (h : ∀ i ∈ imageItems, Holds img u i) :
    ∀ e ∈ checkedPlaces, ∀ f, fieldOfId e.2.2 = some f → (∀ n q t, f ≠ .limit n q t) →
      u.get f = .number ((byteAt img e.1).toNat : Int) := by
  intro e he g hg hlimit
  obtain ⟨i, hi, hie⟩ := List.mem_filterMap.mp he
  cases i with
  | field off bytes signed f =>
    simp only [ImageItem.checked] at hie
    split at hie
    next count hk =>
      obtain rfl := Option.some.inj hie
      obtain rfl : f = g := Option.some.inj ((fieldOfId_id f).symm.trans hg)
      obtain ⟨rfl, rfl⟩ : bytes = 1 ∧ signed = false := by simpa [ImageItem.plain, hk] using imageItems_plain _ hi
      obtain ⟨c, hc⟩ := h _ hi
      rw [imageNum_byte, acceptValue_coded hk] at hc
      split at hc
      · exact (Prod.mk.inj (Option.some.inj hc)).1.symm
      · cases hc
    next => cases hie
  | group off n q =>
    obtain rfl := Option.some.inj hie
    exact absurd (Option.some.inj (hg.symm.trans (fieldOfId_id (.limit n q .ha)))) (hlimit n q .ha)

/-! ## SETUP.WRITE and SETUP.DEFAULT (R20, R21) -/

theorem setupWrite_ok {tag : Byte} {body : List Byte} {s : State} {u : Setup} {c : Nat} (h : Ready 0x0B tag body s)
    (hl : body.length = 512) (hr : readImage body = .ok (u, c)) :
    exec (.setupWrite tag body) s = .next (answer 0x0B tag (if c = 0 then .ok else .clamped)
      (be 1 c ++ be 4 (if u = s.setup then s.gen else s.gen + 1).toNat ++ [0, 0]) (adopt u (popInbound s))) := by
  refine (order_ready h _ _ (by simp [lenIs, hl])).trans (congrArg _ ?_)
  simp only [hr, writeItems, (adopt_record _ _).2]
  rfl

theorem setupWrite_error {tag : Byte} {body : List Byte} {s : State} {id : Nat} (h : Ready 0x0B tag body s)
    (hl : body.length = 512) (hr : readImage body = .error id) :
    exec (.setupWrite tag body) s = .next (answered 0x0B tag .badValue ([0] ++ be 4 s.gen.toNat ++ be 2 id) s) := by
  refine (order_ready h _ _ (by simp [lenIs, hl])).trans (congrArg _ ?_)
  simp only [hr, answer_popInbound, writeItems]
  rfl

theorem setupDefault_ready {tag : Byte} {s : State} (h : Ready 0x0C tag [] s) :
    exec (.setupDefault tag []) s = .next (answer 0x0C tag .ok
      (be 4 (if Setup.default = s.setup then s.gen else s.gen + 1).toNat) (adopt .default (popInbound s))) := by
  refine (order_ready h _ _ rfl).trans (congrArg _ ?_)
  simp only [(adopt_record _ _).2]
  rfl

/-- Settles O19: the orders adopt what the reading of the image gives; its checks and numbers are those of the items in turn. -/
theorem setupWriteAndDefault : Obligations.SetupWriteAndDefault := by
  refine ⟨fun tag body s h hl => ⟨fun u c hr => setupWrite_ok h hl hr, fun id hr => setupWrite_error h hl hr⟩, ?_,
    fun tag s h => setupDefault_ready h⟩
  intro img coded numbers value _ hcoded hnumbers hvalue
  obtain rfl : coded = checkedPlaces := hcoded.trans (by decide +kernel)
  obtain rfl : numbers = numericPlaces := hnumbers.trans (by decide +kernel)
  clear hcoded hnumbers
  obtain rfl : value = fun e => imageNum img e.1 e.2.1 e.2.2.1 := hvalue
  refine ⟨fun id => ?_, fun hin => ?_⟩
  · rw [readImage_error_iff, List.findSome?_eq_some_iff]
    simp only [checkFails_eq_some, checkFails_eq_none, and_assoc]
  · obtain ⟨u, c, hr⟩ := readImage_total hin
    obtain ⟨hholds, hname, hcount⟩ := readImage_ok hr
    refine ⟨u, c, hr, holds_numeric hholds, holds_coded hholds, ?_, ?_, ?_⟩
    · rintro n q t a rfl
      rw [hholds _ (group_mem_imageItems n q) t, imageGroup_get]
    · rw [hname, cleanName_eq]
      rfl
    · have htoNat : ∀ b : Bool, b.toNat = if b = true then 1 else 0 := by decide
      rw [hcount, htoNat]
      simp only [not_printable]
      rfl

end Sys2Proof.Machine
end

section
/-! SUPPORT. What a change of ACQ or TRIG class does to ACQ: a started run, an AUTO trigger that fires at once, or primes (O15). -/

namespace Sys2Proof.Machine

/-! ## A change that carries a class -/

/-- R11: the record and G of a change, before any block is told. -/
def stored (u : Setup) (s : State) : State := { s with setup := u, gen := s.gen + 1 }

theorem carriesAcq_self (a : Setup) : carriesAcq a a = false := by simp [carriesAcq, acqChanChange]

theorem carriesTrig_self (a : Setup) : carriesTrig a a = false := by simp [carriesTrig]

theorem adopt_eq_tellBlocks {u : Setup} {s : State} (h : carriesAcq s.setup u = true ∨ carriesTrig s.setup u = true) :
    adopt u s = tellBlocks s.setup u (stored u s) := by
  refine if_neg fun hu => ?_
  rw [hu, carriesAcq_self, carriesTrig_self] at h
  simp at h

/-- R27: a change that does not carry ACQ alters no ON. -/
theorem laneAfterChange_of_not_carriesAcq {a b : Setup} (h : carriesAcq a b = false) (s : State) :
    laneAfterChange a b s = s := by
  simp [carriesAcq, acqChanChange, Chan.all] at h
  simp [laneAfterChange, Chan.all, h]

/-- R53: the primes after a change of TRIG class from an old record. -/
def primed (old : Setup) (s : State) : State :=
  if old.tsrc ≠ s.setup.tsrc ∨ old.tslope ≠ s.setup.tslope then clearPrimes s else s

theorem autoDue_primed (old : Setup) (s : State) : autoDue (primed old s) = autoDue s := by
  unfold primed
  split <;> rfl

theorem trigChange_eq (old : Setup) (s : State) : trigChange old s =
    if (old.tmode ≠ s.setup.tmode ∨ old.tauto ≠ s.setup.tauto) ∧ autoDue s = true then
      acceptTrigger .auto s.acq.timeTag (primed old s) else primed old s := by
  have htag : (primed old s).acq.timeTag = s.acq.timeTag := by
    unfold primed
    split <;> rfl
  rw [← autoDue_primed old s, ← htag]
  rfl

/-- R53, R55: a change under which no AUTO deadline is past clears primes and nothing else of the state. -/
theorem tellTrig_quiet {a b : Setup} {s : State} (h : autoDue s = false) :
    tellTrig a b s = s ∨ tellTrig a b s = clearPrimes s := by
  unfold tellTrig
  split
  · rw [trigChange_eq, if_neg (by simp [h]), primed]
    split
    · exact .inr rfl
    · exact .inl rfl
  · exact .inl rfl

/-! ## The state and the last trigger after a start -/

/-- R13, R63: ACQ is not STOPPED; with no force pending it has armed, waits in HELD or rolls, its last trigger tag kept. -/
def Restarted (s t : State) : Prop :=
  t.acq.state ≠ .stopped ∧ (s.acq.forcePending = false → t.acq.lastTrig = s.acq.lastTrig ∧
    t.acq.state ∈ [AcqState.arming, .waiting, .held, .rolling])

theorem beginCapture_restarted (k : Nat) (i : SegInfo) (s : State) : Restarted s (beginCapture k i s) := by
  simp only [beginCapture]
  split
  · simp only [readyAtOnce]
    split
    next hforce => exact ⟨by simp [enterCapturing, setAcqState], fun h => by cases h.symm.trans hforce⟩
    next => exact ⟨by simp [setAcqState], fun _ => ⟨by simp, by simp [setAcqState]⟩⟩
  · exact ⟨by simp [setAcqState], fun _ => ⟨by simp, by simp [setAcqState]⟩⟩

theorem enterHeld_restarted (s : State) : Restarted s (enterHeld s) :=
  ⟨by simp [enterHeld, setAcqState], fun _ => ⟨by simp, by simp [enterHeld, setAcqState]⟩⟩

/-- What a start leaves depends on the force pending and the last trigger tag of the state it starts from. -/
theorem Restarted.of_eq {s s' t : State} (h : Restarted s' t) (hforce : s'.acq.forcePending = s.acq.forcePending)
    (htrig : s'.acq.lastTrig = s.acq.lastTrig) : Restarted s t :=
  ⟨h.1, fun hs => ⟨(h.2 (hforce.trans hs)).1.trans htrig, (h.2 (hforce.trans hs)).2⟩⟩

theorem arm_restarted (k : Nat) (s : State) : Restarted s (arm k s) := by
  simp only [arm]
  split
  · exact (enterHeld_restarted _).of_eq rfl rfl
  · exact (beginCapture_restarted _ _ _).of_eq rfl rfl

theorem enterRoll_restarted (s : State) : Restarted s (enterRoll s) := by
  simp only [enterRoll]
  split
  · exact (enterHeld_restarted _).of_eq rfl rfl
  · exact ⟨by simp [beginRoll, setAcqState], fun _ => ⟨rfl, by simp [beginRoll, setAcqState]⟩⟩

theorem launch_restarted (s : State) : Restarted s (launch s) := by
  unfold launch
  split
  · simp only [armRepeatOrRoll]
    split
    · exact (enterRoll_restarted _).of_eq rfl rfl
    · exact (arm_restarted _ _).of_eq rfl rfl
  · exact (arm_restarted _ _).of_eq rfl rfl

/-! ## What a change of ACQ class starts from -/

theorem abandon_acq (s : State) : (abandon s).acq =
    (setSeg s.acq.cur (.free 0) (discardPoints { s with acq := { s.acq with forcePending := false } })).acq := by
  simp only [abandon]
  split
  · simp only [rasterLeaveRoll_frame]
  · rfl

/-- R63: the state from which a change of ACQ class starts a run: the capture or roll in flight abandoned, HELD as it is. -/
def beforeRestart (s : State) : State := if s.acq.state = .held then s else abandon s

theorem acqChange_eq {s : State} (h : s.acq.state ≠ .stopped) : acqChange s = launch (beforeRestart s) := by
  unfold acqChange beforeRestart
  cases hs : s.acq.state with
  | stopped => exact absurd hs h
  | held => rfl
  | arming | waiting | capturing | rolling => rfl

theorem beforeRestart_of_ne {s : State} (h : s.acq.state ≠ .held) : beforeRestart s = abandon s := if_neg h

theorem acqChange_restarted {s : State} (h : s.acq.state ≠ .stopped) :
    (acqChange s).acq.state ≠ .stopped ∧ (s.acq.forcePending = false ∨ s.acq.state ≠ .held →
      (acqChange s).acq.lastTrig = s.acq.lastTrig ∧ (acqChange s).acq.state ∈ [AcqState.arming, .waiting, .held, .rolling]) := by
  rw [acqChange_eq h]
  have hr := launch_restarted (beforeRestart s)
  refine ⟨hr.1, fun hforce => ?_⟩
  by_cases hheld : s.acq.state = .held
  · rw [beforeRestart, if_pos hheld] at hr ⊢
    exact hr.2 (hforce.resolve_right (not_not.mpr hheld))
  · rw [beforeRestart_of_ne hheld] at hr ⊢
    have htrig : (abandon s).acq.lastTrig = s.acq.lastTrig := by simp
    exact htrig ▸ hr.2 (by rw [abandon_acq]; rfl)

end Sys2Proof.Machine
end

section
/-! SUPPORT. The run that a change of ACQ class starts, the picture of a roll it leaves, and the AUTO trigger that a change of
TRIG class fires (O15). -/

namespace Sys2Proof.Machine

/-! ## The whole change -/

theorem tellMap_acq (a b : Setup) (s : State) : (tellMap a b s).acq = s.acq := by simp

theorem tellAnnotation_acq (a b : Setup) (s : State) : (tellAnnotation a b s).acq = s.acq := by simp

/-- R13: what a stored change makes of ACQ is what ACQ and the trigger make of it. -/
theorem tellBlocks_acq (a b : Setup) (s : State) :
    (tellBlocks a b s).acq = (tellTrig a b (tellAcq a b (laneAfterChange a b s))).acq := by
  rw [tellBlocks, tellAnnotation_acq, tellMap_acq]

theorem autoDue_of_ne_waiting {s : State} (h : s.acq.state ≠ .waiting) : autoDue s = false := by
  simp only [autoDue, h, decide_false, Bool.false_and]

/-- R13: while ACQ is STOPPED a change clears primes at most. -/
theorem adopt_stopped (u : Setup) {s : State} (h : s.acq.state = .stopped) :
    (adopt u s).acq = s.acq ∨ (adopt u s).acq = { s.acq with risePrime := false, fallPrime := false } := by
  unfold adopt
  split
  · exact .inl rfl
  · have hlane : (laneAfterChange s.setup u (stored u s)).acq = s.acq := by simp [stored]
    have hacq : tellAcq s.setup u (laneAfterChange s.setup u (stored u s)) = laneAfterChange s.setup u (stored u s) := by
      unfold tellAcq acqChange
      rw [hlane, h]
      exact ite_self _
    have hdue : autoDue (laneAfterChange s.setup u (stored u s)) = false := autoDue_of_ne_waiting (by rw [hlane, h]; simp)
    rw [← stored, tellBlocks_acq, hacq]
    rcases tellTrig_quiet (a := s.setup) (b := u) hdue with ht | ht
    · exact .inl (by rw [ht, hlane])
    · exact .inr (by rw [ht, clearPrimes, hlane])

/-- R63: a change that carries ACQ and not TRIG restarts or leaves ACQ waiting in HELD. -/
theorem adopt_acqChange {u : Setup} {s : State} (ha : carriesAcq s.setup u = true) (ht : carriesTrig s.setup u = false) :
    (adopt u s).acq = (acqChange (laneAfterChange s.setup u (stored u s))).acq := by
  rw [adopt_eq_tellBlocks (.inl ha), tellBlocks_acq, tellTrig, ht, tellAcq, ha]
  rfl

/-! ## The started run -/

/-- R48: a started run that stands in WAITING became READY at its start. -/
theorem RunStarted.waiting_readyTick {s t : State} (h : RunStarted s t) (hw : t.acq.state = .waiting) :
    t.acq.readyTick = s.acq.timeTag := by
  have hheld : ∀ p, ¬ HeldForPin p s t := fun p hp => by
    rw [hp.1] at hw
    cases hw
  have harmed : ∀ p k g, Armed p k g s t → t.acq.readyTick = s.acq.timeTag := by
    rintro p k g ⟨forced, -, hstate, -, -, -, -, -, -, -, -, -, -, -, hready, -⟩
    refine hready ?_
    by_contra hpre
    rw [hstate, if_neg hpre] at hw
    cases forced <;> cases hw
  obtain ⟨hrep, hseg⟩ := h
  cases hm : s.setup.runmode with
  | repeats =>
    obtain ⟨-, -, -, hroll, harm⟩ := hrep hm
    by_cases hc : s.setup.roll = true ∧ s.setup.runmode = .repeats ∧ 21 ≤ s.setup.tbase
    · obtain ⟨g, -, hentered, hwaits⟩ := hroll hc
      by_cases hp : MeetsPin 0 g.size s
      · exact absurd (hwaits hp).1 (hheld _)
      · obtain ⟨hstate, -⟩ := hentered hp
        rw [hstate] at hw
        cases hw
    · obtain ⟨-, hfree, hpin⟩ := harm hc
      by_cases hp : MeetsPin (bufferChoice s) s.setup.geometry.size s
      · exact absurd (hpin hp) (hheld _)
      · exact harmed _ _ _ (hfree hp)
  | segmented =>
    obtain ⟨-, -, -, -, hfree, hpin⟩ := hseg hm
    by_cases hp : MeetsPin 0 s.setup.geometry.size s
    · exact absurd (hpin hp) (hheld _)
    · exact harmed _ _ _ (hfree hp)

/-- R55: no AUTO deadline is past at the start of a run. -/
theorem RunStarted.not_autoDue {s t : State} (h : RunStarted s t) (htag : t.acq.timeTag = s.acq.timeTag)
    (htauto : 0 < t.setup.tauto) : autoDue t = false := by
  by_cases hw : t.acq.state = .waiting
  · have hzero : (t.acq.timeTag - t.acq.readyTick).toNat = 0 := by simp [h.waiting_readyTick hw, htag]
    have hlate : ¬ t.setup.tauto * 125000 ≤ (t.acq.timeTag - t.acq.readyTick).toNat := by omega
    simp only [autoDue, hlate, decide_false, Bool.and_false]
  · exact autoDue_of_ne_waiting hw

/-- R93: planes that are empty stay so, and a job that is none stays none. -/
theorem mapChange_rolled (set : PerChan Bool) {s : State} (h : s.raster = ⟨.const [], [], none, none, 0, false⟩)
    (hs : s.acq.state ≠ .stopped) : (mapChange set s).raster = s.raster := by
  have hclear : (clearPlanes set s).raster = s.raster := by
    simp [clearPlanes, clearMeetsJob, clearedPlanes, h, PerChan.ofFn, PerChan.const, PerChan.get]
  have hstate : (clearPlanes set s).acq.state ≠ .stopped := hs
  simp only [mapChange, hstate, false_and, if_false]
  exact hclear

theorem tellMap_rolled (a b : Setup) {s : State} (h : s.raster = ⟨.const [], [], none, none, 0, false⟩)
    (hs : s.acq.state ≠ .stopped) : (tellMap a b s).raster = s.raster := by
  unfold tellMap
  split
  · exact mapChange_rolled _ h hs
  · rfl

/-- The state in which a change of ACQ class finds ACQ, when that has told the lanes. -/
def lanesTold (u : Setup) (s : State) : State := laneAfterChange s.setup u (stored u s)

theorem lanesTold_frame (u : Setup) (s : State) : (lanesTold u s).setup = u ∧ (lanesTold u s).gen = s.gen + 1 ∧
    (lanesTold u s).acq = s.acq ∧ (lanesTold u s).raster = s.raster ∧ (lanesTold u s).compose = s.compose := by
  simp [lanesTold, stored]

theorem segTableOk_beforeRestart {s : State} (h : SegTableOk s) : SegTableOk (beforeRestart s) := by
  unfold beforeRestart
  split
  · exact h
  · rw [SegTableOk, abandon_acq]
    simp only [setSeg, discardPoints]
    exact tabRising_tabSet _ _ _ _ h

/-- R63: the state whose run a change of ACQ class is stated to start: the record and G of the change, the segment in flight
FREE with its points and a pending force gone. -/
def restartBase (u : Setup) (s : State) : State :=
  { s with
    setup := u
    gen := s.gen + 1
    acq := if s.acq.state = .held then s.acq else { s.acq with
      forcePending := false, points := [], segs := tabSet (.free 0) s.acq.segs s.acq.cur ⟨.free, 0, none⟩ } }

theorem beforeRestart_frame (s : State) : (beforeRestart s).setup = s.setup ∧ (beforeRestart s).gen = s.gen ∧
    (beforeRestart s).raster.job = s.raster.job ∧ (beforeRestart s).raster.list = s.raster.list ∧
    (beforeRestart s).acq.timeTag = s.acq.timeTag := by
  unfold beforeRestart
  split <;> simp

/-- R63: a run started after the abandoning is a run started from the stated base. -/
theorem runStarted_restartBase {u : Setup} {s t : State} (h : RunStarted (beforeRestart (lanesTold u s)) t) :
    RunStarted (restartBase u s) t := by
  obtain ⟨hsetup, hgen, hacq, hraster, -⟩ := lanesTold_frame u s
  obtain ⟨bsetup, bgen, bjob, blist, -⟩ := beforeRestart_frame (lanesTold u s)
  have hbase : (beforeRestart (lanesTold u s)).acq = if s.acq.state = .held then s.acq else
      (setSeg s.acq.cur (.free 0) (discardPoints { s with acq := { s.acq with forcePending := false } })).acq := by
    unfold beforeRestart
    rw [hacq]
    split
    · exact hacq
    · rw [abandon_acq, setSeg, discardPoints, hacq]
      rfl
  refine h.congr (bsetup.trans hsetup).symm (bgen.trans hgen).symm ?_ ?_ ?_ ?_
  · rw [bjob, hraster]
    rfl
  · rw [blist, hraster]
    rfl
  · rw [hbase, restartBase]
    split <;> rfl
  · rw [hbase, restartBase]
    split <;> exact ⟨rfl, rfl, rfl, rfl, rfl, rfl, rfl, rfl, rfl, rfl, rfl, rfl, rfl⟩

end Sys2Proof.Machine
end

section
/-! SUPPORT. The parts of O15 put together: the restarted run with the picture it leaves, the AUTO trigger of a TRIG change. -/

namespace Sys2Proof.Machine

/-! ## A restart by a change of ACQ class -/

section
variable {u : Setup} {s : State}

theorem launch_runStarted (hseg : SegTableOk s) :
    RunStarted (beforeRestart (lanesTold u s)) (launch (beforeRestart (lanesTold u s))) := by
  obtain ⟨-, -, htold, -⟩ := lanesTold_frame u s
  refine launch_spec _ (segTableOk_beforeRestart ?_)
  rw [SegTableOk, htold]
  exact hseg

/-- R13: after a restart the trigger clears primes at most, then RASTER and COMPOSE are told. -/
theorem adopt_afterRestart (hseg : SegTableOk s) (hne : s.acq.state ≠ .stopped) (hacq : carriesAcq s.setup u = true)
    (htauto : 0 < u.tauto) : ∃ x, (x = launch (beforeRestart (lanesTold u s)) ∨
      x = clearPrimes (launch (beforeRestart (lanesTold u s)))) ∧
      adopt u s = tellAnnotation s.setup u (tellMap s.setup u x) := by
  obtain ⟨hsetup, -, htold, -⟩ := lanesTold_frame u s
  obtain ⟨bsetup, -, -, -, -⟩ := beforeRestart_frame (lanesTold u s)
  have htell : tellAcq s.setup u (lanesTold u s) = launch (beforeRestart (lanesTold u s)) := by
    rw [tellAcq, if_pos hacq, acqChange_eq (by rw [htold]; exact hne)]
  have hdue := (launch_runStarted (u := u) hseg).not_autoDue (by simp)
    (by rw [(launch_frame _).1, bsetup, hsetup]; exact htauto)
  refine ⟨_, tellTrig_quiet (a := s.setup) (b := u) hdue, ?_⟩
  rw [adopt_eq_tellBlocks (.inl hacq), tellBlocks, ← htell]
  rfl

/-- R37, R38, R47, R57, R58, R60, R63: a change of ACQ class outside STOPPED starts a run. -/
theorem adopt_runStarted (hseg : SegTableOk s) (hne : s.acq.state ≠ .stopped) (hacq : carriesAcq s.setup u = true)
    (htauto : 0 < u.tauto) : RunStarted (restartBase u s) (adopt u s) := by
  have hstart := launch_runStarted (u := u) hseg
  obtain ⟨x, hx, hadopt⟩ := adopt_afterRestart hseg hne hacq htauto
  have hlink : x.link = (launch (beforeRestart (lanesTold u s))).link := by rcases hx with rfl | rfl <;> rfl
  have hraster : x.raster = (launch (beforeRestart (lanesTold u s))).raster := by rcases hx with rfl | rfl <;> rfl
  have hstate : x.acq.state = (launch (beforeRestart (lanesTold u s))).acq.state := by rcases hx with rfl | rfl <;> rfl
  refine (runStarted_restartBase hstart).carry ?_ ?_ ?_
  · rw [hadopt, tellAnnotation_acq, tellMap_acq]
    rcases hx with rfl | rfl
    · exact .inl rfl
    · exact .inr rfl
  · rw [hadopt, show (tellAnnotation s.setup u (tellMap s.setup u x)).link = x.link by simp, hlink]
    exact id
  · intro hroll
    rw [hadopt, show (tellAnnotation s.setup u (tellMap s.setup u x)).raster = (tellMap s.setup u x).raster by simp]
    refine (tellMap_rolled _ _ (hraster.trans (hstart.rolling_raster hroll)) ?_).trans hraster
    rw [hstate, hroll]
    simp

theorem abandon_rolling (h : s.acq.state = .rolling) :
    (abandon s).raster = (rasterLeaveRoll none s).raster ∧ (abandon s).compose.startCol = 0 := by
  simp only [abandon, if_pos h]
  exact ⟨rfl, rfl⟩

/-- R93, R110: a MAP change leaves the planes of the channels it does not affect. -/
theorem tellMap_planes {a b : Setup} {n : Chan} (h : (mapChannels a b).get n = false) :
    (tellMap a b s).raster.planes.get n = s.raster.planes.get n := by
  have hclear : (clearPlanes (mapChannels a b) s).raster.planes.get n = s.raster.planes.get n := by
    cases n <;> simp_all [clearPlanes, clearedPlanes, PerChan.ofFn, PerChan.get]
  unfold tellMap
  split
  · simp only [mapChange]
    (repeat' split) <;> simpa using hclear
  · rfl

theorem mapChannels_eq_false {a b : Setup} {n : Chan} (hpersist : b.persist = a.persist) (hstyle : b.style = a.style)
    (hscale : (b.ch.get n).scale = (a.ch.get n).scale) (hpos : (b.ch.get n).pos = (a.ch.get n).pos) :
    (mapChannels a b).get n = false := by
  cases n <;> simp_all [mapChannels, PerChan.ofFn, PerChan.get]

/-- R113: a roll that a change leaves for good is brought into window order. -/
theorem adopt_leavesRoll (hseg : SegTableOk s) (hacq : carriesAcq s.setup u = true) (htauto : 0 < u.tauto)
    (hroll : s.acq.state = .rolling) (hleft : (adopt u s).acq.state ≠ .rolling) :
    (adopt u s).raster.writeCol = 0 ∧ (adopt u s).raster.wrapped = false ∧ (adopt u s).compose.startCol = 0 ∧
    (adopt u s).raster.view = s.raster.view ∧ ∀ n, (mapChannels s.setup u).get n = false →
      (adopt u s).raster.planes.get n = (rasterLeaveRoll none s).raster.planes.get n := by
  obtain ⟨x, hx, hadopt⟩ := adopt_afterRestart hseg (by rw [hroll]; simp) hacq htauto
  obtain ⟨-, -, htold, hraster, -⟩ := lanesTold_frame u s
  have hrolled : (lanesTold u s).acq.state = .rolling := by rw [htold, hroll]
  obtain ⟨habandon, hstart⟩ := abandon_rolling hrolled
  have hbefore : beforeRestart (lanesTold u s) = abandon (lanesTold u s) := beforeRestart_of_ne (by rw [hrolled]; simp)
  rw [hbefore] at hx
  have hstate : x.acq.state ≠ .rolling := by
    rw [hadopt, tellAnnotation_acq, tellMap_acq] at hleft
    exact hleft
  have hxr : x.raster = (rasterLeaveRoll none s).raster := by
    have hl : x.raster = (launch (abandon (lanesTold u s))).raster := by rcases hx with rfl | rfl <;> rfl
    have hn : (launch (abandon (lanesTold u s))).acq.state ≠ .rolling := by rcases hx with rfl | rfl <;> exact hstate
    rw [hl, launch_raster _ hn, habandon]
    simp only [rasterLeaveRoll, takeStartCol, hraster]
  have hxc : x.compose.startCol = 0 := by
    have hl : x.compose.startCol = (launch (abandon (lanesTold u s))).compose.startCol := by rcases hx with rfl | rfl <;> rfl
    rw [hl, ← hstart]
    simp
  rw [hadopt]
  refine ⟨?_, ?_, ?_, ?_, fun n hn => ?_⟩
  · simp [hxr, rasterLeaveRoll, takeStartCol]
  · simp [hxr, rasterLeaveRoll, takeStartCol]
  · simpa using hxc
  · simp [hxr, rasterLeaveRoll, takeStartCol]
  · rw [show (tellAnnotation s.setup u (tellMap s.setup u x)).raster = (tellMap s.setup u x).raster by simp,
      tellMap_planes hn, hxr]

end

/-! ## A change of TRIG class -/

theorem adopt_trigChange {u : Setup} {s : State} (hacq : carriesAcq s.setup u = false) (htrig : carriesTrig s.setup u = true) :
    adopt u s = tellAnnotation s.setup u (tellMap s.setup u (trigChange s.setup (stored u s))) := by
  rw [adopt_eq_tellBlocks (.inr htrig), tellBlocks, laneAfterChange_of_not_carriesAcq hacq, tellAcq, if_neg (by simp [hacq]),
    tellTrig, if_pos htrig]

theorem autoDue_stored (u : Setup) (s : State) : autoDue (stored u s) = true ↔ s.acq.state = .waiting ∧ u.tmode = .auto ∧
    u.tauto * 125000 ≤ (s.acq.timeTag - s.acq.readyTick).toNat := by
  simp only [autoDue, Bool.and_eq_true, decide_eq_true_eq, and_assoc]
  rfl

theorem primed_acq (old u : Setup) (s : State) : (primed old (stored u s)).acq =
    if old.tsrc ≠ u.tsrc ∨ old.tslope ≠ u.tslope then { s.acq with risePrime := false, fallPrime := false } else s.acq := by
  unfold primed
  split
  next h => exact (if_pos (show old.tsrc ≠ u.tsrc ∨ old.tslope ≠ u.tslope from h)).symm
  next h => exact (if_neg (show ¬(old.tsrc ≠ u.tsrc ∨ old.tslope ≠ u.tslope) from h)).symm

/-- R53, R55: the state a past AUTO deadline fires from, primes cleared or not. -/
theorem primed_stored {old u : Setup} {s : State} {clear : Bool}
    (h : clear = decide (old.tsrc ≠ u.tsrc ∨ old.tslope ≠ u.tslope)) : primed old (stored u s) = { s with
      setup := u, gen := s.gen + 1
      acq := { s.acq with risePrime := s.acq.risePrime && !clear, fallPrime := s.acq.fallPrime && !clear } } := by
  unfold primed
  split
  next hc =>
    have hclear : clear = true := by rw [h]; exact decide_eq_true hc
    simp only [hclear, Bool.not_true, Bool.and_false]
    rfl
  next hc =>
    have hclear : clear = false := by rw [h]; exact decide_eq_false hc
    simp only [hclear, Bool.not_false, Bool.and_true]
    rfl

/-- R49: an accepted trigger before the record is whole marks the segment and fills it. -/
theorem acceptTrigger_filling {kind : TrigKind} {tag : Tick} {i : SegInfo} {s : State} (hi : (curSeg s).info = some i)
    (h : i.geo.pre < i.geo.len) : (acceptTrigger kind tag s).acq.state = .capturing ∧
      segAt (acceptTrigger kind tag s) s.acq.cur = { curSeg s with state := .filling, info := some { i with
        trigTag := some tag, trigKind := some kind, geo := { i.geo with origin := originFor s.acq.preCount i.geo.pre } } } ∧
      (∀ k, k ≠ s.acq.cur → segAt (acceptTrigger kind tag s) k = segAt s k) ∧
      (acceptTrigger kind tag s).acq.lastTrig = some tag ∧ (acceptTrigger kind tag s).acq.mem = s.acq.mem := by
  have hmark : curSeg (markTrigger kind tag s) = { curSeg s with info := some { i with
      trigTag := some tag, trigKind := some kind, geo := { i.geo with origin := originFor s.acq.preCount i.geo.pre } } } := by
    simp only [markTrigger, hi]
    simp [curSeg, setSeg, segAt]
  have haccept : acceptTrigger kind tag s = enterCapturing (markTrigger kind tag s) := by
    simp only [acceptTrigger, hmark, if_pos h]
  have hcur : (markTrigger kind tag s).acq.cur = s.acq.cur := by
    simp only [markTrigger, hi]
    rfl
  have hseg : ∀ k, segAt (acceptTrigger kind tag s) k =
      segAt (setSeg s.acq.cur { curSeg (markTrigger kind tag s) with state := .filling } (markTrigger kind tag s)) k := fun k => by
    rw [haccept, ← hcur]
    rfl
  refine ⟨by rw [haccept]; rfl, ?_, fun k hk => ?_, ?_, ?_⟩
  · rw [hseg, segAt_setSeg_same, hmark]
  · rw [hseg, segAt_setSeg_other _ _ _ _ hk]
    simp only [markTrigger, hi]
    exact segAt_setSeg_other _ _ _ _ hk
  · rw [haccept]
    simp only [markTrigger, hi]
    rfl
  · rw [haccept]
    simp

/-- R55: whether a change of TRIG class puts the AUTO deadline of a READY segment in the past. -/
abbrev FiresAuto (u : Setup) (s : State) : Prop :=
  (s.setup.tmode ≠ u.tmode ∨ s.setup.tauto ≠ u.tauto) ∧ s.acq.state = .waiting ∧ u.tmode = .auto ∧
    u.tauto * 125000 ≤ (s.acq.timeTag - s.acq.readyTick).toNat

theorem trigChange_stored_fires {u : Setup} {s : State} (h : FiresAuto u s) :
    trigChange s.setup (stored u s) = acceptTrigger .auto s.acq.timeTag (primed s.setup (stored u s)) := by
  obtain ⟨hchange, hdue⟩ := h
  rw [trigChange_eq, if_pos ⟨hchange, (autoDue_stored u s).mpr hdue⟩]
  rfl

theorem trigChange_stored_quiet {u : Setup} {s : State} (h : ¬ FiresAuto u s) :
    trigChange s.setup (stored u s) = primed s.setup (stored u s) := by
  rw [trigChange_eq, if_neg]
  exact fun ⟨hchange, hdue⟩ => h ⟨hchange, (autoDue_stored u s).mp hdue⟩

theorem adopt_trigChange_acq {u : Setup} {s : State} (hacq : carriesAcq s.setup u = false)
    (htrig : carriesTrig s.setup u = true) : (adopt u s).acq = (trigChange s.setup (stored u s)).acq := by
  rw [adopt_trigChange hacq htrig, tellAnnotation_acq, tellMap_acq]

/-- What stands in the table of segments is a matter of ACQ alone. -/
theorem segAt_of_segs {s t : State} (h : t.acq.segs = s.acq.segs) (k : Nat) : segAt t k = segAt s k := by
  simp only [segAt, h]

/-- R55: a change of TMODE or TAUTO that fires AUTO on a segment that is not whole. -/
theorem adopt_firesAuto {u : Setup} {s : State} {r : SegRecord} {i : SegInfo} (hacq : carriesAcq s.setup u = false)
    (htrig : carriesTrig s.setup u = true) (hfires : FiresAuto u s) (hr : segAt s s.acq.cur = r) (hi : r.info = some i)
    (h : i.geo.pre < i.geo.len) :
    (adopt u s).acq.state = .capturing ∧ segAt (adopt u s) s.acq.cur = { r with state := .filling, info := some { i with
        trigTag := some s.acq.timeTag, trigKind := some .auto
        geo := { i.geo with origin := if i.geo.pre = 0 then 0 else s.acq.preCount % i.geo.pre } } } ∧
      (∀ k, k ≠ s.acq.cur → segAt (adopt u s) k = segAt s k) ∧ (adopt u s).acq.lastTrig = some s.acq.timeTag ∧
      (adopt u s).acq.mem = s.acq.mem := by
  have hadopt := (adopt_trigChange_acq hacq htrig).trans (congrArg State.acq (trigChange_stored_fires hfires))
  have hprimed := primed_acq s.setup u s
  have hcur : (primed s.setup (stored u s)).acq.cur = s.acq.cur := by rw [hprimed]; split <;> rfl
  have hsegs : (primed s.setup (stored u s)).acq.segs = s.acq.segs := by rw [hprimed]; split <;> rfl
  have hcount : (primed s.setup (stored u s)).acq.preCount = s.acq.preCount := by rw [hprimed]; split <;> rfl
  have hmem : (primed s.setup (stored u s)).acq.mem = s.acq.mem := by rw [hprimed]; split <;> rfl
  have hcurSeg : curSeg (primed s.setup (stored u s)) = r := by rw [curSeg, hcur, segAt_of_segs hsegs, hr]
  obtain ⟨hstate, hfilled, hother, htag, hkept⟩ := acceptTrigger_filling (kind := .auto) (tag := s.acq.timeTag)
    (s := primed s.setup (stored u s)) (hcurSeg ▸ hi) h
  have hseg := segAt_of_segs (congrArg Acq.segs hadopt)
  rw [hcur, hcount, hcurSeg] at hfilled
  refine ⟨by rw [hadopt]; exact hstate, (hseg _).trans hfilled, fun k hk => ?_, by rw [hadopt]; exact htag,
    by rw [hadopt]; exact hkept.trans hmem⟩
  rw [hseg k, hother k (hcur ▸ hk), segAt_of_segs hsegs]

theorem carriesTrig_of_auto {a b : Setup} (h : a.tmode ≠ b.tmode ∨ a.tauto ≠ b.tauto) : carriesTrig a b = true := by
  rcases h with h | h <;> simp [carriesTrig, h]

/-- R50: the row CAPTURE_END on a triggered record whose points are all written. -/
theorem exec_captureEnd_triggered {kind : TrigKind} {tag : Tick} {i : SegInfo} {s : State} (hreset : s.pins.resetLow = false)
    (h : i.geo.len ≤ i.geo.pre) : exec .captureEnd (triggered kind tag i s) = .next (captureEnd (triggered kind tag i s)) := by
  have hinfo : (curSeg (triggered kind tag i s)).info = some { i with
      trigTag := some tag, trigKind := some kind
      geo := { i.geo with origin := if i.geo.pre = 0 then 0 else s.acq.preCount % i.geo.pre } } := by
    simp [curSeg, segAt, triggered]
  have hend : endDue (triggered kind tag i s) = true := by
    simp only [endDue, hinfo, Bool.and_eq_true, decide_eq_true_eq]
    exact ⟨rfl, Nat.le_add_right_of_le h⟩
  refine (live_high (s := triggered kind tag i s) hreset).trans (congrArg _ ?_)
  rw [whenDue, if_pos hend]

/-- R49, R50, R55: with P = L the AUTO trigger is the capture end under the new record. -/
theorem adopt_firesAuto_whole {u : Setup} {s : State} {i : SegInfo} (hacq : carriesAcq s.setup u = false)
    (hfires : FiresAuto u s) (hi : (segAt s s.acq.cur).info = some i) (h : i.geo.len ≤ i.geo.pre) :
    adopt u s = tellAnnotation s.setup u (tellMap s.setup u
      (captureEnd (triggered .auto s.acq.timeTag i (primed s.setup (stored u s))))) := by
  have hprimed := primed_acq s.setup u s
  have hcur : (primed s.setup (stored u s)).acq.cur = s.acq.cur := by rw [hprimed]; split <;> rfl
  have hsegs : (primed s.setup (stored u s)).acq.segs = s.acq.segs := by rw [hprimed]; split <;> rfl
  have hinfo : (curSeg (primed s.setup (stored u s))).info = some i := by rw [curSeg, hcur, segAt_of_segs hsegs, hi]
  rw [adopt_trigChange hacq (carriesTrig_of_auto hfires.1), trigChange_stored_fires hfires,
    acceptTrigger_whole .auto s.acq.timeTag i _ hinfo h]

/-- Settles O15: the change in STOPPED, the restart, the change of TRIG class, and the trigger that is a capture end. -/
theorem acqChangeKeepsStoppedOrRearms : Obligations.AcqChangeKeepsStoppedOrRearms := by
  refine ⟨fun u s => ⟨fun hstop => ?_, fun hne hacq htrig => ?_⟩, fun u s v t hseg hne hacq htauto hv ht => ?_,
    fun u s fires hacq htrig hfires => ⟨fun hquiet => ?_, fun r i hfire hr hi h => ?_⟩,
    fun u s i clear hacq hchange hwait hauto hlate hi h hreset hclear => ?_⟩
  · rcases adopt_stopped u hstop with h | h <;> rw [h] <;> exact ⟨hstop, rfl, rfl, rfl, rfl, rfl, rfl⟩
  · obtain ⟨-, -, htold, -⟩ := lanesTold_frame u s
    have hadopt : (adopt u s).acq = (acqChange (lanesTold u s)).acq := adopt_acqChange hacq htrig
    have hrestart := acqChange_restarted (s := lanesTold u s) (by rw [htold]; exact hne)
    rw [htold] at hrestart
    rw [hadopt]
    exact ⟨hrestart.1, by simp [htold], hrestart.2⟩
  · subst hv ht
    refine ⟨adopt_runStarted hseg hne hacq htauto, (adopt_record u s).1, ?_, by simp, by simp, fun hroll hleft => ?_⟩
    · rw [(adopt_record u s).2, if_neg fun hu => by rw [hu, carriesAcq_self] at hacq; cases hacq]
    · obtain ⟨hcol, hwrapped, hstart, hview, hplanes⟩ := adopt_leavesRoll hseg hacq htauto hroll hleft
      refine ⟨hcol, hwrapped, hstart, hview, fun n c r hok hc hr hpersist hstyle hscale hpos => ?_⟩
      rw [hplanes n (mapChannels_eq_false hpersist hstyle hscale hpos)]
      exact rasterLeaveRoll_picture none s n c r hok hc hr
  · have hnot : ¬ FiresAuto u s := of_decide_eq_false (hfires.symm.trans hquiet)
    rw [adopt_trigChange_acq hacq htrig, trigChange_stored_quiet hnot, primed_acq]
    exact ⟨fun hsrc hslope => if_neg (by simp [hsrc, hslope]), fun hc => if_pos hc⟩
  · have hyes : FiresAuto u s := of_decide_eq_true (hfires.symm.trans hfire)
    exact adopt_firesAuto hacq htrig hyes hr hi h
  · have hfires : FiresAuto u s := ⟨hchange, hwait, hauto, hlate⟩
    rw [← primed_stored hclear, adopt_firesAuto_whole hacq hfires hi h]
    refine ⟨_, exec_captureEnd_triggered ?_ h, ?_⟩
    · rw [primed_stored hclear]
      exact hreset
    · have hsetup : (triggered .auto s.acq.timeTag i (primed s.setup (stored u s))).setup = u := by
        rw [primed_stored hclear]
        rfl
      simp [hsetup]

end Sys2Proof.Machine
end

section
/-! SUPPORT. Every step keeps the acquisition memory in its canonical form: the writes of points, columns and rolls, then whatever may
start a run, then the rows one by one (O54). -/

namespace Sys2Proof.Machine

/-! ## What writes the memory -/

theorem MemoryOk.of_mem {s t : State} (h : MemoryOk s) (he : t.acq.mem = s.acq.mem) : MemoryOk t := by
  rw [MemoryOk, he]
  exact h

theorem MemoryOk.of_acq {s t : State} (h : MemoryOk s) (he : t.acq = s.acq) : MemoryOk t := h.of_mem (by rw [he])

theorem memoryOk_writePoint {s : State} (h : MemoryOk s) : MemoryOk (writePoint s) := by
  unfold writePoint
  split
  · exact h
  · split
    · exact Memory.wf_portStore _ _ _ h
    · split
      · exact h
      · exact Memory.wf_portStore _ _ _ h
    · split
      · exact h
      · exact Memory.wf_portStore _ _ _ h
    · exact h

theorem memoryOk_writeColumn {s : State} (h : MemoryOk s) : MemoryOk (writeColumn s) := by
  unfold writeColumn
  split
  · exact h
  · exact Memory.wf_portStore _ _ _ h

theorem memoryOk_writeInterval {s : State} (h : MemoryOk s) : MemoryOk (writeInterval s) := by
  unfold writeInterval
  split
  · exact memoryOk_writeColumn h
  · exact memoryOk_writePoint h

/-- R60: the entry into ROLLING fills its region, or waits in HELD. -/
theorem memoryOk_enterRoll {s : State} (h : MemoryOk s) : MemoryOk (enterRoll s) := by
  simp only [enterRoll]
  split
  · exact h.of_mem (by simp)
  · exact Memory.wf_fillRoll _ _ h

/-! ## What may start a run -/

theorem memoryOk_armRepeatOrRoll {s : State} (h : MemoryOk s) : MemoryOk (armRepeatOrRoll s) := by
  simp only [armRepeatOrRoll]
  split
  · exact memoryOk_enterRoll h
  · exact h.of_mem (by simp)

theorem memoryOk_launch {s : State} (h : MemoryOk s) : MemoryOk (launch s) := by
  unfold launch
  split
  · exact memoryOk_armRepeatOrRoll h
  · exact h.of_mem (by simp)

theorem memoryOk_startRun {one : Bool} {s : State} (h : MemoryOk s) : MemoryOk (startRun one s) := memoryOk_launch h

theorem memoryOk_armHeld {s : State} (h : MemoryOk s) : MemoryOk (armHeld s) := by
  unfold armHeld
  split
  · exact h.of_mem (by simp)
  all_goals exact memoryOk_armRepeatOrRoll h

theorem memoryOk_runAcq {s : State} (h : MemoryOk s) : MemoryOk (runAcq s) := by
  unfold runAcq
  split
  · exact memoryOk_startRun h
  · exact h

theorem memoryOk_singleAcq {s : State} (h : MemoryOk s) : MemoryOk (singleAcq s) := by
  unfold singleAcq
  split
  · exact memoryOk_startRun h
  · split <;> exact h
  all_goals exact h

theorem memoryOk_acqChange {s : State} (h : MemoryOk s) : MemoryOk (acqChange s) := by
  unfold acqChange
  split
  · exact h
  · exact memoryOk_launch h
  all_goals exact memoryOk_launch (h.of_mem (by simp))

/-- R11: a change of the record. -/
theorem memoryOk_adopt {u : Setup} {s : State} (h : MemoryOk s) : MemoryOk (adopt u s) := by
  unfold adopt
  split
  · exact h
  · have hlane : MemoryOk (laneAfterChange s.setup u { s with setup := u, gen := s.gen + 1 }) := h.of_acq (by simp)
    have hacq : MemoryOk (tellAcq s.setup u (laneAfterChange s.setup u { s with setup := u, gen := s.gen + 1 })) := by
      unfold tellAcq
      split
      · exact memoryOk_acqChange hlane
      · exact hlane
    refine hacq.of_mem ?_
    rw [tellBlocks_acq]
    simp

/-! ## Power, keys and knobs -/

theorem memoryOk_requestOn {c : MoveCause} {s : State} (h : MemoryOk s) : MemoryOk (requestOn c s) := by
  unfold requestOn
  split
  · exact h
  · exact h.of_acq (by simp)
  · have hwake : ∀ (b : Bool) (u : State), MemoryOk u → MemoryOk (acqWake b u) := fun b u hu => by
      simp only [acqWake]
      split
      · refine (memoryOk_startRun (one := false) ?_).of_acq (enterNote_frame .acq _).2.2.1
        exact hu
      · exact hu
    refine (hwake s.power.runAtWake (setPower .on c { s with power := { s.power with runAtWake := false } })
      (h.of_acq (by simp))).of_acq ?_
    simp [wakeFromStandby]

theorem memoryOk_requestStandby {c : MoveCause} {s : State} (h : MemoryOk s) : MemoryOk (requestStandby c s) := by
  have hmove : MemoryOk (moveToStandby c s) := h.of_mem (by simp [moveToStandby])
  unfold requestStandby
  split
  · exact hmove
  · exact hmove
  · exact h

theorem memoryOk_requestWake {p : PowerState} {s : State} (h : MemoryOk s) : MemoryOk (requestWake p s) := by
  cases p with
  | standby => exact memoryOk_requestOn h
  | on | dark => exact memoryOk_requestStandby h

theorem memoryOk_runAction {a : KeyAction} {s : State} (h : MemoryOk s) : MemoryOk (runAction a s).1 := by
  cases a with
  | nothing | wake => exact h
  | chan n => exact memoryOk_adopt h
  | defaults => exact memoryOk_adopt h
  | single => exact memoryOk_singleAcq h
  | force => exact h.of_mem (by simp [runAction])
  | clear => exact h
  | runstop =>
    simp only [runAction]
    split
    · exact memoryOk_runAcq h
    · exact h.of_mem (by simp)
  | _ k => -- a save or a recall
    simp only [runAction, actJob]
    split
    · exact h.of_acq (by simp)
    · exact h

theorem memoryOk_pressKey {k : Nat} {s : State} (h : MemoryOk s) : MemoryOk (pressKey k s) := by
  have hon : ∀ u, MemoryOk u → MemoryOk (pressInOn k u) := fun u hu => by
    unfold pressInOn
    split
    next => exact hu.of_acq (by simp)
    next b _ =>
      split
      · exact memoryOk_requestWake (hu.of_acq (by simp))
      · split
        · exact hu.of_acq (by simp)
        · exact (memoryOk_runAction (a := b.action) hu).of_acq (by simp)
  have hstandby : ∀ u, MemoryOk u → MemoryOk (pressInStandby k u) := fun u hu => by
    unfold pressInStandby
    split
    · split
      · exact memoryOk_requestWake (hu.of_acq (by simp))
      · exact hu
    · exact hu
  have h1 : MemoryOk (activity (setKey k { keyAt s k with down := true, count := 0 } s)) := h.of_acq (by simp)
  simp only [pressKey]
  split
  · exact hon _ h1
  · exact h1.of_acq (by simp)
  · exact hstandby _ h1

theorem memoryOk_offerBatch {n : Nat} {b : KnobBinding} {s : State} (h : MemoryOk s) : MemoryOk (offerBatch n b s) := by
  simp only [offerBatch]
  split
  · exact h
  · exact memoryOk_adopt h

theorem memoryOk_takeDetent {n : Nat} {d : Dir} {s : State} (h : MemoryOk s) : MemoryOk (takeDetent n d s) := by
  have hcount : ∀ u, MemoryOk u → MemoryOk (countDetent n d u) := fun u hu => by
    simp only [countDetent]
    split
    · exact hu.of_acq (by simp)
    · exact memoryOk_offerBatch hu
  have h1 : MemoryOk (activity s) := h.of_acq (by simp)
  simp only [takeDetent]
  split
  · split
    · exact h1
    · exact hcount _ h1
  · exact h1.of_acq (by simp)
  · exact h1

theorem memoryOk_batchResult {n : Nat} {s : State} (h : MemoryOk s) : MemoryOk (batchResult n s) := by
  simp only [batchResult]
  split
  · exact memoryOk_offerBatch h
  · exact h

/-! ## The scans and the codes -/

theorem memoryOk_scanKey {k : Nat} {s : State} (h : MemoryOk s) : MemoryOk (scanKey s k) := by
  simp only [scanKey]
  split
  · split <;> exact h
  · split
    · exact h
    · split
      · exact memoryOk_pressKey h
      · exact h.of_acq (by simp)

theorem memoryOk_scanKnob {n : Nat} {s : State} (h : MemoryOk s) : MemoryOk (scanKnob s n) := by
  have h1 : ∀ x : Knob, MemoryOk (if x = knobAt s n then s else setKnob n x s) := fun x => by
    split <;> exact h
  simp only [scanKnob]
  split
  · exact memoryOk_takeDetent (h1 _)
  · exact h1 _

theorem memoryOk_scansAt {s : State} (h : MemoryOk s) : MemoryOk (scansAt s) := by
  have hknobs : MemoryOk (scanKnobs s) := foldl_keeps (P := MemoryOk) (fun _ _ => memoryOk_scanKnob) _ s h
  have hkeys : ∀ u, MemoryOk u → MemoryOk (scanKeys u) := fun u hu =>
    (foldl_keeps (P := MemoryOk) (f := scanKey) (fun _ _ => memoryOk_scanKey) (List.range 64) u hu).of_acq (by simp [scanKeys])
  have h1 : MemoryOk (if ticksSinceReset s % 15625 = 0 then scanKnobs s else s) := by
    split
    · exact hknobs
    · exact h
  simp only [scansAt]
  by_cases hk : ticksSinceReset s % 125000 = 0
  · rw [if_pos hk]
    exact hkeys _ h1
  · rw [if_neg hk]
    exact h1

/-- Whatever comes before the next code. -/
theorem memoryOk_settle {s : State} (h : MemoryOk s) : MemoryOk (settle s) := by
  have due : ∀ {d : State → Bool} {f : State → State} {u : State}, MemoryOk u → (MemoryOk u → MemoryOk (f u)) →
      MemoryOk (whenDue d f u) := fun hu hf => whenDue_keeps hu (hf hu)
  exact due (due (due (due (due (due h memoryOk_writeInterval) fun h => h.of_mem (by simp)) fun h => h.of_mem (by simp))
    fun h => h.of_mem (by simp)) fun h => h.of_mem (by simp)) memoryOk_armHeld

theorem memoryOk_passCodes {s : State} (xs : List Sample) (h : MemoryOk s) : MemoryOk (passCodes xs s) := by
  refine foldl_keeps (P := MemoryOk) (fun u x hu => ?_) xs s h
  have htaken : MemoryOk (takeCode u x) := (memoryOk_settle hu).of_mem (by simp [takeCode])
  simp only [passCode, scanAtTick]
  split
  · exact memoryOk_scansAt htaken
  · exact htaken

end Sys2Proof.Machine
end

section
/-! SUPPORT. Every row keeps the acquisition memory in its canonical form; the statement of it for a step (O54). -/

namespace Sys2Proof.Machine

/-! ## STORE and RESTART -/

/-- R169, R176: only a recall that adopts its image reaches ACQ. -/
theorem memoryOk_readDone {page : List Byte} {s : State} (h : MemoryOk s) : MemoryOk (readDone page s) := by
  have hclassified : ∀ j r why hd b, MemoryOk (classified j r why hd b s) := fun j r why hd b => by
    have h1 : MemoryOk (setDir j.slot (classifySlot j.slot hd b) s) := h.of_acq (by simp)
    have hend : ∀ res, MemoryOk (endJob res (setDir j.slot (classifySlot j.slot hd b) s)) := fun _ => h1.of_acq (by simp)
    have hab : MemoryOk (finishAbandoned r (setDir j.slot (classifySlot j.slot hd b) s)) := h1.of_acq (by simp)
    unfold classified
    cases why with
    | refresh res => exact hend res
    | startCheck =>
      simp only
      split
      · exact hab
      · exact h1.of_acq (by simp)
    | protectOff =>
      simp only
      split
      · exact hab
      · split
        · exact h1.of_acq (by simp)
        all_goals exact hend _
    | _ => -- a recall
      simp only
      split
      · exact hab
      · split
        · split
          next u c _ => exact (memoryOk_adopt (u := u) h1).of_acq (by simp)
          next => exact hend _
        all_goals exact hend _
  have hjob : ∀ j r, MemoryOk (jobRead j r page s) := fun j r => by
    unfold jobRead
    split
    · split
      · exact hclassified _ _ _ _ _
      · split <;> exact h.of_acq (by simp)
    · exact h
  unfold readDone
  split
  · exact hjob _ _
  · exact h.of_acq (by simp)
  · exact h

theorem foldl_autosaveActs_acq (b : Bool) (js : List StoreJob) (s : State) : (js.foldl (autosaveActs b) s).acq = s.acq := by
  induction js generalizing s with
  | nil => rfl
  | cons j js ih => simpa using ih (autosaveActs b s j)

/-- R167: the end of a step with an effect. -/
theorem memoryOk_endStep {f : State → State} {s : State} (h : MemoryOk s) (hf : ∀ u, MemoryOk u → MemoryOk (f u)) :
    MemoryOk (endStep f s) := by
  refine (hf { s with store := { s.store with step := none, autosaves := [] } } h).of_acq ?_
  rw [endStep, foldl_autosaveActs_acq]
  simp

theorem memoryOk_alteredThen {f : StoreJob → JobPhase → State → State} {s : State} (h : MemoryOk s)
    (hf : ∀ j p u, (f j p u).acq = u.acq) : MemoryOk (alteredThen f s) := by
  unfold alteredThen
  split
  · simp only
    split
    · exact h.of_acq (by simp)
    · exact h.of_acq (by simp [hf])
  · exact h

theorem memoryOk_restartPart {tag : Byte} {s : State} (h : MemoryOk s) : MemoryOk (restartPart tag s) := by
  refine h.of_mem ?_
  simp [restartPart, clearLink, restartBlocks, powerRestart, acqRestart]

theorem memoryOk_coldState (s : State) : MemoryOk (coldState s) := by
  rw [MemoryOk, coldState, (laneFollowAll_frame _).2.2.1]
  rfl

/-! ## Rows -/

theorem atHead_acq (f : Frame) (s : State) : (atHead f s).acq = s.acq := by
  unfold atHead
  split
  · rfl
  · simp

/-- R202: a property of ACQ that the order's block keeps is kept by the order. -/
theorem order_keeps_acq {P : State → Prop} (hP : ∀ u v : State, P u → v.acq = u.acq → P v) {kind tag : Byte}
    {lenOk : Nat → Bool} {body : List Byte} {act : State → State} {s : State} (h : P s) (hact : ∀ u, P u → P (act u)) :
    NextMeets P (order kind lenOk tag body act s) := by
  refine live_keeps h fun _ => ?_
  have hhead : P (atHead ⟨kind, tag, body⟩ s) := hP _ _ h (atHead_acq _ s)
  simp only [dispatchOrder]
  split
  · split
    · exact hact _ (hP _ _ hhead (by simp))
    · exact hP _ _ hhead (by simp)
  · exact hhead

section
variable {s : State}

theorem memoryOk_order {kind tag : Byte} {lenOk : Nat → Bool} {body : List Byte} {act : State → State} (h : MemoryOk s)
    (hact : ∀ u, MemoryOk u → MemoryOk (act u)) : NextMeets MemoryOk (order kind lenOk tag body act s) :=
  order_keeps_acq (fun _ _ => MemoryOk.of_acq) h hact

theorem memoryOk_answer {kind tag : Byte} {st : Status} {items : List Byte} (h : MemoryOk s) :
    MemoryOk (answer kind tag st items s) := h

/-- The codes of a row, then the write of the interval they complete. -/
theorem memoryOk_codesRow {codes : List Sample} {f : State → State} (h : MemoryOk s)
    (hf : ∀ u, MemoryOk u → MemoryOk (f u)) : NextMeets MemoryOk (codesRow (fun s => f (passCodes codes s)) s) :=
  codesRow_keeps h fun hs => hf _ (memoryOk_passCodes codes hs)

theorem selectPeriodStart_keeps_memory (h : MemoryOk s) : NextMeets MemoryOk (execSelectPeriodStart s) := by
  unfold execSelectPeriodStart
  (repeat' split) <;> exact nextMeets_next (h.of_acq (by simp))

theorem selectPeriodEnd_keeps_memory {bytes : List Byte} {stray : List Bool} (h : MemoryOk s) :
    NextMeets MemoryOk (execSelectPeriodEnd bytes stray s) := by
  unfold execSelectPeriodEnd
  split
  · exact nextMeets_next h
  · split
    · exact nextMeets_next (h.of_acq (by simp))
    · refine nextMeets_next (h.of_acq ?_)
      split <;> simp

theorem orderBadKind_keeps_memory {kind tag : Byte} {body : List Byte} (h : MemoryOk s) :
    NextMeets MemoryOk (execOrderBadKind kind tag body s) := by
  refine live_keeps h fun _ => ?_
  have hhead := h.of_acq (atHead_acq ⟨kind, tag, body⟩ s)
  simp only
  (repeat' split) <;> assumption

theorem drawColumn_keeps_memory (h : MemoryOk s) : NextMeets MemoryOk (execDrawColumn s) := by
  unfold execDrawColumn
  split
  · exact nextMeets_next h
  · split
    · exact nextMeets_next h
    · split
      · split
        · exact nextMeets_next (h.of_acq (by simp))
        · rintro u ⟨⟩
      · exact nextMeets_next h

theorem waveReadDone_keeps_memory (h : MemoryOk s) : NextMeets MemoryOk (execWaveReadDone s) := by
  unfold execWaveReadDone
  split
  · exact nextMeets_next h
  · split
    · exact nextMeets_next h
    · split
      · split
        · split
          · exact nextMeets_next h
          · rintro u ⟨⟩
        · exact nextMeets_next h
      · exact nextMeets_next h

theorem laneConditionChange_keeps_memory {n : Chan} {lock : Bool} (h : MemoryOk s) :
    NextMeets MemoryOk (execLaneConditionChange n lock s) := by
  simp only [execLaneConditionChange]
  split <;> exact nextMeets_next (h.of_acq (by simp))

theorem fieldSet_keeps_memory {tag : Byte} {body : List Byte} (h : MemoryOk s) :
    NextMeets MemoryOk (execFieldSet tag body s) := by
  refine memoryOk_order h fun u hu => ?_
  simp only
  split
  · exact hu
  · split
    · exact hu
    · split
      · exact hu
      · exact memoryOk_answer (memoryOk_adopt hu)

theorem setupWrite_keeps_memory {tag : Byte} {body : List Byte} (h : MemoryOk s) :
    NextMeets MemoryOk (execSetupWrite tag body s) := by
  refine memoryOk_order h fun u hu => ?_
  split
  · exact memoryOk_answer (memoryOk_adopt hu)
  · exact hu

theorem power_keeps_memory {tag : Byte} {body : List Byte} (h : MemoryOk s) : NextMeets MemoryOk (execPower tag body s) := by
  refine memoryOk_order h fun u hu => ?_
  have hdark : MemoryOk (requestDark .order u) := by
    unfold requestDark
    split <;> exact hu.of_acq (by simp)
  split
  · exact memoryOk_answer (memoryOk_requestOn hu)
  · split
    · exact hu
    · exact hdark
  · exact memoryOk_answer (memoryOk_requestStandby hu)
  · exact hu

theorem flashReadPageEnd_keeps_memory {page : Vector Byte 256} (h : MemoryOk s) :
    NextMeets MemoryOk (execFlashReadPageEnd page s) := by
  refine live_keeps h fun hs => ?_
  split
  · split
    · exact memoryOk_endStep hs fun _ => memoryOk_readDone
    · exact hs
  · exact hs

theorem flashProgramPageEnd_keeps_memory (h : MemoryOk s) : NextMeets MemoryOk (execFlashProgramPageEnd s) := by
  refine live_keeps h fun hs => ?_
  split
  · split
    · split
      · exact memoryOk_endStep hs fun _ hu => memoryOk_alteredThen hu (by simp)
      · exact hs
    · exact hs
  · exact hs

theorem flashEraseSectorEnd_keeps_memory (h : MemoryOk s) : NextMeets MemoryOk (execFlashEraseSectorEnd s) := by
  refine live_keeps h fun hs => ?_
  split
  · split
    · exact memoryOk_endStep hs fun _ hu => memoryOk_alteredThen hu (by simp)
    · exact hs
  · exact hs

theorem flashStepTimeout_keeps_memory (h : MemoryOk s) : NextMeets MemoryOk (execFlashStepTimeout s) := by
  refine live_keeps h fun hs => ?_
  split
  · exact memoryOk_endStep hs fun _ hu => hu.of_acq (by simp)
  · exact hs

theorem pointWritten_keeps_memory {codes : List Sample} (h : MemoryOk s) :
    NextMeets MemoryOk (execPointWritten codes s) := by
  refine memoryOk_codesRow (f := fun u => if intervalFull u ∧ u.acq.state ≠ .rolling then writePoint u else u) h fun u hu => ?_
  split
  · exact memoryOk_writePoint hu
  · exact hu

theorem rollColumn_keeps_memory {codes : List Sample} (h : MemoryOk s) : NextMeets MemoryOk (execRollColumn codes s) := by
  refine memoryOk_codesRow (f := fun u => if intervalFull u ∧ u.acq.state = .rolling then writeColumn u else u) h fun u hu => ?_
  split
  · exact memoryOk_writeColumn hu
  · exact hu

theorem keyPress_keeps_memory {key : Fin 64} (h : MemoryOk s) : NextMeets MemoryOk (execKeyPress key s) := by
  have hswitch : MemoryOk (setSwitch key.val true s) := h
  refine live_keeps hswitch fun hs => ?_
  split
  · exact hs
  · exact memoryOk_pressKey hs

theorem knobDetent_keeps_memory {knob : Fin 8} {dir : Dir} (h : MemoryOk s) :
    NextMeets MemoryOk (execKnobDetent knob dir s) := by
  have hlines : MemoryOk (setLinesHigh knob.val s) := h
  refine live_keeps hlines fun hs => ?_
  exact memoryOk_takeDetent (s := setKnob knob.val (knobAt _ knob.val).atRest (setLinesHigh knob.val s)) hs

theorem drawJobStart_keeps_memory (h : MemoryOk s) : NextMeets MemoryOk (execDrawJobStart s) := by
  refine live_keeps h fun hs => ?_
  have harmed : MemoryOk (whenDue releaseDue armHeld s) := whenDue_keeps hs (memoryOk_armHeld hs)
  exact harmed.of_acq (by simp)

theorem frameEvent_keeps_memory (h : MemoryOk s) : NextMeets MemoryOk (execFrameEvent s) := by
  refine live_keeps h fun hs => ?_
  split
  · split
    · exact hs.of_acq (by simp)
    · exact hs
  · exact hs

end

/-- R34: every row keeps the memory in its canonical form. -/
theorem exec_keeps_memory (i : Instr) {s : State} (h : MemoryOk s) : NextMeets MemoryOk (exec i s) := by
  cases i with
  | coldReset => exact nextMeets_next (memoryOk_coldState s)
  | resetNLow => exact nextMeets_next h
  | selectPeriodStart => exact selectPeriodStart_keeps_memory h
  | selectPeriodEnd bytes stray => exact selectPeriodEnd_keeps_memory (stray := stray) h
  | orderBadKind kind tag body => exact orderBadKind_keeps_memory h
  | drawColumn => exact drawColumn_keeps_memory h
  | waveReadDone => exact waveReadDone_keeps_memory h
  | laneConditionChange n lock => exact laneConditionChange_keeps_memory h
  | restart tag body => exact memoryOk_order h fun _ => memoryOk_restartPart
  | fieldSet tag body => exact fieldSet_keeps_memory h
  | setupWrite tag body => exact setupWrite_keeps_memory h
  | setupDefault tag body => exact memoryOk_order h fun _ hu => memoryOk_answer (memoryOk_adopt hu)
  | power tag body => exact power_keeps_memory h
  | run tag body =>
    refine memoryOk_order h fun u hu => ?_
    split
    · exact hu
    · exact memoryOk_answer (memoryOk_runAcq hu)
  | single tag body =>
    refine memoryOk_order h fun u hu => ?_
    split
    · exact hu
    · exact memoryOk_answer (memoryOk_singleAcq hu)
  | flashReadPageEnd page => exact flashReadPageEnd_keeps_memory h
  | flashProgramPageEnd => exact flashProgramPageEnd_keeps_memory h
  | flashEraseSectorEnd => exact flashEraseSectorEnd_keeps_memory h
  | flashStepTimeout => exact flashStepTimeout_keeps_memory h
  | keyPress key => exact keyPress_keeps_memory h
  | knobDetent knob dir => exact knobDetent_keeps_memory h
  | knobBatchResult knob =>
    refine live_keeps h fun hs => ?_
    split
    · exact memoryOk_batchResult hs
    · exact hs
  | edgeTrigger codes => exact memoryOk_codesRow (f := id) h fun _ => id
  | pointWritten codes => exact pointWritten_keeps_memory h
  | rollColumn codes => exact rollColumn_keeps_memory h
  | armAtRelease => exact live_keeps h fun hs => whenDue_keeps hs (memoryOk_armHeld hs)
  | drawJobStart => exact drawJobStart_keeps_memory h
  | frameEvent => exact frameEvent_keeps_memory h
  | segmentReady | autoTrigger | captureEnd | columnsLeftZero | storeJobStart =>
    exact live_keeps h fun hs => whenDue_keeps hs (hs.of_mem (by simp))
  | idleTimerExpiry =>
    refine live_keeps h fun hs => whenDue_keeps hs ?_
    unfold requestDark
    split <;> exact hs.of_acq (by simp)
  | frameComplete bytes | lenAbove1024 bytes => exact live_keeps h fun hs => hs.of_acq (by simp)
  | frameSent | keyRepeat key | keyRelease key =>
    refine live_keeps h fun hs => ?_
    (repeat' split) <;> exact hs.of_acq (by simp)
  | _ tag body =>
    refine memoryOk_order h fun u hu => ?_
    simp only [MemoryOk]
    (repeat' split) <;> simpa using hu

/-- Settles O54: every row keeps the memory canonical, and so does a tick that passes. -/
theorem everyStepKeepsTheMemoryCanonical : Obligations.EveryStepKeepsTheMemoryCanonical := by
  intro s t h ht
  have hstep : NextMeets MemoryOk (step s) := by
    unfold step
    split
    next i rest _ => exact exec_keeps_memory i h
    next =>
      split
      next i _ => exact exec_keeps_memory i h
      next => exact codesRow_keeps h (memoryOk_passCodes _)
  exact hstep t ht

end Sys2Proof.Machine
end

section
/-! SUPPORT. The answer to a WAVE.READ that is done (O33). -/

namespace Sys2Proof.Machine

/-- R32, R113: the codes of a record point are read from the position of its index. -/
theorem pointBytesAt_eq (s : State) (g : Geometry) (k j : Nat) (n : Chan) : pointBytesAt s g k j n =
    memLoad s.acq.memEpoch s.acq.mem (g.addr k (if g.roll then (g.origin + j) % g.len else
      if j < g.pre then (g.origin + j) % g.pre else j) n) (pointBytes g.mode) := rfl

theorem doneWith_iff (s : State) (k : Nat) (serial : Serial) :
    doneWith s k serial = true ↔ (segAt s k).state = .done ∧ (segAt s k).serial = serial := by
  simp [doneWith]

section
variable {w : WaveRead} {rest : List WaveRead} {s : State}

/-- R40, R67: the segment is no longer DONE with the serial that the WAVE.READ named. -/
theorem waveReadDone_stale (hreset : s.pins.resetLow = false) (hw : s.acq.waves = w :: rest)
    (hstale : doneWith s w.seg w.serial = false) :
    exec .waveReadDone s = .next (answer 0x15 w.tag .stale [] { s with acq := { s.acq with waves := rest } }) := by
  simp only [exec, execWaveReadDone, hreset, hw, hstale, Bool.false_eq_true, if_false]
  split <;> rfl

theorem waveReadDone_answers {i : SegInfo} (hreset : s.pins.resetLow = false) (hw : s.acq.waves = w :: rest)
    (hdone : doneWith s w.seg w.serial = true) (hi : (segAt s w.seg).info = some i)
    (hregion : (w.seg + 1) * i.geo.size ≤ memSize) : exec .waveReadDone s =
      .next (answer 0x15 w.tag w.status (waveItems s i.geo w) { s with acq := { s.acq with waves := rest } }) := by
  have hexists : regionExists (regionOf w.seg i.geo) = true := decide_eq_true hregion
  simp only [exec, execWaveReadDone, hreset, hw, hi, hdone, hexists, if_true, Bool.false_eq_true, if_false]

end

/-- Settles O33: STALE, or the points of the record in their order. -/
theorem waveReadAnswersItsPoints : Obligations.WaveReadAnswersItsPoints := by
  intro w rest s hreset hw
  refine ⟨fun hstale => ?_, fun i hstate hserial hi hregion => ?_⟩
  · have hnot : doneWith s w.seg w.serial = false := by
      rw [← Bool.not_eq_true, doneWith_iff, not_and_or]
      exact hstale
    exact waveReadDone_stale hreset hw hnot
  · rw [waveReadDone_answers hreset hw ((doneWith_iff _ _ _).mpr ⟨hstate, hserial⟩) hi hregion]
    have hstatus : w.status.code = if w.clamped then 0x01 else 0x00 := by
      unfold WaveRead.status
      split <;> rfl
    simp only [answer, pushAnswer, waveItems, pointBytesAt_eq, hstatus, List.append_assoc, List.singleton_append]
    rfl

end Sys2Proof.Machine
end

section
/-! SUPPORT. The clock as codes pass, the scans that fall as ticks begin, and the idle tick (O2). -/

namespace Sys2Proof.Machine

/-! ## The clock -/

/-- R42: the wraps of the time tag that a code counts. -/
theorem takeCode_wraps (s : State) (x : Sample) (h : s.acq.nsPhase < 8) : (takeCode s x).acq.wraps =
    if s.acq.nsPhase = 7 ∧ s.acq.timeTag = 0xFFFFFFFFFFFF#48 then s.acq.wraps + 1 else s.acq.wraps := by
  obtain ⟨-, htag, hticks⟩ := takeCode_clock s x h
  have hlt := s.acq.timeTag.isLt
  have hlt' := (takeCode s x).acq.timeTag.isLt
  have hmax : s.acq.timeTag = 0xFFFFFFFFFFFF#48 ↔ s.acq.timeTag.toNat = 2 ^ 48 - 1 := BitVec.toNat_inj.symm
  have hnat : (takeCode s x).acq.timeTag.toNat = (s.acq.timeTag.toNat + (s.acq.nsPhase + 1) / 8) % 2 ^ 48 := by
    rw [htag, BitVec.toNat_add, BitVec.toNat_ofNat, Nat.add_mod_mod]
  simp only [ticksSinceReset] at hticks
  simp only [hmax]
  split <;> omega

theorem passCode_clock (s : State) (x : Sample) (h : s.acq.nsPhase < 8) :
    (passCode s x).acq.nsPhase = (s.acq.nsPhase + 1) % 8 ∧
    (passCode s x).acq.timeTag = s.acq.timeTag + BitVec.ofNat 48 ((s.acq.nsPhase + 1) / 8) := by
  obtain ⟨hphase, htag, -⟩ := takeCode_clock s x h
  simp only [passCode, scanAtTick_frame]
  exact ⟨hphase, htag⟩

/-- R42: codes up to the end of a tick bring the next one. -/
theorem passCodes_to_tick (xs : List Sample) (s : State) (hne : xs ≠ []) (h : s.acq.nsPhase + xs.length = 8) :
    (passCodes xs s).acq.nsPhase = 0 ∧ (passCodes xs s).acq.timeTag = s.acq.timeTag + 1 := by
  induction xs generalizing s with
  | nil => exact absurd rfl hne
  | cons x xs ih =>
    rw [List.length_cons] at h
    obtain ⟨hphase, htag⟩ := passCode_clock s x (by omega)
    cases xs with
    | nil =>
      have h7 : s.acq.nsPhase = 7 := by simpa using h
      rw [h7] at hphase htag
      rw [passCodes, List.foldl_cons, List.foldl_nil]
      exact ⟨hphase, htag⟩
    | cons y ys =>
      have hsmall : s.acq.nsPhase + 1 < 8 := by rw [List.length_cons] at h; omega
      rw [Nat.mod_eq_of_lt hsmall] at hphase
      rw [Nat.div_eq_of_lt hsmall, BitVec.add_zero] at htag
      have hrest := ih (passCode s x) (List.cons_ne_nil y ys) (by omega)
      rw [htag, passCodes, ← List.foldl_cons] at hrest
      exact hrest

/-! ## The scans of a tick -/

section
variable {s t : State} {x : Sample} {ticks : Nat} (ht : t = takeCode s x) (hticks : ticks = ticksSinceReset t)
include ht hticks

theorem passCode_noScan (h : t.acq.nsPhase ≠ 0 ∨ ticks % 15625 ≠ 0) : passCode s x = t := by
  rw [passCode, ← ht]
  exact scanAtTick_none t (hticks ▸ h)

theorem passCode_knobScan (h0 : t.acq.nsPhase = 0) (hknobs : ticks % 15625 = 0) (hkeys : ticks % 125000 ≠ 0) :
    passCode s x = scanKnobs t := by
  rw [passCode, ← ht, scanAtTick, if_pos h0, scansAt, ← hticks, if_neg hkeys, if_pos hknobs]

theorem passCode_keyScan (h0 : t.acq.nsPhase = 0) (hkeys : ticks % 125000 = 0) :
    passCode s x = scanKeys (scanKnobs t) := by
  have hknobs : ticks % 15625 = 0 := by omega
  rw [passCode, ← ht, scanAtTick, if_pos h0, scansAt, ← hticks, if_pos hkeys, if_pos hknobs]

end

/-! ## Rows and the idle step -/

theorem codesRow_high {f : State → State} {s : State} (hreset : s.pins.resetLow = false) (hexists : captureExists s = true) :
    codesRow f s = .next (f s) := by
  rw [codesRow, if_neg (by simp [hreset]), if_pos hexists]

theorem exec_edgeTrigger {xs : List Sample} {s : State} (hreset : s.pins.resetLow = false)
    (hexists : captureExists s = true) : exec (.edgeTrigger xs) s = .next (xs.foldl passCode s) :=
  codesRow_high hreset hexists

theorem step_idle {s : State} (hqueue : s.pending = []) (hdue : nextDue s = none) (hreset : s.pins.resetLow = false)
    (hexists : captureExists s = true) : step s = .next (passTick s) := by
  rw [step, hqueue]
  simp only [hdue]
  exact codesRow_high hreset hexists

/-- Settles O2: the idle tick, the clock code by code, and the scans of the ticks that begin. -/
theorem idleStepAdvancesTimeTag : Obligations.IdleStepAdvancesTimeTag := by
  refine ⟨fun s hqueue hdue hreset hexists hphase => ?_, fun x s hphase => ?_, fun x s t ticks ht hticks => ?_,
    fun xs s => exec_edgeTrigger, fun s hqueue hdue hreset hexists => ?_⟩
  · obtain ⟨h0, htag⟩ := passCodes_to_tick (List.replicate (8 - s.acq.nsPhase) s.pins.lanes) s
      (by simp only [ne_eq, List.replicate_eq_nil_iff]; omega) (by rw [List.length_replicate]; omega)
    exact ⟨passTick s, step_idle hqueue hdue hreset hexists, htag, h0⟩
  · obtain ⟨hnext, htag, -⟩ := takeCode_clock s x hphase
    refine ⟨hnext, ?_, takeCode_wraps s x hphase⟩
    rw [htag]
    split
    next h7 => rw [h7]; rfl
    next h7 => rw [Nat.div_eq_of_lt (by omega), BitVec.add_zero]
  · exact ⟨passCode_noScan ht hticks, passCode_knobScan ht hticks, passCode_keyScan ht hticks⟩
  · rw [step_idle hqueue hdue hreset hexists, exec_edgeTrigger hreset hexists]
    rfl

end Sys2Proof.Machine
end

section
/-! SUPPORT. What follows from the record: the hardware range, the interval and the record length, the geometry that fits the memory,
the front-end lines (O21). -/

namespace Sys2Proof.Machine

/-! ## The 1-2-5 sequence -/

theorem seq125_pos (i : Nat) : 0 < seq125 i := by
  unfold seq125
  (repeat' split) <;> positivity

/-- The sequence goes on three places later with ten times the number. -/
theorem seq125_add (i k : Nat) : seq125 (i + 3 * k) = seq125 i * 10 ^ k := by
  have hdiv : (i + 3 * k) / 3 = i / 3 + k := by omega
  simp only [seq125, Nat.add_mul_mod_self_left, hdiv, pow_add, Nat.mul_assoc]

theorem seq125_le (i : Nat) : seq125 i ≤ 5 * 10 ^ (i / 3) := by
  unfold seq125
  refine Nat.mul_le_mul_right _ ?_
  (repeat' split) <;> omega

/-- R28: the hardware range of a request. -/
theorem rangeOf_spec {scale : Nat} (h : scale ≤ 10000000) :
    rangeOf scale ≤ 12 ∧ scale ≤ hwOf (rangeOf scale) ∧ ∀ r, r < rangeOf scale → hwOf r < scale := by
  have hlast : scale ≤ hwOf 12 := h
  unfold rangeOf
  cases hf : (List.range 13).find? (fun i => decide (scale ≤ hwOf i)) with
  | none =>
    have := List.find?_eq_none.mp hf 12 (by simp)
    simp [hlast] at this
  | some i =>
    obtain ⟨hi, hmem, hbefore⟩ := List.find?_range_eq_some.mp hf
    refine ⟨Nat.le_of_lt_succ (List.mem_range.mp hmem), of_decide_eq_true hi, fun r hr => ?_⟩
    simpa using hbefore r hr

/-! ## The interval and the record length -/

section
variable {tb d : Nat}

/-- R30: where the window has more nanoseconds than the depth has points, each interval takes a whole 1-2-5 number of them. -/
theorem window_eq_seq125 (h : depthPoints d < 10 * timePerDiv tb) :
    ∃ j, 10 * timePerDiv tb = depthPoints d * seq125 j := by
  have hle := seq125_le tb
  have hexp : d + 1 ≤ tb / 3 := by
    by_contra hlt
    have hpow : 10 ^ (tb / 3) ≤ 10 ^ d := Nat.pow_le_pow_right (by omega) (by omega)
    simp only [depthPoints, timePerDiv] at h
    omega
  refine ⟨tb - 3 * (d + 1), ?_⟩
  have hseq := seq125_add (tb - 3 * (d + 1)) (d + 1)
  rw [Nat.sub_add_cancel (by omega)] at hseq
  rw [timePerDiv, hseq, depthPoints, pow_succ]
  ring

theorem depthPoints_pos (d : Nat) : 0 < depthPoints d := by
  unfold depthPoints
  positivity

theorem sampleInterval_whole : sampleInterval tb d * recordLength tb d = 10 * timePerDiv tb ∧
    recordLength tb d ≤ depthPoints d ∧ (∃ j, sampleInterval tb d = seq125 j) ∧
    ∀ j, seq125 j < sampleInterval tb d → depthPoints d * seq125 j < 10 * timePerDiv tb := by
  unfold sampleInterval recordLength
  by_cases h : 10 * timePerDiv tb ≤ depthPoints d
  · rw [if_pos h, if_pos h]
    exact ⟨Nat.one_mul _, h, ⟨0, rfl⟩, fun j hj => absurd hj (Nat.not_lt.mpr (seq125_pos j))⟩
  · rw [if_neg h, if_neg h]
    obtain ⟨j, hj⟩ := window_eq_seq125 (Nat.lt_of_not_le h)
    rw [hj, Nat.mul_div_cancel_left _ (depthPoints_pos d)]
    exact ⟨Nat.mul_comm _ _, Nat.le_refl _, ⟨j, rfl⟩, fun k hk => (Nat.mul_lt_mul_left (depthPoints_pos d)).mpr hk⟩

theorem recordLength_bounds (hd : d ≤ 4) : 100 ≤ recordLength tb d ∧ recordLength tb d ≤ 10000000 := by
  have hle : recordLength tb d ≤ depthPoints d := sampleInterval_whole.2.1
  have hdepth : depthPoints d ≤ 10000000 := Nat.mul_le_mul_left 1000 (Nat.pow_le_pow_right (by omega) hd)
  refine ⟨?_, hle.trans hdepth⟩
  have hpow : 0 < 10 ^ d := by positivity
  have hseq := seq125_pos tb
  unfold recordLength depthPoints timePerDiv
  split <;> omega

end

/-! ## The geometry of an arm -/

/-- R34: the count of the enabled channels, by the record's channels. -/
theorem chanCount_enabled (u : Setup) :
    chanCount u.enabled = Nat.max 1 (Chan.all.filter (fun n => (u.ch.get n).on)).length := by
  simp only [chanCount, Setup.enabled, Chan.all, PerChan.get, ← List.countP_eq_length_filter, List.countP_cons,
    List.countP_nil, Bool.toNat, cond_eq_ite]
  congr 1
  omega

theorem chanCount_bounds (e : PerChan Bool) : 1 ≤ chanCount e ∧ chanCount e ≤ 4 := by
  have h1 := Bool.toNat_le e.c1
  have h2 := Bool.toNat_le e.c2
  have h3 := Bool.toNat_le e.c3
  have h4 := Bool.toNat_le e.c4
  exact ⟨Nat.le_max_left _ _, Nat.max_le.mpr ⟨by omega, by omega⟩⟩

theorem pointBytes_bounds (m : AcqMode) : 1 ≤ pointBytes m ∧ pointBytes m ≤ 2 := by cases m <;> decide

section
variable {u : Setup}

theorem segSize_pos {d : Nat} (hd : d ≤ 4) : 0 < u.segSize d :=
  Nat.mul_pos (Nat.mul_pos (Nat.lt_of_lt_of_le (by omega) (recordLength_bounds hd).1) (chanCount_bounds _).1)
    (pointBytes_bounds _).1

/-- R35: at the depth index 0 the floor count of segments fits the memory. -/
theorem floorCount_fits_depth0 : u.floorCount * u.segSize 0 ≤ memSize := by
  have hfloor : u.floorCount ≤ 2 := by unfold Setup.floorCount; split <;> omega
  have hsize : u.segSize 0 ≤ 1000 * 4 * 2 :=
    Nat.mul_le_mul (Nat.mul_le_mul sampleInterval_whole.2.1 (chanCount_bounds _).2) (pointBytes_bounds _).2
  exact (Nat.mul_le_mul hfloor hsize).trans (by decide)

theorem floorCount_fits : u.floorCount * u.geometry.size ≤ memSize := reduceDepth_fits u u.depth floorCount_fits_depth0

/-- R35: the effective number of segments, when the floor count fits and is not above the request. -/
theorem nEff_between (hsize : 0 < u.geometry.size) (hasked : u.floorCount ≤ u.requestedCount) :
    u.floorCount ≤ u.geometry.nEff ∧ u.geometry.nEff ≤ u.requestedCount :=
  ⟨Nat.le_min.mpr ⟨hasked, (Nat.le_div_iff_mul_le hsize).mpr floorCount_fits⟩, Nat.min_le_left _ _⟩

theorem nEff_fits : u.geometry.nEff * u.geometry.size ≤ memSize :=
  (Nat.mul_le_mul_right _ (Nat.min_le_right _ _)).trans (Nat.div_mul_le_self _ _)

theorem preTrigger_le {len p : Nat} (hp : p ≤ 100) : preTrigger len p ≤ len :=
  Nat.div_le_of_le_mul ((Nat.mul_le_mul_left len hp).trans_eq (Nat.mul_comm _ _))

theorem fits_numeric {lo hi v : Int} (h : fits (.numeric lo hi) v = true) : lo ≤ v ∧ v ≤ hi := by
  rwa [fits, Bool.and_eq_true, decide_eq_true_iff, decide_eq_true_iff] at h

/-- R8: the ranges of the fields that fix the geometry. -/
theorem geometryFields_inRange (h : SetupInRange u) : u.depth ≤ 4 ∧ u.pretrig ≤ 100 ∧ 1 ≤ u.segcount := by
  obtain ⟨-, hfits, -⟩ := h
  have hdepth : (0 : Int) ≤ u.depth ∧ (u.depth : Int) ≤ 4 := fits_numeric (hfits .depth)
  have hpre : (0 : Int) ≤ u.pretrig ∧ (u.pretrig : Int) ≤ 100 := fits_numeric (hfits .pretrig)
  have hcount : (1 : Int) ≤ u.segcount ∧ (u.segcount : Int) ≤ 256 := fits_numeric (hfits .segcount)
  omega

end

/-! ## The front end -/

theorem frontEnd_eq (u : Setup) (n : Chan) : frontEnd u n = (rangeOf (u.ch.get n).scale,
    (match (u.ch.get n).coupling with | .dc => 0 | .ac => 1 | .gnd => 2), (if (u.ch.get n).bwlimit then 1 else 0)) := by
  unfold frontEnd
  cases (u.ch.get n).coupling <;> cases (u.ch.get n).bwlimit <;> rfl

theorem frontEnd_reset (n : Chan) : frontEnd State.reset.setup n = (6, 0, 0) := by
  cases n <;> decide

/-- Settles O21: the range, the interval and the record length, the geometry, and the front-end lines. -/
theorem derivedValuesFollowTheRecord : Obligations.DerivedValuesFollowTheRecord := by
  refine ⟨fun scale _ h => rangeOf_spec h, fun tb d _ hd => ?_, fun u C b least asked hrange hC hb hleast hasked => ?_,
    frontEnd_eq, frontEnd_reset, fun u s n => ?_⟩
  · obtain ⟨hwhole, hdepth, hseq, hleast⟩ := sampleInterval_whole (tb := tb) (d := d)
    exact ⟨hwhole, hdepth, hseq, hleast, recordLength_bounds hd⟩
  · obtain ⟨hdepth, hpre, hcount⟩ := geometryFields_inRange hrange
    have hC : C = chanCount u.enabled := hC.trans (chanCount_enabled u).symm
    have hb : b = pointBytes u.acqmode := by rw [hb]; cases u.acqmode <;> rfl
    have hleast : least = u.floorCount := hleast
    have hasked : asked = u.requestedCount := hasked
    have hle : u.geometry.depthIdx ≤ u.depth := reduceDepth_le u u.depth
    have hsize : 0 < u.geometry.size := segSize_pos (hle.trans hdepth)
    have henough : u.floorCount ≤ u.requestedCount := by
      unfold Setup.floorCount Setup.requestedCount
      split <;> omega
    obtain ⟨hlow, hhigh⟩ := nEff_between hsize henough
    subst hC hb hleast hasked
    refine ⟨hle, rfl, rfl, rfl, hsize, floorCount_fits, fun d hd hd' => reduceDepth_largest u u.depth d hd hd', rfl, nEff_fits,
      fun hmode => ?_, fun hmode => ?_, rfl, preTrigger_le hpre, rfl, fun n => ?_⟩
    · simp only [Setup.floorCount, Setup.requestedCount, hmode] at hlow hhigh
      omega
    · simp only [Setup.floorCount, Setup.requestedCount, hmode] at hlow hhigh
      omega
    · cases n <;> exact ⟨rfl, rfl⟩
  · rw [(adopt_record u s).1]

end Sys2Proof.Machine
end

section
/-! SUPPORT. RUN and SINGLE: what they set, and the run they start from STOPPED (O24). -/

namespace Sys2Proof.Machine

/-! ## Dispatch -/

section
variable {tag : Byte} {s : State}

theorem exec_run (h : Ready 0x10 tag [] s) (hpower : s.power.state ≠ .standby) :
    exec (.run tag []) s = .next (answer 0x10 tag .ok [] (runAcq (popInbound s))) :=
  (order_ready h _ _ rfl).trans (congrArg _ (if_neg hpower))

theorem exec_run_standby (h : Ready 0x10 tag [] s) (hpower : s.power.state = .standby) :
    exec (.run tag []) s = .next (answered 0x10 tag .wrongState [] s) :=
  (order_ready h _ _ rfl).trans (congrArg _ ((if_pos hpower).trans (answer_popInbound _ _ _ _ _)))

theorem exec_single (h : Ready 0x12 tag [] s) (hpower : s.power.state ≠ .standby) :
    exec (.single tag []) s = .next (answer 0x12 tag .ok [] (singleAcq (popInbound s))) :=
  (order_ready h _ _ rfl).trans (congrArg _ (if_neg hpower))

theorem exec_single_standby (h : Ready 0x12 tag [] s) (hpower : s.power.state = .standby) :
    exec (.single tag []) s = .next (answered 0x12 tag .wrongState [] s) :=
  (order_ready h _ _ rfl).trans (congrArg _ ((if_pos hpower).trans (answer_popInbound _ _ _ _ _)))

end

theorem runAcq_running {s : State} (h : s.acq.state ≠ .stopped) :
    runAcq s = { s with acq := { s.acq with single := false } } := if_neg h

theorem singleAcq_inFlight {s : State} (h : s.acq.state ∈ [AcqState.arming, .waiting, .capturing, .held]) :
    singleAcq s = { s with acq := { s.acq with single := true } } := by
  unfold singleAcq
  cases hs : s.acq.state with
  | stopped | rolling => simp [hs] at h
  | arming | waiting | capturing | held => rfl

theorem singleAcq_rolling {s : State} (h : s.acq.state = .rolling) :
    singleAcq s = if s.acq.single then s else { s with acq := { s.acq with single := true, columnsLeft := 500 } } := by
  simp only [singleAcq, h]

/-! ## The start of a run -/

/-- R57, R59: the state whose launch is the start of a run by an order, once the order has left the queue. -/
def startPoint (one : Bool) (s : State) : State :=
  { popInbound s with acq := { s.acq with lastTrig := none, countDone := 0, lastDone := none, single := one } }

theorem exec_start {c : Instr} {kind tag : Byte} {one : Bool} {s : State}
    (hc : c = .run tag [] ∧ kind = 0x10 ∧ one = false ∨ c = .single tag [] ∧ kind = 0x12 ∧ one = true)
    (h : Ready kind tag [] s) (hpower : s.power.state ≠ .standby) (hstopped : s.acq.state = .stopped) :
    exec c s = .next (answer kind tag .ok [] (launch (startPoint one s))) := by
  rcases hc with ⟨rfl, rfl, rfl⟩ | ⟨rfl, rfl, rfl⟩
  · rw [exec_run h hpower, runAcq, if_pos (show (popInbound s).acq.state = .stopped from hstopped)]
    rfl
  · rw [exec_single h hpower]
    simp only [singleAcq, show (popInbound s).acq.state = .stopped from hstopped]
    rfl

theorem launch_counts {s : State} (hcount : s.acq.countDone = 0) (hlast : s.acq.lastDone = none) :
    (launch s).acq.countDone = 0 ∧ (launch s).acq.lastDone = none := by
  unfold launch
  split
  · simp [hcount, hlast]
  · simp [startSegmented]

/-- R64, R68: an arm that does not wait enters no note. -/
theorem arm_link_of_ne_held {k : Nat} {s : State} (h : (arm k s).acq.state ≠ .held) : (arm k s).link = s.link := by
  simp only [arm] at h ⊢
  split at h
  next hwaits => exact absurd rfl h
  next hwaits =>
    rw [if_neg hwaits]
    simp

theorem enterRoll_state (s : State) : (enterRoll s).acq.state = .held ∨ (enterRoll s).acq.state = .rolling := by
  simp only [enterRoll]
  split
  · exact .inl rfl
  · exact .inr rfl

theorem launch_notes_of_armed {s : State} (hheld : (launch s).acq.state ≠ .held) (hroll : (launch s).acq.state ≠ .rolling) :
    (launch s).link.notes = s.link.notes := by
  cases hmode : s.setup.runmode with
  | repeats =>
    simp only [launch, hmode, armRepeatOrRoll] at hheld hroll ⊢
    split
    next hcond =>
      rw [if_pos hcond] at hheld hroll
      exact ((enterRoll_state _).elim hheld hroll).elim
    next hcond =>
      rw [if_neg hcond] at hheld
      exact congrArg Link.notes (arm_link_of_ne_held hheld)
  | segmented =>
    simp only [launch, hmode] at hheld ⊢
    exact (congrArg Link.notes (arm_link_of_ne_held hheld)).trans (by simp)

/-- R38: whether an arm waits, by the pin. -/
theorem armWaits_iff {k : Nat} {g : Geometry} {s : State} (hs : SegTableOk s) :
    armWaits k g s = true ↔ MeetsPin k g.size s := by
  rw [← armWaits_freeDone (fun _ _ => false) k g s hs]
  have hpin : pinnedSeg (freeDone (fun _ _ => false) s) k = pinnedSeg s k :=
    Bool.eq_iff_iff.mpr (by rw [pinnedSeg_iff, pinnedSeg_iff, pinnedRecord_freeDone _ s k hs])
  rw [armWaits, armWaits, hpin]
  rfl

theorem not_meetsPin_of_no_job {k n : Nat} {s : State} (h : s.raster.job = none) : ¬ MeetsPin k n s := by
  simp [MeetsPin, PinnedRecord, h]

/-- R47, R48: the fields an arm with no force pending sets. -/
theorem Armed.of_not_forced {freed : Nat → Prop} {k : Nat} {g : Geometry} {s t : State} (h : Armed freed k g s t)
    (hforce : s.acq.forcePending = false) :
    t.acq.state = (if g.pre = 0 then .waiting else .arming) ∧
    segAt t k = ⟨if g.pre = 0 then .ready else .prefill, 0, some (freshInfo g s)⟩ ∧ t.acq.lastTrig = s.acq.lastTrig := by
  obtain ⟨forced, hiff, hstate, -, hseg, -, -, -, -, -, -, -, htrig, -⟩ := h
  obtain rfl : forced = false := by
    cases forced with
    | false => rfl
    | true => exact absurd ((hiff.mp rfl).2.symm.trans hforce) (by simp)
  exact ⟨hstate, hseg, htrig⟩

theorem Armed.not_held {freed : Nat → Prop} {k : Nat} {g : Geometry} {s t : State} (h : Armed freed k g s t) :
    t.acq.state ≠ .held := by
  obtain ⟨forced, -, hstate, -⟩ := h
  rw [hstate]
  cases forced
  · simp only [Bool.false_eq_true, if_false]
    split <;> simp
  · simp

/-- What no start of a run by an order changes, and its answer. -/
theorem start_frame (kind tag : Byte) (one : Bool) (s : State) : ∀ t, t = answer kind tag .ok [] (launch (startPoint one s)) →
    t.acq.single = one ∧ t.acq.serialCounter = s.acq.serialCounter ∧ t.acq.timeTag = s.acq.timeTag ∧
    t.acq.memEpoch = s.acq.memEpoch ∧ t.setup = s.setup ∧ t.gen = s.gen ∧ t.mon = s.mon ∧ t.panel = s.panel ∧
    t.store = s.store ∧ t.power = s.power ∧ t.link.inbound = s.link.inbound.drop 1 ∧
    t.link.answers = s.link.answers ++ [⟨kind + 0x80, tag, [0]⟩] := by
  rintro t rfl
  simp [startPoint, popInbound, answer, pushAnswer, Status.code]

/-- Settles O24: RUN and SINGLE by the state of ACQ, and the run that each starts from STOPPED. -/
theorem runAndSingleStartOrSet : Obligations.RunAndSingleStartOrSet := by
  refine ⟨fun tag s h => ⟨exec_run_standby h, fun hpower hrunning => ?_,
    fun k hpower hstopped hmode hsegs hcond hforce hk hwaits => ?_⟩, fun tag s h => ⟨exec_single_standby h,
    fun hpower hstate => ?_, fun hpower hstate => ?_, fun hpower hstopped => ?_⟩,
    fun c kind tag one s hc h hpower hstopped hmode hsegs hjob hforce => ?_,
    fun c kind tag one s hc h hpower hstopped hmode hroll htbase hsegs hjob => ?_⟩
  · rw [exec_run h hpower, runAcq_running (s := popInbound s) hrunning]
    exact congrArg _ (answer_popInbound 0x10 tag .ok [] { s with acq := { s.acq with single := false } })
  · obtain ⟨hsingle, hserial, htag, -, hsetup, hgen, hmon, hpanel, hstore, hpow, hinbound, hanswers⟩ :=
      start_frame 0x10 tag false s _ rfl
    obtain ⟨hcount, hlast, -, -, harm⟩ := (launch_spec (startPoint false s) hsegs).1 hmode
    have hnoRoll : ¬ (s.setup.roll = true ∧ s.setup.runmode = .repeats ∧ 21 ≤ s.setup.tbase) := by
      simpa [Setup.rollConditions, and_assoc] using hcond
    obtain ⟨hkind, hfree, -⟩ := harm hnoRoll
    have hchoice : bufferChoice (startPoint false s) = k := hk.symm
    rw [hchoice] at hfree
    have harmed := hfree fun hmeets => by
      rw [(armWaits_iff (g := s.setup.geometry) (s := s) hsegs).mpr hmeets] at hwaits
      cases hwaits
    obtain ⟨hstate, hseg, htrig⟩ := harmed.of_not_forced hforce
    have hraster := launch_raster _ harmed.not_rolling
    have hnotes := launch_notes_of_armed harmed.not_held harmed.not_rolling
    obtain ⟨-, -, -, hcur, -, -, hrise, hfall, hpoints, -, -, -, -, -, -, -, hmem, -⟩ := harmed
    exact ⟨_, exec_start (.inl ⟨rfl, rfl, rfl⟩) h hpower hstopped, hstate, hcur, hseg, hkind, hsingle, htrig, hcount, hlast,
      hrise, hfall, hpoints, hmem, hserial, htag, hsetup, hgen, hmon, hraster, hpanel, hstore, hpow, hnotes, hinbound,
      hanswers⟩
  · rw [exec_single h hpower, singleAcq_inFlight (s := popInbound s) hstate]
    exact congrArg _ (answer_popInbound 0x12 tag .ok [] { s with acq := { s.acq with single := true } })
  · rw [exec_single h hpower, singleAcq_rolling (s := popInbound s) hstate]
    by_cases hsingle : s.acq.single = true
    · rw [if_pos hsingle, if_pos (show (popInbound s).acq.single = true from hsingle), answer_popInbound]
    · rw [if_neg hsingle, if_neg (show ¬ (popInbound s).acq.single = true from hsingle), ← answer_popInbound]
      rfl
  · obtain ⟨hsingle, -, -, -, hsetup, hgen, hmon, hpanel, hstore, hpow, hinbound, hanswers⟩ :=
      start_frame 0x12 tag true s _ rfl
    obtain ⟨hcount, hlast⟩ := launch_counts (s := startPoint true s) rfl rfl
    exact ⟨_, exec_start (.inr ⟨rfl, rfl, rfl⟩) h hpower hstopped, hsingle, (launch_restarted _).1, hcount, hlast, hsetup,
      hgen, hmon, hpanel, hstore, hpow, hinbound, hanswers⟩
  · obtain ⟨hsingle, hserial, -, -, hsetup, hgen, hmon, hpanel, hstore, hpow, hinbound, hanswers⟩ :=
      start_frame kind tag one s _ rfl
    obtain ⟨hkind, hindex, hcount, hlast, hfree, -⟩ := (launch_spec (startPoint one s) hsegs).2 hmode
    have harmed := hfree (not_meetsPin_of_no_job (s := startPoint one s) hjob)
    obtain ⟨hstate, hseg, htrig⟩ := harmed.of_not_forced hforce
    have hraster := launch_raster _ harmed.not_rolling
    have hnotes := launch_notes_of_armed harmed.not_held harmed.not_rolling
    obtain ⟨-, -, -, hcur, -, hothers, -, -, hpoints, -, -, -, -, -, -, -, hmem, -⟩ := harmed
    have hother : ∀ k, k ≠ 0 → segAt (launch (startPoint one s)) k =
        if (segAt s k).state = .done then ⟨.free, (segAt s k).serial, none⟩ else segAt s k := fun k hk => by
      have hno : ¬ PinnedRecord k (startPoint one s) := by simp [PinnedRecord, startPoint, hjob]
      split
      next hdone => exact (hothers k hk).1 ⟨hdone, hno⟩
      next hdone => exact (hothers k hk).2 fun hfreed => hdone hfreed.1
    exact ⟨_, exec_start hc h hpower hstopped, hstate, hcur, hseg, hother, hkind, hindex, hsingle, htrig, hcount, hlast,
      hpoints, hmem, hserial, hsetup, hgen, hmon, hraster, hpanel, hstore, hpow, hnotes, hinbound, hanswers⟩
  · obtain ⟨hsingle, -, -, -, hsetup, hgen, hmon, hpanel, hstore, hpow, hinbound, hanswers⟩ :=
      start_frame kind tag one s _ rfl
    obtain ⟨hcount, hlast, -, hrolls, -⟩ := (launch_spec (startPoint one s) hsegs).1 hmode
    obtain ⟨g, ⟨hinterval, hlen, hpre, hgmode, hsize, henabled, hrange, horigin⟩, hfree, -⟩ := hrolls ⟨hroll, hmode, htbase⟩
    obtain ⟨hstate, hcur, hseg, hothers, hmem, hkind, hleft, hforce, -, -, hrolled, htrig, -, -, -, hraster, hnote⟩ :=
      hfree (not_meetsPin_of_no_job (s := startPoint one s) hjob)
    have hother : ∀ k, k ≠ 0 → segAt (launch (startPoint one s)) k = segAt s k ∨
        (segAt s k).state = .done ∧ segAt (launch (startPoint one s)) k = ⟨.free, (segAt s k).serial, none⟩ := fun k hk => by
      by_cases hfreed : FreedByArm 0 g (startPoint one s) k
      · exact .inr ⟨hfreed.1, (hothers k hk).1 hfreed⟩
      · exact .inl ((hothers k hk).2 hfreed)
    exact ⟨_, g, exec_start hc h hpower hstopped, hinterval, hlen, hpre, hgmode, hsize, henabled, hrange, horigin, hstate, hcur,
      hseg, hother, hmem, hkind, hsingle, fun hone => hleft.trans (if_pos hone), hforce, hrolled, htrig, hcount, hlast,
      hraster, hnote, hsetup, hgen, hmon, hpanel, hstore, hpow, hinbound, hanswers⟩

end Sys2Proof.Machine
end

section
/-! SUPPORT. What an exit from ROLLING leaves, STOP and FORCE by the state of ACQ (O25). -/

namespace Sys2Proof.Machine

/-! ## The end of a roll -/

/-- R50: the next serial skips 0. -/
theorem nextSerial_eq (c : Serial) : nextSerial c = if c = 0xFFFFFFFF#32 then 1 else c + 1 := by
  unfold nextSerial
  refine ite_congr (propext ?_) (fun _ => rfl) (fun _ => rfl)
  bv_omega

/-- R39, R61: the record fields of segment 0 once its roll has ended. -/
def rolledInfo (s : State) (i : SegInfo) : SegInfo :=
  { i with
    geo := { i.geo with origin := if 500 ≤ s.acq.rollCount then s.acq.rollCount % 500 else 0 }
    trigKind := some .auto, outcome := some .pass }

/-- R61: RASTER leaves ROLLING over the record that has become DONE, and ACQ stops. -/
theorem endRoll_eq {s : State} {i : SegInfo} (hi : (curSeg s).info = some i) : endRoll s =
    enterStopped (rasterLeaveRoll (some (0, nextSerial s.acq.serialCounter))
      (discardPoints (monEnd (flagBit flagSegReject) (makeDone 0 (rolledInfo s i) s)))) := by
  have hser : (segAt (segRejectFollow .pass (makeDone 0 (rolledInfo s i) s)) 0).serial = nextSerial s.acq.serialCounter := by
    change (segAt (makeDone 0 (rolledInfo s i) s) 0).serial = _
    rw [makeDone, segAt_setSeg_same]
  rw [← hser]
  simp only [endRoll, hi]
  rfl

section
variable {s t : State} {i : SegInfo} {ser : Serial} (hcur : s.acq.cur = 0) (hi : (segAt s 0).info = some i)
  (ht : t = endRoll s) (hser : ser = nextSerial s.acq.serialCounter)
include hcur hi ht hser

/-- R61: the records and the run record after the end of a roll. -/
theorem endRoll_acq : segAt t 0 = ⟨.done, ser, some (rolledInfo s i)⟩ ∧ (∀ k, k ≠ 0 → segAt t k = segAt s k) ∧
    t.acq.state = .stopped ∧ t.acq.runKind = .idle ∧ t.acq.single = false ∧ t.acq.forcePending = s.acq.forcePending ∧
    t.acq.serialCounter = ser ∧ t.acq.countDone = s.acq.countDone + 1 ∧ t.acq.lastDone = some (0, ser) ∧
    t.acq.mem = s.acq.mem := by
  have hinfo : (curSeg s).info = some i := by rwa [curSeg, hcur]
  have hsegs : t.acq.segs = (makeDone 0 (rolledInfo s i) s).acq.segs := by
    rw [ht, endRoll_eq hinfo]
    simp
  subst hser
  refine ⟨?_, fun k hk => ?_, ?_⟩
  · rw [segAt_of_segs hsegs, makeDone, segAt_setSeg_same]
  · rw [segAt_of_segs hsegs, makeDone, segAt_setSeg_other _ _ _ _ hk]
    rfl
  · rw [ht, endRoll_eq hinfo]
    exact ⟨rfl, rfl, rfl, rfl, rfl, rfl, rfl, rfl⟩

/-- R61, R81, R113: RASTER, MON and the notes after the end of a roll, and what it leaves unchanged. -/
theorem endRoll_others : t.raster = (rasterLeaveRoll (some (0, ser)) s).raster ∧ t.compose.startCol = 0 ∧
    t.mon = { s.mon with current := s.mon.current &&& ~~~(flagBit 75) } ∧ (∃ e ∈ t.link.notes, e.src = .acq) ∧
    t.setup = s.setup ∧ t.gen = s.gen ∧ t.panel = s.panel ∧ t.store = s.store ∧ t.power = s.power ∧
    t.link.inbound = s.link.inbound ∧ t.link.answers = s.link.answers := by
  have hinfo : (curSeg s).info = some i := by rwa [curSeg, hcur]
  subst hser
  rw [ht, endRoll_eq hinfo]
  exact ⟨rfl, rfl, rfl, mem_enterNote _ _, rfl, rfl, rfl, rfl, rfl, rfl, rfl⟩

end

/-! ## STOP -/

/-- R62: no force is pending any more. -/
def dropForce (s : State) : State := { s with acq := { s.acq with forcePending := false } }

section
variable {tag : Byte} {s : State}

theorem exec_stop (h : Ready 0x11 tag [] s) (hpower : s.power.state ≠ .standby) :
    exec (.stop tag []) s = .next (answer 0x11 tag .ok [] (stopAcq (popInbound s))) :=
  (order_ready h _ _ rfl).trans (congrArg _ (if_neg hpower))

theorem exec_stop_standby (h : Ready 0x11 tag [] s) (hpower : s.power.state = .standby) :
    exec (.stop tag []) s = .next (answered 0x11 tag .wrongState [] s) :=
  (order_ready h _ _ rfl).trans (congrArg _ ((if_pos hpower).trans (answer_popInbound _ _ _ _ _)))

theorem segAt_enterStopped (s : State) (k : Nat) : segAt (enterStopped s) k = segAt s k := rfl

theorem stopAcq_stopped (h : s.acq.state = .stopped) : stopAcq s = s := by simp only [stopAcq, h]

theorem stopAcq_rolling (h : s.acq.state = .rolling) : stopAcq s = endRoll (dropForce s) := by simp only [stopAcq, h, dropForce]

theorem stopAcq_held (h : s.acq.state = .held) :
    stopAcq s = enterStopped (dropForce s) := by simp only [stopAcq, h, dropForce]

theorem stopAcq_capture (h : s.acq.state ∈ [AcqState.arming, .waiting, .capturing]) : stopAcq s =
    enterStopped (setSeg s.acq.cur (.free 0) (discardPoints (dropForce s))) := by
  have hroll : s.acq.state ≠ .rolling := by
    intro hr
    simp [hr] at h
  unfold stopAcq
  cases hs : s.acq.state with
  | stopped | held | rolling => simp [hs] at h
  | arming | waiting | capturing => simp only [abandon, if_neg hroll, dropForce]

/-- R62: what STOP does to a capture, or to an arm that waits in HELD. -/
theorem stopAcq_spec (h : s.acq.state ∈ [AcqState.arming, .waiting, .capturing, .held]) : ∀ t, t = stopAcq s →
    t.acq.state = .stopped ∧ t.acq.runKind = .idle ∧ t.acq.single = false ∧ t.acq.forcePending = false ∧
    (∃ e ∈ t.link.notes, e.src = .acq) ∧ (s.acq.state ≠ .held → segAt t s.acq.cur = ⟨.free, 0, none⟩ ∧ t.acq.points = []) ∧
    (∀ k, k ≠ s.acq.cur ∨ s.acq.state = .held → segAt t k = segAt s k) ∧ t.acq.mem = s.acq.mem ∧
    t.acq.countDone = s.acq.countDone ∧ t.acq.lastDone = s.acq.lastDone ∧ t.acq.serialCounter = s.acq.serialCounter ∧
    t.mon = s.mon ∧ t.raster = s.raster := by
  rintro t rfl
  by_cases hheld : s.acq.state = .held
  · rw [stopAcq_held hheld]
    exact ⟨rfl, rfl, rfl, rfl, mem_enterNote _ _, fun hne => absurd hheld hne, fun k _ => rfl, rfl, rfl, rfl, rfl, rfl, rfl⟩
  · rw [stopAcq_capture (by simpa [hheld] using h)]
    refine ⟨rfl, rfl, rfl, rfl, mem_enterNote _ _, fun _ => ⟨?_, rfl⟩, fun k hk => ?_, rfl, rfl, rfl, rfl, rfl, rfl⟩
    · rw [segAt_enterStopped, segAt_setSeg_same]
      rfl
    · rw [segAt_enterStopped, segAt_setSeg_other _ _ _ _ (hk.resolve_right hheld)]
      rfl

end

/-! ## FORCE -/

section
variable {tag : Byte} {s : State}

theorem exec_force (h : Ready 0x13 tag [] s) (hpower : s.power.state ≠ .standby) (htaken : forceTaken s = true) :
    exec (.force tag []) s = .next (answer 0x13 tag .ok [] (forceAcq (popInbound s))) :=
  (order_ready h _ _ rfl).trans (congrArg _ (if_neg (not_or.mpr ⟨hpower, ne_false_of_eq_true htaken⟩)))

theorem exec_force_refused (h : Ready 0x13 tag [] s) (hrefused : s.power.state = .standby ∨ forceTaken s = false) :
    exec (.force tag []) s = .next (answered 0x13 tag .wrongState [] s) :=
  (order_ready h _ _ rfl).trans (congrArg _ ((if_pos hrefused).trans (answer_popInbound _ _ _ _ _)))

end

theorem forceAcq_waiting {s : State} (h : s.acq.state = .waiting) :
    forceAcq s = acceptTrigger .forced s.acq.timeTag s := by simp only [forceAcq, h]

theorem forceAcq_pending {s : State} (h : s.acq.state = .held ∨ s.acq.state = .arming) :
    forceAcq s = { s with acq := { s.acq with forcePending := true } } := by
  rcases h with h | h <;> simp only [forceAcq, h]

theorem forceAcq_capturing {s : State} (h : s.acq.state = .capturing) : forceAcq s = s := by simp only [forceAcq, h]

/-- R49: an accepted trigger with points still to come leaves no more than a marked record in CAPTURING. -/
theorem acceptTrigger_filling_others {kind : TrigKind} {tag : Tick} {i : SegInfo} {s : State}
    (hi : (curSeg s).info = some i) (h : i.geo.pre < i.geo.len) : ∀ t, t = acceptTrigger kind tag s →
    t.acq.forcePending = false ∧ t.mon = s.mon ∧ t.raster = s.raster ∧ t.link = s.link := by
  rintro t rfl
  have hmark : curSeg (markTrigger kind tag s) = { curSeg s with info := some { i with
      trigTag := some tag, trigKind := some kind, geo := { i.geo with origin := originFor s.acq.preCount i.geo.pre } } } := by
    simp only [markTrigger, hi]
    simp [curSeg, setSeg, segAt]
  have haccept : acceptTrigger kind tag s = enterCapturing (markTrigger kind tag s) := by
    simp only [acceptTrigger, hmark, if_pos h]
  have hforce : (markTrigger kind tag s).acq.forcePending = false := by
    simp only [markTrigger, hi]
    rfl
  rw [haccept]
  exact ⟨hforce, by simp⟩

/-- What no STOP or FORCE changes, and the answer. -/
theorem answered_frame (kind tag : Byte) {s u : State} (hlink : u.link.inbound = (popInbound s).link.inbound ∧
    u.link.answers = (popInbound s).link.answers) : ∀ t, t = answer kind tag .ok [] u →
    t.link.inbound = s.link.inbound.drop 1 ∧ t.link.answers = s.link.answers ++ [⟨kind + 0x80, tag, [0]⟩] := by
  rintro t rfl
  obtain ⟨hinbound, hanswers⟩ := hlink
  simp only [answer, pushAnswer, hinbound, hanswers]
  exact ⟨rfl, rfl⟩

/-- Settles O25: STOP and FORCE by the state of ACQ. -/
theorem stopAndForceActByState : Obligations.StopAndForceActByState := by
  refine ⟨fun tag s h => ⟨exec_stop_standby h, fun hpower hstopped => ?_, fun hpower hstate => ?_⟩,
    fun tag s h => ⟨fun hrefused => exec_force_refused h ?_, fun hpower hstate => ?_, fun hpower hstate => ?_,
      fun r i hpower hstate hr hi hlen => ?_⟩,
    fun tag s i h hpower hstate hi hlen => ?_, fun tag s i h hpower hstate hcur hi => ?_⟩
  · rw [exec_stop h hpower, stopAcq_stopped (s := popInbound s) hstopped, answer_popInbound]
  · obtain ⟨hstopped, hkind, hsingle, hforce, hnote, hfree, hothers, hmem, hcount, hlast, hserial, hmon, hraster⟩ :=
      stopAcq_spec (s := popInbound s) hstate _ rfl
    obtain ⟨hinbound, hanswers⟩ := answered_frame 0x11 tag (s := s) (u := stopAcq (popInbound s)) (by simp) _ rfl
    exact ⟨_, exec_stop h hpower, hstopped, hkind, hsingle, hforce, hnote, hfree, hothers, hmem, hcount, hlast, hserial,
      by simp, by simp, hmon, hraster, by simp, by simp, by simp, hinbound, hanswers⟩
  · refine hrefused.imp_right fun hstate => ?_
    rcases hstate with hstate | hstate <;> simp only [forceTaken, hstate]
  · have htaken : forceTaken s = true := by rcases hstate with hstate | hstate <;> simp only [forceTaken, hstate]
    rw [exec_force h hpower htaken, forceAcq_pending (s := popInbound s) hstate]
    exact congrArg _ (answer_popInbound 0x13 tag .ok [] { s with acq := { s.acq with forcePending := true } })
  · have htaken : forceTaken s = true := by simp only [forceTaken, hstate]
    rw [exec_force h hpower htaken, forceAcq_capturing (s := popInbound s) hstate, answer_popInbound]
  · have htaken : forceTaken s = true := by simp only [forceTaken, hstate]
    have hr : curSeg (popInbound s) = r := hr
    have hinfo : (curSeg (popInbound s)).info = some i := hr ▸ hi
    rw [exec_force h hpower htaken, forceAcq_waiting (s := popInbound s) hstate]
    obtain ⟨hcapturing, hseg, hothers, htrig, hmem⟩ :=
      acceptTrigger_filling (kind := .forced) (tag := s.acq.timeTag) hinfo hlen
    obtain ⟨hforce, hmon, hraster, hlink⟩ :=
      acceptTrigger_filling_others (kind := .forced) (tag := s.acq.timeTag) hinfo hlen _ rfl
    obtain ⟨hinbound, hanswers⟩ := answered_frame 0x13 tag (s := s)
      (u := acceptTrigger .forced s.acq.timeTag (popInbound s)) (by simp [hlink]) _ rfl
    have hnotes : (acceptTrigger .forced s.acq.timeTag (popInbound s)).link.notes = s.link.notes := by rw [hlink]; rfl
    rw [hr] at hseg
    exact ⟨_, rfl, hcapturing, hseg, htrig, hforce, hmem, hothers, by simp, by simp, hmon, hraster, by simp, by simp, by simp,
      hnotes, hinbound, hanswers⟩
  · have htaken : forceTaken s = true := by simp only [forceTaken, hstate]
    refine ⟨_, exec_captureEnd_triggered (s := popInbound s) h.1 hlen, ?_⟩
    rw [exec_force h hpower htaken, forceAcq_waiting (s := popInbound s) hstate,
      acceptTrigger_whole .forced _ i (popInbound s) hi hlen]
    rfl
  · obtain ⟨hseg, hothers, hstopped, hkind, hsingle, hforce, hserial, hcount, hlast, hmem⟩ :=
      endRoll_acq (s := dropForce (popInbound s)) hcur hi rfl rfl
    obtain ⟨hraster, hstart, hmon, hnote, hsetup, hgen, hpanel, hstore, hpow, hlink⟩ :=
      endRoll_others (s := dropForce (popInbound s)) hcur hi rfl rfl
    obtain ⟨hinbound, hanswers⟩ := answered_frame 0x11 tag (s := s) hlink _ rfl
    have hpicture : ∀ (n : Chan) (c r : Nat), RasterOk s → c < 500 → r < 400 →
        intensity ((endRoll (dropForce (popInbound s))).raster.planes.get n) c r = intensity (s.raster.planes.get n)
          (if s.raster.wrapped then (s.raster.writeCol + c) % 500 else c) r := fun n c r hok hc hr => by
      rw [hraster]
      exact rasterLeaveRoll_picture _ (dropForce (popInbound s)) n c r hok hc hr
    have hlist : (endRoll (dropForce (popInbound s))).raster.list = s.raster.list := by rw [hraster]; rfl
    rw [exec_stop h hpower, stopAcq_rolling (s := popInbound s) hstate]
    exact ⟨_, nextSerial s.acq.serialCounter, rfl, nextSerial_eq _, hseg, hothers, hstopped, hkind, hsingle, hforce, hserial,
      hcount, hlast, hmem, hnote, hpicture, congrArg Raster.view hraster, hlist,
      congrArg Raster.writeCol hraster, congrArg Raster.wrapped hraster, hstart, hmon, hsetup, hgen, hpanel, hstore, hpow,
      hinbound, hanswers⟩

end Sys2Proof.Machine
end

section
/-! SUPPORT. The write of a point: its bytes, its address, the rows that carry codes (O27, O31). -/

namespace Sys2Proof.Machine

/-! ## Channels -/

theorem get_ofFn {α : Type} (f : Chan → α) (n : Chan) : (PerChan.ofFn f).get n = f n := by cases n <;> rfl

theorem get_const {α : Type} (x : α) (n : Chan) : (PerChan.const x).get n = x := by cases n <;> rfl

theorem members_length_le (e : PerChan Bool) : e.members.length ≤ chanCount e := by
  obtain ⟨c1, c2, c3, c4⟩ := e
  revert c1 c2 c3 c4
  decide

/-! ## The bytes of a point -/

theorem ivBytes_length (g : Geometry) (iv : PerChan IntervalChan) :
    (ivBytes g iv).length = g.enabled.members.length * pointBytes g.mode := by
  unfold ivBytes
  cases g.mode <;> simp [pointBytes, List.length_flatMap]

theorem ivBytes_length_le (g : Geometry) (iv : PerChan IntervalChan) :
    (ivBytes g iv).length ≤ chanCount g.enabled * pointBytes g.mode := by
  rw [ivBytes_length]
  exact Nat.mul_le_mul_right _ (members_length_le g.enabled)

/-- R39: the memory after a store that lies within it, byte by byte. -/
theorem portStore_within {m : List Host.Cell} {a : Nat} {bs : List Byte} (h : a + bs.length ≤ memSize) (ep : Nat) :
    portStore m a bs = memStore m a bs ∧
    ∀ x, x < a ∨ a + bs.length ≤ x → memByte ep (portStore m a bs) x = memByte ep m x := by
  have hport : portStore m a bs = memStore m a bs := if_pos h
  exact ⟨hport, fun x hx => hport ▸ memByte_memStore_outside bs ep m a x hx⟩

/-- R27: the flag sets once LANE has been marked. -/
theorem markLane_get (g : Geometry) (iv : PerChan IntervalChan) (f : PerChan FlagSet) (n : Chan) :
    (markLane g iv f).get n =
      if g.enabled.get n = true ∧ (iv.get n).lockLow = true then { f.get n with lane := true } else f.get n := by
  rw [markLane, get_ofFn]
  simp only [Bool.and_eq_true]

theorem segAt_storePoint_same (k q : Nat) (i : SegInfo) (s : State) :
    segAt (storePoint k q i s) k = { segAt s k with info := some { i with flags := markLane i.geo s.acq.iv i.flags } } :=
  segAt_setSeg_same k _ s

theorem segAt_storePoint_other {k j : Nat} (q : Nat) (i : SegInfo) (s : State) (h : j ≠ k) :
    segAt (storePoint k q i s) j = segAt s j := segAt_setSeg_other k j _ s h

/-! ## The rows that carry codes -/

section
variable {s : State} {i : SegInfo}

theorem captureExists_of_region (hi : (curSeg s).info = some i) (h : (s.acq.cur + 1) * i.geo.size ≤ memSize) :
    captureExists s = true := by
  have hregion : regionExists (regionOf s.acq.cur i.geo) = true := decide_eq_true h
  simp only [captureExists, hi, hregion, Bool.or_true]

theorem intervalFull_iff (hi : (curSeg s).info = some i) :
    intervalFull s = true ↔ inFlight s = true ∧ i.geo.interval ≤ s.acq.ivCount ∧ 0 < s.acq.ivCount := by
  simp only [intervalFull, curInterval, hi, Option.isSome_some, Bool.and_true, Bool.and_eq_true, decide_eq_true_eq, and_assoc]

theorem intervalFull_not (h : s.acq.ivCount = 0 ∨ ∃ i, (curSeg s).info = some i ∧ s.acq.ivCount < i.geo.interval) :
    intervalFull s = false := by
  rcases h with h | ⟨i, hi, h⟩
  · simp [intervalFull, h]
  · rw [← Bool.not_eq_true, intervalFull_iff hi]
    omega

end

section
variable {codes : List Sample} {s : State} (hreset : s.pins.resetLow = false)
include hreset

theorem exec_pointWritten (hexists : captureExists s = true) : exec (.pointWritten codes) s =
    .next (if intervalFull (passCodes codes s) ∧ (passCodes codes s).acq.state ≠ .rolling
      then writePoint (passCodes codes s) else passCodes codes s) :=
  codesRow_high (f := fun s => if intervalFull (passCodes codes s) ∧ (passCodes codes s).acq.state ≠ .rolling
    then writePoint (passCodes codes s) else passCodes codes s) hreset hexists

theorem exec_rollColumn (hexists : captureExists s = true) : exec (.rollColumn codes) s =
    .next (if intervalFull (passCodes codes s) ∧ (passCodes codes s).acq.state = .rolling
      then writeColumn (passCodes codes s) else passCodes codes s) :=
  codesRow_high (f := fun s => if intervalFull (passCodes codes s) ∧ (passCodes codes s).acq.state = .rolling
    then writeColumn (passCodes codes s) else passCodes codes s) hreset hexists

end

end Sys2Proof.Machine
end

section
/-! SUPPORT. The column of a roll, in the memory and on the planes, and its end by the count (O31). -/

namespace Sys2Proof.Machine

/-! ## Columns of a plane -/

/-- What a table whose keys are raised lists. -/
theorem tabGet?_raised {α : Type} (t : List (Nat × α)) (d x : Nat) :
    tabGet? (t.map (fun e => (d + e.1, e.2))) (d + x) = tabGet? t x := by
  induction t with
  | nil => rfl
  | cons e r ih =>
    obtain ⟨k, y⟩ := e
    simp only [List.map_cons, tabGet?, ih, Nat.add_left_cancel_iff]

/-- The new entries of a mapped column. -/
theorem columnEntries_eq (v : Nat → Byte) (c : Nat) :
    (List.range 400).filterMap (fun r => if v r = 0 then none else some (400 * c + r, v r)) =
      ((List.range 400).filterMap (fun r => if v r = 0 then none else some (r, v r))).map (fun e => (400 * c + e.1, e.2)) := by
  rw [List.map_filterMap]
  congr 1
  funext r
  split <;> rfl

theorem intensity_mapColumn (f : Nat → Byte → Byte) (c : Nat) (p : List (Nat × Byte)) (c' r : Nat) (hr : r < 400) :
    intensity (mapColumn f c p) c' r = if c' = c then f r (intensity p c r) else intensity p c' r := by
  have hold : ∀ r', r' < 400 → tabGet 0 (columnOfPlane p c) (400 * c + r') = intensity p c r' := fun r' hr' => by
    have hin : (decide (400 * c ≤ 400 * c + r') && decide (400 * c + r' < 400 * (c + 1))) = true := by
      rw [Bool.and_eq_true, decide_eq_true_iff, decide_eq_true_iff]
      omega
    rw [intensity, tabGet, tabGet, columnOfPlane,
      tabGet?_filterKey (fun k => decide (400 * c ≤ k) && decide (k < 400 * (c + 1))), if_pos hin]
  rw [intensity, tabGet, mapColumn, tabGet?_tabSplice _ _ _ _ _ (by omega) ?outside]
  case outside =>
    intro j hj
    refine tabGet?_none _ _ fun e he => ?_
    obtain ⟨r', hr', hsome⟩ := List.mem_filterMap.mp he
    have hlt := List.mem_range.mp hr'
    simp only at hsome
    split at hsome
    · cases hsome
    · obtain rfl := Option.some.inj hsome
      simp only
      omega
  by_cases hc : c' = c
  · subst hc
    rw [if_pos (by omega), if_pos rfl, columnEntries_eq, tabGet?_raised, ← hold r hr]
    exact tabGet_range 0 (fun r => f r (tabGet 0 (columnOfPlane p c') (400 * c' + r))) 400 r hr
  · rw [if_neg (by omega), if_neg hc]
    rfl

/-- R112: one column shows the spans, and no other changes. -/
theorem intensity_setColumn (w c : Nat) (spans : List (Nat × Nat)) (p : List (Nat × Byte)) (c' r : Nat) (hr : r < 400) :
    intensity (setColumn w c spans p) c' r =
      if c' ≠ c then intensity p c' r else if marked spans r then BitVec.ofNat 8 w else 0 := by
  rw [setColumn, intensity_mapColumn _ _ _ _ _ hr, ite_not]

/-! ## The column write -/

section
variable {s : State} {i : SegInfo}

/-- The smallest and the largest code of each channel in the interval. -/
def columnCodes (s : State) : PerChan (Byte × Byte) := .ofFn (fun n => ((s.acq.iv.get n).lo, (s.acq.iv.get n).hi))

/-- R39, R60: the column in ACQ. -/
theorem writeColumn_acq (hi : (curSeg s).info = some i) : ∀ u, u = storePoint s.acq.cur (s.acq.rollCount % 500) i s →
    (writeColumn s).acq = { u.acq with
      rollCount := s.acq.rollCount + 1
      columnsLeft := if s.acq.single then s.acq.columnsLeft - 1 else s.acq.columnsLeft
      ivCount := 0
      iv := ⟨.empty, .empty, .empty, .empty⟩ } := by
  rintro u rfl
  simp only [writeColumn, hi]
  rfl

/-- R112: the column in RASTER, and the start column COMPOSE takes. -/
theorem writeColumn_raster (hi : (curSeg s).info = some i) :
    (writeColumn s).raster = (rasterRollColumn i.geo (columnCodes s) s).raster ∧
    (writeColumn s).compose.startCol = (rasterRollColumn i.geo (columnCodes s) s).compose.startCol := by
  simp only [writeColumn, hi]
  exact ⟨rfl, rfl⟩

/-- R60: what the column write leaves of the records. -/
theorem segAt_writeColumn (hi : (curSeg s).info = some i) :
    segAt (writeColumn s) s.acq.cur = { segAt s s.acq.cur with info := some { i with
      flags := markLane i.geo s.acq.iv i.flags } } ∧
    ∀ k, k ≠ s.acq.cur → segAt (writeColumn s) k = segAt s k := by
  have hsegs : (writeColumn s).acq.segs = (storePoint s.acq.cur (s.acq.rollCount % 500) i s).acq.segs := by
    rw [writeColumn_acq hi _ rfl]
  exact ⟨(segAt_of_segs hsegs _).trans (segAt_storePoint_same _ _ i s),
    fun k hk => (segAt_of_segs hsegs _).trans (segAt_storePoint_other _ i s hk)⟩

/-- R34, R39: what the memory holds once the column has been written. -/
theorem writeColumn_mem (hi : (curSeg s).info = some i) {a : Nat} {point : List Byte}
    (ha : a = s.acq.cur * i.geo.size + s.acq.rollCount % 500 * (chanCount i.geo.enabled * pointBytes i.geo.mode))
    (hpoint : point = ivBytes i.geo s.acq.iv) (hfits : a + point.length ≤ memSize) :
    (writeColumn s).acq.mem = memStore s.acq.mem a point ∧ ∀ x, x < a ∨ a + point.length ≤ x →
      memByte (writeColumn s).acq.memEpoch (writeColumn s).acq.mem x = memByte s.acq.memEpoch s.acq.mem x := by
  have hmem : (writeColumn s).acq.mem = portStore s.acq.mem a point := by
    rw [writeColumn_acq hi _ rfl, ha, hpoint]
    rfl
  have hepoch : (writeColumn s).acq.memEpoch = s.acq.memEpoch := by simp
  rw [hmem, hepoch]
  exact portStore_within hfits s.acq.memEpoch

end

section
variable {s : State} {i : SegInfo} (hreset : s.pins.resetLow = false) (hstate : s.acq.state = .rolling)
  (hi : (curSeg s).info = some i) (hregion : (s.acq.cur + 1) * i.geo.size ≤ memSize) (hpos : 0 < s.acq.ivCount)
  (hfull : i.geo.interval ≤ s.acq.ivCount)
include hreset hstate hi hregion hpos hfull

/-- R39, R60: the row ROLL_COLUMN with no more codes writes the column of a whole interval. -/
theorem exec_rollColumn_whole : exec (.rollColumn []) s = .next (writeColumn s) := by
  have hwhole : intervalFull s = true := (intervalFull_iff hi).mpr ⟨by simp only [inFlight, hstate], hfull, hpos⟩
  rw [exec_rollColumn hreset (captureExists_of_region hi hregion)]
  exact congrArg _ (if_pos ⟨hwhole, hstate⟩)

end

/-- R112: the picture of the written column. -/
theorem writeColumn_picture {s : State} {i : SegInfo} (hi : (curSeg s).info = some i) (n : Chan) (c r : Nat) (sc : ChanScaling)
    (hr : r < 400) (hsc : sc = scalingFor s i.geo n) :
    intensity ((writeColumn s).raster.planes.get n) c r =
      (if c ≠ s.raster.writeCol then intensity (s.raster.planes.get n) c r
      else if i.geo.enabled.get n = true ∧ rowOf sc (s.acq.iv.get n).hi ≤ r ∧ r ≤ rowOf sc (s.acq.iv.get n).lo then
        BitVec.ofNat 8 s.setup.hitw
      else 0) := by
  have hplane : (writeColumn s).raster.planes.get n = setColumn s.setup.hitw s.raster.writeCol
      (if i.geo.enabled.get n then [rollSpan s i.geo n (s.acq.iv.get n).lo (s.acq.iv.get n).hi] else [])
      (s.raster.planes.get n) := by
    rw [(writeColumn_raster hi).1]
    cases n <;> rfl
  rw [hplane, intensity_setColumn _ _ _ _ _ _ hr]
  cases i.geo.enabled.get n with
  | false => simp [marked]
  | true => simp [marked, rollSpan, hsc]

section
variable {codes : List Sample} {s s1 : State} (hreset : s.pins.resetLow = false) (hexists : captureExists s = true)
  (hs1 : s1 = codes.foldl passCode s)
include hreset hexists hs1

theorem exec_rollColumn_codes_only (h : s1.acq.state ≠ .rolling ∨ intervalFull s1 = false) :
    exec (.rollColumn codes) s = .next s1 := by
  rw [exec_rollColumn hreset hexists, passCodes, ← hs1]
  refine congrArg _ (if_neg fun hboth => ?_)
  rcases h with h | h
  · exact h hboth.2
  · exact Bool.false_ne_true (h.symm.trans hboth.1)

theorem exec_rollColumn_after_codes (hexists1 : captureExists s1 = true) :
    exec (.rollColumn codes) s = exec (.rollColumn []) s1 := by
  have hreset1 : s1.pins.resetLow = false := by
    rw [hs1, ← passCodes]
    simpa using hreset
  rw [exec_rollColumn hreset hexists, exec_rollColumn hreset1 hexists1, passCodes, ← hs1]
  rfl

end

/-- R61: the row COLUMNS_LEFT_ZERO of a single roll whose last column stands. -/
theorem exec_columnsLeftZero {s : State} (hreset : s.pins.resetLow = false) (hstate : s.acq.state = .rolling)
    (hsingle : s.acq.single = true) (hleft : s.acq.columnsLeft = 0) : exec .columnsLeftZero s = .next (endRoll s) := by
  have hdone : columnsDone s = true := by simp only [columnsDone, hstate, hsingle, hleft, decide_true, Bool.and_true]
  exact (live_high hreset).trans (congrArg _ (if_pos hdone))

/-- Settles O31: the column of a roll in the memory and on the planes, and the end of a single roll. -/
theorem rollColumnsAndTheirEnd : Obligations.RollColumnsAndTheirEnd := by
  refine ⟨⟨fun s i hreset hstate hcur hi hmode hsize hpos hfull => ?_, fun codes s s1 hreset hexists hs1 => ⟨fun h => ?_,
    exec_rollColumn_after_codes hreset hexists hs1⟩⟩,
    fun s r i hreset hstate hsingle hleft hcur hr hi => ?_, fun s i hreset hstate hi hregion hpos hfull => ?_⟩
  · have hinfo : (curSeg s).info = some i := by rwa [curSeg, hcur]
    have hcount := (chanCount_bounds i.geo.enabled).2
    have hregion : (s.acq.cur + 1) * i.geo.size ≤ memSize := by
      rw [hcur, hsize, memSize]
      omega
    obtain ⟨hseg, hothers⟩ := segAt_writeColumn hinfo
    rw [hcur] at hseg hothers
    obtain ⟨hacq, hraster⟩ := And.intro (writeColumn_acq hinfo _ rfl) (writeColumn_raster hinfo).1
    have hcur' : (writeColumn s).acq.cur = 0 := by
      rw [hacq]
      exact hcur
    refine ⟨_, markLane i.geo s.acq.iv i.flags, exec_rollColumn_whole hreset hstate hinfo hregion hpos hfull,
      fun a point ha hpoint => ?_, hseg, markLane_get _ _ _, hothers, by simpa using hstate, hcur', by rw [hacq], by rw [hacq],
      by rw [hacq], by simp, by simp, by simp, by rw [hraster]; rfl, by simp, by simp, by simp, by simp, by simp, by simp,
      by simp, by simp, by simp, by simp⟩
    have hpeak : pointBytes i.geo.mode = 2 := by rw [hmode]; rfl
    have hbytes : point = ivBytes i.geo s.acq.iv := by rw [hpoint, ivBytes, hmode]
    have hlength := ivBytes_length_le i.geo s.acq.iv
    have hplace : s.acq.rollCount % 500 * (chanCount i.geo.enabled * 2) ≤ 499 * (chanCount i.geo.enabled * 2) :=
      Nat.mul_le_mul_right _ (by omega)
    have hfits : a + point.length ≤ memSize := by
      rw [hpeak] at hlength
      rw [hbytes, ha, memSize]
      omega
    exact writeColumn_mem hinfo (by rw [ha, hcur, hpeak, Nat.zero_mul, Nat.zero_add]) hbytes hfits
  · refine exec_rollColumn_codes_only hreset hexists hs1 (h.imp_right intervalFull_not)
  · obtain ⟨hseg, -, hstopped, hkind, hsingle', -, hserial, hcount, hlast, hmem⟩ := endRoll_acq hcur (hr ▸ hi) rfl rfl
    obtain ⟨hraster, -, hmon, hnote, hsetup, hgen, hpanel, hstore, hpow, -⟩ := endRoll_others hcur (hr ▸ hi) rfl rfl
    have hlist : (endRoll s).raster.list = s.raster.list := by rw [hraster]; rfl
    exact ⟨_, nextSerial s.acq.serialCounter, exec_columnsLeftZero hreset hstate hsingle hleft, nextSerial_eq _, hseg,
      hstopped, hkind, hsingle', hserial, hcount, hlast, hmem, congrArg Raster.view hraster, hlist, hnote, hmon, hsetup, hgen,
      hpanel, hstore, hpow⟩
  · refine ⟨_, exec_rollColumn_whole hreset hstate hi hregion hpos hfull,
      fun n c r sc hr hsc => writeColumn_picture hi n c r sc hr hsc, ?_⟩
    obtain ⟨hraster, hstart⟩ := writeColumn_raster hi
    rw [hstart, hraster]
    exact ⟨rfl, rfl, rfl, rfl, rfl, rfl⟩

end Sys2Proof.Machine
end

section
/-! SUPPORT. Codes that join the interval in progress, and the point that a whole interval is written as (O27). -/

namespace Sys2Proof.Machine

/-! ## A code that joins the interval -/

/-- R32: the capture in flight takes codes and no row but the write of a whole interval is due. -/
def Taking (i : SegInfo) (s : State) : Prop :=
  (curSeg s).info = some i ∧
  (s.acq.state = .capturing ∧ i.geo.pre + s.acq.postCount < i.geo.len ∨ s.acq.state = .arming ∧ s.acq.preCount < i.geo.pre ∨
    s.acq.state = .rolling ∧ (s.acq.single = true → 0 < s.acq.columnsLeft))

theorem whenDue_of_not {due : State → Bool} {f : State → State} {s : State} (h : due s = false) : whenDue due f s = s := by
  simp only [whenDue, h, Bool.false_eq_true, if_false]

section
variable {i : SegInfo} {s : State}

theorem Taking.state_mem (h : Taking i s) : s.acq.state = .capturing ∨ s.acq.state = .arming ∨ s.acq.state = .rolling :=
  h.2.imp And.left (Or.imp And.left And.left)

theorem Taking.inFlight (h : Taking i s) : inFlight s = true := by
  rcases h.state_mem with hs | hs | hs <;> simp only [Sys2Proof.Machine.inFlight, hs]

theorem Taking.not_readyDue (h : Taking i s) : readyDue s = false := by
  obtain ⟨hi, hstate⟩ := h
  simp only [readyDue, hi]
  rcases hstate with ⟨hs, -⟩ | ⟨hs, hpre⟩ | ⟨hs, -⟩
  · simp [hs]
  · simpa [hs] using hpre
  · simp [hs]

theorem Taking.not_endDue (h : Taking i s) : endDue s = false := by
  obtain ⟨hi, hstate⟩ := h
  simp only [endDue, hi]
  rcases hstate with ⟨hs, hlen⟩ | ⟨hs, -⟩ | ⟨hs, -⟩
  · simpa [hs] using hlen
  · simp [hs]
  · simp [hs]

theorem Taking.not_columnsDone (h : Taking i s) : columnsDone s = false := by
  obtain ⟨-, hstate⟩ := h
  rcases hstate with ⟨hs, -⟩ | ⟨hs, -⟩ | ⟨hs, hleft⟩
  · simp [columnsDone, hs]
  · simp [columnsDone, hs]
  · simp only [columnsDone, hs, decide_true, Bool.true_and, Bool.and_eq_false_imp]
    intro hsingle
    exact decide_eq_false (Nat.ne_of_gt (hleft hsingle))

theorem Taking.settle (h : Taking i s) (hcount : s.acq.ivCount < i.geo.interval) : settle s = s := by
  have hauto : autoOverdue s = false := by
    rcases h.state_mem with hs | hs | hs <;> simp [autoOverdue, autoDue, hs]
  have hrelease : releaseDue s = false := by
    rcases h.state_mem with hs | hs | hs <;> simp [releaseDue, hs]
  rw [Sys2Proof.Machine.settle, whenDue_of_not (intervalFull_not (.inr ⟨i, h.1, hcount⟩)), whenDue_of_not h.not_readyDue,
    whenDue_of_not h.not_endDue, whenDue_of_not h.not_columnsDone, whenDue_of_not hauto, whenDue_of_not hrelease]

end

/-- R25: from s to t nothing has changed but the clock, the primes, the held codes, the interval in progress and the lane pins. -/
def Joined (s t : State) : Prop := ∃ phase tag wraps rise fall held count iv lanes, t = { s with
  pins := { s.pins with lanes := lanes }
  acq := { s.acq with
    nsPhase := phase, timeTag := tag, wraps := wraps, risePrime := rise, fallPrime := fall, held := held, ivCount := count
    iv := iv } }

theorem Joined.refl (s : State) : Joined s s := ⟨_, _, _, _, _, _, _, _, _, rfl⟩

theorem Joined.trans {s t u : State} (h : Joined s t) (h' : Joined t u) : Joined s u := by
  obtain ⟨_, _, _, _, _, _, _, _, _, rfl⟩ := h
  obtain ⟨_, _, _, _, _, _, _, _, _, rfl⟩ := h'
  exact ⟨_, _, _, _, _, _, _, _, _, rfl⟩

/-- R42, R53: from s to t nothing has changed but the clock and the primes. -/
def Ticked (s t : State) : Prop := ∃ phase tag wraps rise fall, t = { s with acq := { s.acq with
  nsPhase := phase, timeTag := tag, wraps := wraps, risePrime := rise, fallPrime := fall } }

theorem Ticked.trans {s t u : State} (h : Ticked s t) (h' : Ticked t u) : Ticked s u := by
  obtain ⟨_, _, _, _, _, rfl⟩ := h
  obtain ⟨_, _, _, _, _, rfl⟩ := h'
  exact ⟨_, _, _, _, _, rfl⟩

theorem advanceNs_ticked (s : State) : Ticked s (advanceNs s) := by
  unfold advanceNs
  split <;> exact ⟨_, _, _, _, _, rfl⟩

theorem detect_ticked (code : PerChan Byte) (ext : Bool) (tick : Tick) {s : State} (h : s.acq.state ≠ .waiting) :
    Ticked s (detect code ext tick s) := by
  unfold detect
  cases hs : s.acq.state with
  | waiting => exact absurd hs h
  | arming =>
    simp only [show decide (AcqState.arming = AcqState.waiting) = false from rfl, Bool.false_and, Bool.false_eq_true, if_false]
    exact ⟨_, _, _, _, _, rfl⟩
  | stopped | capturing | held | rolling => exact ⟨_, _, _, _, _, rfl⟩

/-- R26: the lane pins and the held codes once the codes of a nanosecond have passed. -/
def passLanes (x : Sample) (s : State) : State := { s with
  pins := { s.pins with lanes := x }
  acq := { s.acq with held := .ofFn (passedCode s x) } }

theorem accumulate_inFlight {s : State} (h : inFlight s = true) (code : PerChan Byte) :
    accumulate code s = { s with acq := { s.acq with
      ivCount := s.acq.ivCount + 1
      iv := .ofFn (fun n => (s.acq.iv.get n).add s.acq.ivCount (code.get n) (s.pins.lock.get n)) } } := if_pos h

/-- R26, R32: the state once a code has joined the interval in progress. -/
def joinCode (x : Sample) (s : State) : State := { s with
  pins := { s.pins with lanes := x }
  acq := { s.acq with
    held := .ofFn (passedCode s x)
    ivCount := s.acq.ivCount + 1
    iv := .ofFn (fun n => (s.acq.iv.get n).add s.acq.ivCount (passedCode s x n) (s.pins.lock.get n)) } }

section
variable {i : SegInfo} {s : State} (h : Taking i s) (hcount : s.acq.ivCount < i.geo.interval) (x : Sample)
include h hcount

theorem Taking.takeCode_ticked : Ticked (joinCode x s) (takeCode s x) := by
  have hjoin : accumulate (.ofFn (passedCode s x)) (passLanes x s) = joinCode x s := by
    rw [accumulate_inFlight (s := passLanes x s) h.inFlight]
    simp only [get_ofFn]
    rfl
  have hwaiting : s.acq.state ≠ .waiting := by
    rcases h.state_mem with hs | hs | hs <;> simp [hs]
  have htick := advanceNs_ticked (joinCode x s)
  have hstate : (advanceNs (joinCode x s)).acq.state ≠ .waiting := by
    obtain ⟨_, _, _, _, _, heq⟩ := htick
    rw [heq]
    exact hwaiting
  rw [takeCode, h.settle hcount]
  exact hjoin ▸ htick.trans (detect_ticked (.ofFn (passedCode s x)) x.ext s.acq.timeTag hstate)

/-- R26, R32: what a code that joins the interval leaves. -/
theorem Taking.takeCode_spec : ∀ t, t = takeCode s x → Joined s t ∧ t.acq.ivCount = s.acq.ivCount + 1 ∧
    t.pins = { s.pins with lanes := x } ∧
    ∀ n, t.acq.iv.get n = (s.acq.iv.get n).add s.acq.ivCount (passedCode s x n) (s.pins.lock.get n) ∧
      t.acq.held.get n = passedCode s x n := by
  intro t ht
  obtain ⟨_, _, _, _, _, heq⟩ := h.takeCode_ticked hcount x
  rw [ht, heq]
  exact ⟨⟨_, _, _, _, _, _, _, _, _, rfl⟩, rfl, rfl, fun n => ⟨get_ofFn _ n, get_ofFn _ n⟩⟩

end

/-- Codes go on joining after codes have joined. -/
theorem Taking.of_joined {i : SegInfo} {s t : State} (h : Taking i s) (hst : Joined s t) : Taking i t := by
  obtain ⟨_, _, _, _, _, _, _, _, _, rfl⟩ := hst
  exact h

/-! ## The codes of an interval -/

/-- R32, R33: codes of a channel in an interval that has n codes before them. -/
def addCodes (locked : Bool) : List Byte → Nat → IntervalChan → IntervalChan
  | [], _, y => y
  | c :: cs, n, y => addCodes locked cs (n + 1) (y.add n c locked)

section
variable (locked : Bool) (cs : List Byte) (n : Nat) (y : IntervalChan)

theorem addCodes_first_kept (hn : n ≠ 0) : (addCodes locked cs n y).first = y.first := by
  induction cs generalizing n y with
  | nil => rfl
  | cons c cs ih => exact (ih (n + 1) _ (Nat.succ_ne_zero n)).trans (if_neg hn)

theorem addCodes_first (hne : cs ≠ []) : (addCodes locked cs 0 y).first = cs.headD 0 := by
  cases cs with
  | nil => exact absurd rfl hne
  | cons c cs => exact addCodes_first_kept locked cs 1 _ Nat.one_ne_zero

theorem addCodes_lo : (addCodes locked cs n y).lo = BitVec.ofNat 8 (cs.foldl (fun m c => Nat.min m c.toNat) y.lo.toNat) := by
  induction cs generalizing n y with
  | nil => simp [addCodes]
  | cons c cs ih =>
    have hlo : (y.add n c locked).lo.toNat = Nat.min y.lo.toNat c.toNat := by
      simp only [IntervalChan.add]
      split <;> simp only [Nat.min_def] <;> split <;> omega
    rw [addCodes, ih, hlo, List.foldl_cons]

theorem addCodes_hi : (addCodes locked cs n y).hi = BitVec.ofNat 8 (cs.foldl (fun m c => Nat.max m c.toNat) y.hi.toNat) := by
  induction cs generalizing n y with
  | nil => simp [addCodes]
  | cons c cs ih =>
    have hhi : (y.add n c locked).hi.toNat = Nat.max y.hi.toNat c.toNat := by
      simp only [IntervalChan.add]
      split <;> simp only [Nat.max_def] <;> split <;> omega
    rw [addCodes, ih, hhi, List.foldl_cons]

end

/-- R26, R32: codes up to a whole interval join it one by one. -/
theorem Taking.foldl_takeCode {i : SegInfo} (xs : List Sample) {s : State} (h : Taking i s)
    (hcount : s.acq.ivCount + xs.length ≤ i.geo.interval) : ∀ t, t = xs.foldl takeCode s → Joined s t ∧
    t.acq.ivCount = s.acq.ivCount + xs.length ∧ ∀ n, t.acq.iv.get n =
      addCodes (s.pins.lock.get n) (xs.map (fun x => passedCode s x n)) s.acq.ivCount (s.acq.iv.get n) := by
  induction xs generalizing s with
  | nil =>
    rintro t rfl
    exact ⟨.refl _, rfl, fun n => rfl⟩
  | cons x xs ih =>
    intro t ht
    rw [List.foldl_cons] at ht
    rw [List.length_cons] at hcount
    obtain ⟨hjoined, hone, hpins, hchan⟩ := h.takeCode_spec (by omega) x _ rfl
    obtain ⟨hrest, hlen, hiv⟩ := ih (h.of_joined hjoined) (by omega) t ht
    have hpassed : ∀ y n, passedCode (takeCode s x) y n = passedCode s y n := fun y n => by
      simp only [passedCode, hpins, (hchan n).2]
      split <;> rfl
    refine ⟨hjoined.trans hrest, ?_, fun n => ?_⟩
    · rw [hlen, hone, List.length_cons]
      omega
    · rw [hiv, hone, hpins, (hchan n).1]
      simp only [hpassed]
      rfl

/-! ## The write of a point -/

/-- R32, R34, R71: the interval has been written as the point at position q, and counted. -/
def pointAt (q pre post : Nat) (i : SegInfo) (s : State) : State :=
  let s1 := measurePoint q i.geo (storePoint s.acq.cur q i s)
  resetInterval { s1 with acq := { s1.acq with preCount := pre, postCount := post } }

section
variable {i : SegInfo} {s : State} (hi : (curSeg s).info = some i)
include hi

theorem writePoint_capturing (hstate : s.acq.state = .capturing) :
    writePoint s = pointAt (i.geo.pre + s.acq.postCount) s.acq.preCount (s.acq.postCount + 1) i s := by
  simp only [writePoint, hi, hstate]
  rfl

theorem writePoint_ring (hstate : s.acq.state = .arming ∨ s.acq.state = .waiting) (hpre : 0 < i.geo.pre) :
    writePoint s = pointAt (s.acq.preCount % i.geo.pre) (s.acq.preCount + 1) s.acq.postCount i s := by
  have hne : i.geo.pre ≠ 0 := Nat.ne_of_gt hpre
  rcases hstate with hstate | hstate <;>
    (simp only [writePoint, hi, hstate, if_neg hne]; rfl)

theorem writePoint_noRing (hstate : s.acq.state = .waiting) (hpre : i.geo.pre = 0) : writePoint s = resetInterval s := by
  simp only [writePoint, hi, hstate, hpre, if_true]

/-- R32: the point of a capture in PREFILL or FILLING. -/
theorem writePoint_at {q : Nat} (hq : s.acq.state = .capturing ∧ q = i.geo.pre + s.acq.postCount ∨
      s.acq.state = .arming ∧ 0 < i.geo.pre ∧ q = s.acq.preCount % i.geo.pre) :
    writePoint s = pointAt q (if s.acq.state = .capturing then s.acq.preCount else s.acq.preCount + 1)
      (if s.acq.state = .capturing then s.acq.postCount + 1 else s.acq.postCount) i s := by
  rcases hq with ⟨hstate, rfl⟩ | ⟨hstate, hpre, rfl⟩
  · rw [if_pos hstate, if_pos hstate, writePoint_capturing hi hstate]
  · have hne : s.acq.state ≠ .capturing := by simp [hstate]
    rw [if_neg hne, if_neg hne, writePoint_ring hi (.inl hstate) hpre]

/-- R32: the row POINT_WRITTEN with no more codes writes the point of a whole interval. -/
theorem exec_pointWritten_whole (hreset : s.pins.resetLow = false)
    (hstate : s.acq.state = .capturing ∨ s.acq.state = .arming ∨ s.acq.state = .waiting)
    (hregion : (s.acq.cur + 1) * i.geo.size ≤ memSize) (hpos : 0 < s.acq.ivCount) (hfull : i.geo.interval ≤ s.acq.ivCount) :
    exec (.pointWritten []) s = .next (writePoint s) := by
  have hflight : inFlight s = true := by rcases hstate with hs | hs | hs <;> simp only [inFlight, hs]
  have hroll : s.acq.state ≠ .rolling := by rcases hstate with hs | hs | hs <;> simp [hs]
  rw [exec_pointWritten hreset (captureExists_of_region hi hregion)]
  exact congrArg _ (if_pos ⟨(intervalFull_iff hi).mpr ⟨hflight, hfull, hpos⟩, hroll⟩)

end

section
variable {q pre post : Nat} {i : SegInfo} {s : State}

/-- R32, R33, R34: what the memory holds once a point has been written. -/
theorem pointAt_mem (hfits : s.acq.cur * i.geo.size + (q + 1) * (chanCount i.geo.enabled * pointBytes i.geo.mode) ≤ memSize) :
    ∀ a point, a = s.acq.cur * i.geo.size + q * (chanCount i.geo.enabled * pointBytes i.geo.mode) →
      point = ivBytes i.geo s.acq.iv → (pointAt q pre post i s).acq.mem = memStore s.acq.mem a point ∧
      ∀ x, x < a ∨ a + point.length ≤ x →
        memByte s.acq.memEpoch (pointAt q pre post i s).acq.mem x = memByte s.acq.memEpoch s.acq.mem x := by
  rintro a point rfl rfl
  have hlength := ivBytes_length_le i.geo s.acq.iv
  rw [Nat.add_mul, Nat.one_mul] at hfits
  exact portStore_within (by omega) s.acq.memEpoch

/-- R71: the adders and the counts once a point has been written; the next interval begins. -/
theorem pointAt_acq : (pointAt q pre post i s).acq = { (storePoint s.acq.cur q i s).acq with
    points := tabPut s.acq.points q (.ofFn (fun n => pointMeas i.geo.mode (s.acq.iv.get n)))
    preCount := pre, postCount := post, ivCount := 0, iv := ⟨.empty, .empty, .empty, .empty⟩ } := rfl

theorem segAt_pointAt_same : segAt (pointAt q pre post i s) s.acq.cur =
    { segAt s s.acq.cur with info := some { i with flags := markLane i.geo s.acq.iv i.flags } } :=
  (segAt_of_segs (s := storePoint s.acq.cur q i s) (by rw [pointAt_acq]) _).trans (segAt_storePoint_same s.acq.cur q i s)

theorem segAt_pointAt_other {k : Nat} (h : k ≠ s.acq.cur) : segAt (pointAt q pre post i s) k = segAt s k :=
  (segAt_of_segs (s := storePoint s.acq.cur q i s) (by rw [pointAt_acq]) _).trans (segAt_storePoint_other q i s h)

end

/-- R32, R33: the bytes of the point that codes make of an interval that had none. -/
theorem ivBytes_addCodes {g : Geometry} {iv : PerChan IntervalChan} {locked : Chan → Bool} {codes : List Sample}
    {code : Sample → Chan → Byte} (hne : codes ≠ [])
    (hiv : ∀ n, iv.get n = addCodes (locked n) (codes.map (fun x => code x n)) 0 .empty) :
    ivBytes g iv = g.enabled.members.flatMap (fun n => match g.mode with
      | .sample => [(codes.map (fun x => code x n)).headD 0]
      | .peak => [BitVec.ofNat 8 (codes.foldl (fun m x => Nat.min m (code x n).toNat) 255),
          BitVec.ofNat 8 (codes.foldl (fun m x => Nat.max m (code x n).toNat) 0)]) := by
  have hfirst : ∀ n, (iv.get n).first = (codes.map (fun x => code x n)).headD 0 := fun n => by
    rw [hiv, addCodes_first _ _ _ (by simpa using hne)]
  have hlo : ∀ n, (iv.get n).lo = BitVec.ofNat 8 (codes.foldl (fun m x => Nat.min m (code x n).toNat) 255) := fun n => by
    rw [hiv, addCodes_lo, List.foldl_map]
    rfl
  have hhi : ∀ n, (iv.get n).hi = BitVec.ofNat 8 (codes.foldl (fun m x => Nat.max m (code x n).toNat) 0) := fun n => by
    rw [hiv, addCodes_hi, List.foldl_map]
    rfl
  unfold ivBytes
  cases g.mode <;> simp only [hfirst, hlo, hhi]

section
variable {codes : List Sample} {s s1 : State} (hreset : s.pins.resetLow = false) (hexists : captureExists s = true)
  (hs1 : s1 = codes.foldl passCode s)
include hreset hexists hs1

theorem exec_pointWritten_codes_only (h : s1.acq.state = .rolling ∨ intervalFull s1 = false) :
    exec (.pointWritten codes) s = .next s1 := by
  rw [exec_pointWritten hreset hexists, passCodes, ← hs1]
  refine congrArg _ (if_neg fun hboth => ?_)
  rcases h with h | h
  · exact hboth.2 h
  · exact Bool.false_ne_true (h.symm.trans hboth.1)

theorem exec_pointWritten_after_codes (hexists1 : captureExists s1 = true) :
    exec (.pointWritten codes) s = exec (.pointWritten []) s1 := by
  have hreset1 : s1.pins.resetLow = false := by
    rw [hs1, ← passCodes]
    simpa using hreset
  rw [exec_pointWritten hreset hexists, exec_pointWritten hreset1 hexists1, passCodes, ← hs1]
  rfl

end

/-- Joining codes leave these fields, on which the write of the point depends. -/
theorem Joined.keeps {s t : State} (h : Joined s t) : t.acq.cur = s.acq.cur ∧ t.acq.state = s.acq.state ∧
    t.acq.preCount = s.acq.preCount ∧ t.acq.postCount = s.acq.postCount ∧ t.acq.segs = s.acq.segs ∧ t.acq.mem = s.acq.mem ∧
    t.acq.memEpoch = s.acq.memEpoch ∧ t.pins.lock = s.pins.lock ∧ t.setup = s.setup ∧ t.gen = s.gen ∧ t.mon = s.mon ∧
    t.raster = s.raster ∧ t.compose = s.compose ∧ t.panel = s.panel ∧ t.store = s.store ∧ t.power = s.power ∧
    t.link = s.link ∧ t.pending = s.pending := by
  obtain ⟨_, _, _, _, _, _, _, _, _, rfl⟩ := h
  exact ⟨rfl, rfl, rfl, rfl, rfl, rfl, rfl, rfl, rfl, rfl, rfl, rfl, rfl, rfl, rfl, rfl, rfl, rfl⟩

section
variable {codes : List Sample} {s u : State} {i : SegInfo} (h : Taking i s) (hcount : s.acq.ivCount = 0) (hne : codes ≠ [])
  (hlen : codes.length = i.geo.interval) (hu : u = codes.foldl takeCode s)
include h hcount hne hlen hu

/-- R32: the codes of one interval, with no scan between them, are followed by the write of its point. -/
theorem exec_pointWritten_interval (hreset : s.pins.resetLow = false) (hstate : s.acq.state = .capturing ∨ s.acq.state = .arming)
    (hregion : (s.acq.cur + 1) * i.geo.size ≤ memSize) (hscan : NoScanFalls codes.length s) :
    exec (.pointWritten codes) s = .next (writePoint u) := by
  obtain ⟨hjoined, htaken, -⟩ := h.foldl_takeCode codes (by rw [hcount, Nat.zero_add, hlen]) u hu
  obtain ⟨hcur, hstate', -⟩ := hjoined.keeps
  have hui : (curSeg u).info = some i := (h.of_joined hjoined).1
  have hfold : u = codes.foldl passCode s := by rw [hu, ← passCodes_noScan codes s hscan, passCodes]
  have hregion' : (u.acq.cur + 1) * i.geo.size ≤ memSize := by rwa [hcur]
  have hpositive : 0 < codes.length := List.length_pos_of_ne_nil hne
  have hreset' : u.pins.resetLow = false := by
    rw [hfold, ← passCodes]
    simpa using hreset
  rw [exec_pointWritten_after_codes hreset (captureExists_of_region h.1 hregion) hfold (captureExists_of_region hui hregion')]
  exact exec_pointWritten_whole hui hreset' (hstate' ▸ hstate.imp_right .inl) hregion' (by omega) (by omega)

/-- R26, R32, R33: the bytes of the point of an interval. -/
theorem ivBytes_interval (hiv : s.acq.iv = .const IntervalChan.empty) :
    ivBytes i.geo u.acq.iv = i.geo.enabled.members.flatMap (fun n => match i.geo.mode with
      | .sample => [(codes.map (fun x => passedCode s x n)).headD 0]
      | .peak => [BitVec.ofNat 8 (codes.foldl (fun m x => Nat.min m (passedCode s x n).toNat) 255),
          BitVec.ofNat 8 (codes.foldl (fun m x => Nat.max m (passedCode s x n).toNat) 0)]) := by
  obtain ⟨-, -, hivs⟩ := h.foldl_takeCode codes (by rw [hcount, Nat.zero_add, hlen]) u hu
  refine ivBytes_addCodes (locked := s.pins.lock.get) hne fun n => ?_
  rw [hivs, hcount, hiv, get_const]

end

/-- Settles O27: a code joins the interval, a whole interval is written as its point, and the codes of one interval make it. -/
theorem pointIsWrittenAtItsPosition : Obligations.PointIsWrittenAtItsPosition := by
  refine ⟨fun x s i hreset hi hregion hcount hstate => ?_,
    ⟨fun s i q hreset hi hregion hpos hfull hq hfits => ?_, fun codes s s1 hreset hexists hs1 => ⟨fun h => ?_,
      exec_pointWritten_after_codes hreset hexists hs1⟩⟩,
    fun codes s i q hreset hi hregion hcount hiv hne hlen hscan hq hfits => ?_,
    fun s i hreset hstate hi hregion hpos hfull => ?_⟩
  · have htaking : Taking i s := ⟨hi, hstate⟩
    obtain ⟨hjoined, hone, hpins, hchan⟩ := htaking.takeCode_spec hcount x _ rfl
    have hexec : exec (.edgeTrigger [x]) s = .next (scanAtTick (takeCode s x)) := by
      rw [exec_edgeTrigger hreset (captureExists_of_region hi hregion), List.foldl_cons, List.foldl_nil, passCode]
    refine ⟨takeCode s x, hexec, hone, fun n c y hc hy => ?_, ?_⟩
    · subst hc hy
      exact hchan n
    · obtain ⟨_, _, _, _, _, _, _, _, _, heq⟩ := hjoined
      rw [heq] at hpins ⊢
      exact ⟨rfl, rfl, rfl, rfl, rfl, rfl, rfl, rfl, rfl, rfl, rfl, rfl, rfl, rfl, rfl, rfl, rfl, rfl, rfl, hpins, rfl⟩
  · have hstate : s.acq.state = .capturing ∨ s.acq.state = .arming ∨ s.acq.state = .waiting :=
      hq.imp And.left fun h => .inl h.1
    refine ⟨_, markLane i.geo s.acq.iv i.flags, .ofFn (fun n => pointMeas i.geo.mode (s.acq.iv.get n)),
      exec_pointWritten_whole hi hreset hstate hregion hpos hfull, ?_⟩
    have hpoint := writePoint_at hi hq
    have hacq := congrArg State.acq hpoint
    rw [pointAt_acq] at hacq
    refine ⟨fun a point ha hp => ?_, ?_, markLane_get _ _ _, ?_, fun j hj => ?_, fun n y hy => ?_, by rw [hacq], by rw [hacq],
      by rw [hacq], by rw [hacq]; rfl, by simp, fun k hk => ?_, by rw [hacq]; rfl, by simp, by simp, by simp, by simp,
      by simp, by simp, by simp, by simp, by simp, by simp, by simp, by simp, by simp, by simp⟩
    · rw [hpoint]
      exact pointAt_mem hfits a point ha hp
    · rw [hpoint]
      exact segAt_pointAt_same
    · rw [hacq, tabGet?_tabPut_same]
    · rw [hacq, tabGet?_tabPut_other _ _ _ _ hj]
    · rw [get_ofFn, ← hy]
      cases i.geo.mode <;> rfl
    · rw [hpoint]
      exact segAt_pointAt_other hk
  · exact exec_pointWritten_codes_only hreset hexists hs1 (h.imp_right intervalFull_not)
  · have hwindow : s.acq.state = .capturing ∧ i.geo.pre + s.acq.postCount < i.geo.len ∨
        s.acq.state = .arming ∧ s.acq.preCount < i.geo.pre := hq.imp (fun h => ⟨h.1, h.2.1⟩) fun h => ⟨h.1, h.2.1⟩
    have htaking : Taking i s := ⟨hi, hwindow.imp_right .inl⟩
    obtain ⟨u, hu⟩ : ∃ u, u = codes.foldl takeCode s := ⟨_, rfl⟩
    obtain ⟨hjoined, -⟩ := htaking.foldl_takeCode codes (by rw [hcount, Nat.zero_add, hlen]) u hu
    obtain ⟨hcur, hstate, hpre, hpost, hsegs, hmem, hepoch, -, hsetup, hgen, hmon, hraster, hcompose, hpanel, hstore, hpow,
      hlink, hpending⟩ := hjoined.keeps
    have huq : u.acq.state = .capturing ∧ q = i.geo.pre + u.acq.postCount ∨
        u.acq.state = .arming ∧ 0 < i.geo.pre ∧ q = u.acq.preCount % i.geo.pre := by
      rw [hstate, hpre, hpost]
      refine hq.imp (fun h => ⟨h.1, h.2.2⟩) fun ⟨harming, hlt, hq⟩ => ⟨harming, by omega, ?_⟩
      rw [hq, Nat.mod_eq_of_lt hlt]
    have hwritten := writePoint_at (htaking.of_joined hjoined).1 huq
    have hacq := congrArg State.acq hwritten
    rw [pointAt_acq] at hacq
    have hexec := exec_pointWritten_interval htaking hcount hne hlen hu hreset (hq.imp And.left And.left) hregion hscan
    refine ⟨_, hexec, ?_, by simpa using hstate, by rw [hacq], by rw [hacq]; exact hcur, by rw [hacq, hstate, hpre],
      by rw [hacq, hstate, hpost], fun k hk => ?_, by simpa using hsetup, by simpa using hgen, by simpa using hmon,
      by simpa using hraster, by simpa using hcompose, by simpa using hpanel, by simpa using hstore, by simpa using hpow,
      by simpa using hlink, by simpa using hpending⟩
    · intro a code point
      have hbytes : point = ivBytes i.geo u.acq.iv := (ivBytes_interval htaking hcount hne hlen hu hiv).symm
      have hepoch' : (writePoint u).acq.memEpoch = s.acq.memEpoch := by simpa using hepoch
      rw [hepoch', hwritten, ← hmem, ← hepoch]
      exact pointAt_mem (by rw [hcur]; exact hfits) a point (by rw [hcur]) hbytes
    · rw [hwritten, segAt_pointAt_other (by rwa [hcur]), segAt_of_segs hsegs]
  · refine ⟨_, exec_pointWritten_whole hi hreset (.inr (.inr hstate)) hregion hpos hfull, ?_⟩
    rcases Nat.eq_zero_or_pos i.geo.pre with hpre | hpre
    · rw [writePoint_noRing hi hstate hpre]
      exact ⟨hstate, rfl, fun _ => ⟨rfl, rfl, rfl⟩, fun a point h => absurd hpre (Nat.ne_of_gt h), fun k _ => rfl, rfl, rfl,
        rfl, rfl, rfl, rfl, rfl, rfl, rfl, rfl, rfl⟩
    · have hwritten := writePoint_ring hi (.inr hstate) hpre
      have hacq := congrArg State.acq hwritten
      rw [pointAt_acq] at hacq
      refine ⟨by simpa using hstate, by rw [hacq], fun h => absurd h (Nat.ne_of_gt hpre), fun a point _ ha hpoint hfits => ?_,
        fun k hk => hwritten ▸ segAt_pointAt_other hk, by rw [hacq]; rfl, by simp, by simp, by simp, by simp, by simp, by simp,
        by simp, by simp, by simp, by simp⟩
      have hfits' : s.acq.cur * i.geo.size + (s.acq.preCount % i.geo.pre + 1) *
          (chanCount i.geo.enabled * pointBytes i.geo.mode) ≤ memSize := by
        rw [Nat.add_mul, Nat.one_mul, ← Nat.add_assoc, ← ha]
        exact hfits
      obtain ⟨hmem, houtside⟩ := pointAt_mem (pre := s.acq.preCount + 1) (post := s.acq.postCount) hfits' a point ha hpoint
      rw [hwritten]
      exact ⟨hmem, by rw [pointAt_acq], houtside⟩

end Sys2Proof.Machine
end

section
/-! SUPPORT. The buffer a REPEAT arm chooses, the start that waits for a pin, and the arm at its release (O26). -/

namespace Sys2Proof.Machine

/-! ## The buffer choice -/

/-- R58: the preferred buffer. -/
def preferredBuffer (s : State) : Nat := if s.acq.lastDone.map Prod.fst = some 0 then 1 else 0

theorem bufferChoice_eq (s : State) : bufferChoice s =
    if pinnedSeg s (preferredBuffer s) = false ∧ pendingSeg s (preferredBuffer s) = false then preferredBuffer s
    else if pinnedSeg s (1 - preferredBuffer s) = false ∧ pendingSeg s (1 - preferredBuffer s) = false then 1 - preferredBuffer s
    else if pinnedSeg s (preferredBuffer s) = true then 1 - preferredBuffer s else preferredBuffer s := by
  rcases hlast : s.acq.lastDone with _ | ⟨_ | k, ser⟩ <;> simp [bufferChoice, preferredBuffer, hlast]

/-! ## A start whose region meets the pin -/

section
variable {s : State} {j : DrawJob} {k : Nat}

theorem armWaits_of_overlap {g : Geometry} (hjob : s.raster.job = some j) (hlo : j.lo < (k + 1) * g.size)
    (hhi : k * g.size < j.hi) (hne : j.lo < j.hi) : armWaits k g s = true := by
  have hregion : k * g.size < (k + 1) * g.size := by
    rcases Nat.eq_zero_or_pos g.size with hz | hz
    · rw [hz, Nat.mul_zero] at hlo
      omega
    · rw [Nat.add_mul, Nat.one_mul]
      omega
  refine (Bool.or_eq_true _ _).mpr (.inl ?_)
  simp only [pinMeets, pinRegion, hjob, Option.map_some, overlaps, regionOf, Bool.and_eq_true]
  exact ⟨⟨⟨decide_eq_true hlo, decide_eq_true hhi⟩, decide_eq_true hne⟩, decide_eq_true hregion⟩

/-- R38: w stands as s, but for the DONE records that an arm has freed and for the run's place. -/
def FreedFrom (s w : State) : Prop := w.acq.mem = s.acq.mem ∧ w.acq.prevLayout = s.acq.prevLayout ∧
  w.acq.lastTrig = s.acq.lastTrig ∧ w.acq.runKind = s.acq.runKind ∧ w.raster = s.raster

theorem arm_waits (hjob : s.raster.job = some j) (hlo : j.lo < (k + 1) * s.setup.geometry.size)
    (hhi : k * s.setup.geometry.size < j.hi) (hne : j.lo < j.hi) : ∃ w, arm k s = enterHeld w ∧ FreedFrom s w := by
  have hwaits : armWaits k s.setup.geometry (freeForArm k s.setup.geometry s) = true :=
    armWaits_of_overlap (by simpa using hjob) hlo hhi hne
  refine ⟨freeForArm k s.setup.geometry s, if_pos hwaits, ?_⟩
  simp [FreedFrom]

theorem enterRoll_waits (hjob : s.raster.job = some j) (hlo : j.lo < 500 * chanCount s.setup.enabled * 2) (hhi : 0 < j.hi)
    (hne : j.lo < j.hi) : ∃ w, enterRoll s = enterHeld w ∧ FreedFrom s w := by
  obtain ⟨v, hv⟩ : ∃ v : State, v = { s with acq := { s.acq with fresh := s.acq.fresh + 1 } } := ⟨_, rfl⟩
  have hvjob : v.raster.job = some j := hv ▸ hjob
  have hwaits : armWaits 0 (s.setup.rollGeometry s.acq.fresh) (freeForArm 0 (s.setup.rollGeometry s.acq.fresh) v) = true :=
    armWaits_of_overlap (by simpa using hvjob) (by rw [Nat.zero_add, Nat.one_mul]; exact hlo) (by rwa [Nat.zero_mul]) hne
  rw [hv] at hwaits
  refine ⟨_, if_pos hwaits, ?_⟩
  simp [FreedFrom]

end

/-- R57, R58, R60: the index and the segment size that a start arms, and the run kind while it waits. -/
def StartPlace (s : State) (k size : Nat) (rk : RunKind) : Prop :=
  s.setup.runmode = .repeats ∧ s.setup.rollConditions = false ∧ k = bufferChoice s ∧ size = s.setup.geometry.size ∧
    rk = .repeats ∨
  s.setup.runmode = .repeats ∧ s.setup.rollConditions = true ∧ k = 0 ∧ size = 500 * chanCount s.setup.enabled * 2 ∧
    rk = .repeats ∨
  s.setup.runmode = .segmented ∧ k = 0 ∧ size = s.setup.geometry.size ∧ rk = .segmented

/-- R38, R47, R57, R59, R64: a start whose arm, or whose roll, would overlap the pinned region. -/
theorem launch_waits {s : State} {j : DrawJob} {k size : Nat} {rk : RunKind} (hjob : s.raster.job = some j)
    (hplace : StartPlace s k size rk) (hlo : j.lo < (k + 1) * size) (hhi : k * size < j.hi) (hne : j.lo < j.hi) :
    ∃ w, launch s = enterHeld w ∧ w.acq.runKind = rk ∧ w.acq.mem = s.acq.mem ∧ w.acq.prevLayout = s.acq.prevLayout ∧
      w.acq.lastTrig = s.acq.lastTrig ∧ w.raster = s.raster := by
  rcases hplace with ⟨hmode, hcond, rfl, rfl, rfl⟩ | ⟨hmode, hcond, rfl, rfl, rfl⟩ | ⟨hmode, rfl, rfl, rfl⟩
  · obtain ⟨w, hw, hmem, hlayout, htrig, hkind, hraster⟩ :=
      arm_waits (s := { s with acq := { s.acq with runKind := .repeats } }) (k := bufferChoice s) hjob hlo hhi hne
    refine ⟨w, ?_, hkind, hmem, hlayout, htrig, hraster⟩
    simp only [launch, hmode, armRepeatOrRoll, hcond, Bool.false_eq_true, if_false, ← hw]
    rfl
  · rw [Nat.zero_add, Nat.one_mul] at hlo
    rw [Nat.zero_mul] at hhi
    obtain ⟨w, hw, hmem, hlayout, htrig, hkind, hraster⟩ :=
      enterRoll_waits (s := { s with acq := { s.acq with runKind := .repeats } }) hjob hlo hhi hne
    refine ⟨w, ?_, hkind, hmem, hlayout, htrig, hraster⟩
    simp only [launch, hmode, armRepeatOrRoll, hcond, if_true, ← hw]
  · obtain ⟨u, hu⟩ : ∃ u, u = freeDone (fun _ _ => true) s := ⟨_, rfl⟩
    obtain ⟨w, hw, hmem, hlayout, htrig, hkind, hraster⟩ := arm_waits (k := 0)
      (s := { u with acq := { u.acq with runKind := .segmented, runIndex := 0, countDone := 0, lastDone := none } })
      (by simpa [hu] using hjob) (by simpa [hu] using hlo) (by simpa [hu] using hhi) hne
    refine ⟨w, ?_, hkind, hmem.trans ?_, hlayout.trans ?_, htrig.trans ?_, hraster.trans ?_⟩
    · simp only [launch, hmode, startSegmented, ← hu, ← hw]
    all_goals simp [hu]

/-! ## The records of a start that waits -/

theorem HeldForPin.records {freed : Nat → Prop} {s t : State} (h : HeldForPin freed s t)
    (hfreed : ∀ n, freed n → (segAt s n).state = .done ∧ ¬ PinnedRecord n s) (n : Nat) : segAt t n = segAt s n ∨
      (segAt s n).state = .done ∧ ¬ PinnedRecord n s ∧ segAt t n = ⟨.free, (segAt s n).serial, none⟩ := by
  obtain ⟨-, -, hrecords, -⟩ := h
  by_cases hn : freed n
  · exact .inr ⟨(hfreed n hn).1, (hfreed n hn).2, (hrecords n).1 hn⟩
  · exact .inl ((hrecords n).2 hn)

theorem launch_waits_records {s : State} {j : DrawJob} {k size : Nat} {rk : RunKind} (hjob : s.raster.job = some j)
    (hplace : StartPlace s k size rk) (hlo : j.lo < (k + 1) * size) (hhi : k * size < j.hi) (hne : j.lo < j.hi)
    (hsegs : SegTableOk s) (n : Nat) :
    segAt (launch s) n = segAt s n ∨
      (segAt s n).state = .done ∧ ¬ PinnedRecord n s ∧ segAt (launch s) n = ⟨.free, (segAt s n).serial, none⟩ := by
  have hmeets : MeetsPin k size s := .inr ⟨j, hjob, hlo, hhi, hne⟩
  have hroll : s.setup.rollConditions = true ↔ s.setup.roll = true ∧ s.setup.runmode = .repeats ∧ 21 ≤ s.setup.tbase := by
    simp [Setup.rollConditions, and_assoc]
  obtain ⟨hrepeats, hsegmented⟩ := launch_spec s hsegs
  rcases hplace with ⟨hmode, hcond, rfl, rfl, -⟩ | ⟨hmode, hcond, rfl, rfl, -⟩ | ⟨hmode, rfl, rfl, -⟩
  · obtain ⟨-, -, -, -, harm⟩ := hrepeats hmode
    obtain ⟨-, -, hheld⟩ := harm fun h => by rw [hroll.mpr h] at hcond; cases hcond
    exact (hheld hmeets).records (fun n hn => ⟨hn.1, hn.2.1⟩) n
  · obtain ⟨-, -, -, hrolls, -⟩ := hrepeats hmode
    obtain ⟨g, ⟨-, -, -, -, hsize, -⟩, -, hheld⟩ := hrolls (hroll.mp hcond)
    exact (hheld (hsize ▸ hmeets)).1.records (fun n hn => ⟨hn.1, hn.2.1⟩) n
  · obtain ⟨-, -, -, -, -, hheld⟩ := hsegmented hmode
    exact (hheld hmeets).records (fun n hn => hn) n

/-! ## The release -/

section
variable {s : State} (hreset : s.pins.resetLow = false)
include hreset

theorem exec_armAtRelease (hheld : s.acq.state = .held) (hjob : s.raster.job = none) : exec .armAtRelease s = .next (armHeld s) := by
  have hdue : releaseDue s = true := by simp [releaseDue, hheld, hjob]
  exact (live_high hreset).trans (congrArg _ (if_pos hdue))

theorem exec_armAtRelease_pinned {j : DrawJob} (hjob : s.raster.job = some j) : exec .armAtRelease s = .next s := by
  have hdue : releaseDue s = false := by simp [releaseDue, hjob]
  exact (live_high hreset).trans (congrArg _ (whenDue_of_not hdue))

end

/-- R47, R48: an arm that does not wait, over the state that the freeing has left. -/
theorem arm_armed_freed {k : Nat} {s : State}
    (h : armWaits k s.setup.geometry (freeForArm k s.setup.geometry s) = false) :
    Armed (fun _ => False) k s.setup.geometry (freeForArm k s.setup.geometry s) (arm k s) := by
  simp only [arm, h, Bool.false_eq_true, if_false]
  exact beginCapture_armed _ k _ _ (freeForArm k s.setup.geometry s).acq.segs (fun j => ⟨False.elim, fun _ => rfl⟩) rfl

theorem armWaits_no_job {k : Nat} {g : Geometry} {s : State} (hjob : s.raster.job = none) : armWaits k g s = false := by
  simp [armWaits, pinMeets, pinRegion, pinnedSeg, hjob]

/-- R38: an arm at a release that takes place and does not roll changes neither RASTER nor LINK. -/
theorem armHeld_raster_link {s : State} (hheld : (armHeld s).acq.state ≠ .held) (hroll : (armHeld s).acq.state ≠ .rolling) :
    (armHeld s).raster = s.raster ∧ (armHeld s).link = s.link := by
  have hrepeats : (armRepeatOrRoll s).acq.state ≠ .held → (armRepeatOrRoll s).acq.state ≠ .rolling →
      (armRepeatOrRoll s).raster = s.raster ∧ (armRepeatOrRoll s).link = s.link := by
    simp only [armRepeatOrRoll]
    split
    · exact fun h1 h2 => ((enterRoll_state _).elim h1 h2).elim
    · exact fun h1 _ => ⟨by simp, arm_link_of_ne_held h1⟩
  unfold armHeld at *
  cases hkind : s.acq.runKind with
  | segmented =>
    simp only [hkind] at *
    exact ⟨by simp, arm_link_of_ne_held hheld⟩
  | idle | repeats | roll =>
    simp only [hkind] at *
    exact hrepeats hheld hroll

/-- R38: with no job the arm at a release takes place. -/
theorem armHeld_not_held {s : State} (hsegs : SegTableOk s) (hjob : s.raster.job = none) : (armHeld s).acq.state ≠ .held := by
  obtain ⟨hsegmented, hrepeats⟩ := armHeld_spec s hsegs
  have hno : ∀ k n, ¬ MeetsPin k n s := fun k n => not_meetsPin_of_no_job hjob
  by_cases hkind : s.acq.runKind = .segmented
  · exact ((hsegmented hkind).1.1 (hno _ _)).not_held
  · obtain ⟨-, -, -, hrolls, harm⟩ := hrepeats hkind
    by_cases hcond : s.setup.roll = true ∧ s.setup.runmode = .repeats ∧ 21 ≤ s.setup.tbase
    · obtain ⟨g, -, hentered, -⟩ := hrolls hcond
      simp [(hentered (hno _ _)).1]
    · exact ((harm hcond).2.1 (hno _ _)).not_held

end Sys2Proof.Machine
end

section
/-! SUPPORT. The next arm of a run that goes on after a capture end (O26). -/

namespace Sys2Proof.Machine

/-- R50, R51, R104: the state in which the next arm takes place, but for MON and LINK: the segment worked is DONE with a serial, the
run index of a SEGMENTED run has risen, and the draw list is the one given. -/
def afterCapture (ser : Serial) (i : SegInfo) (rej : Bool) (list : List DrawEntry) (s : State) : State := { s with
  acq := { s.acq with
    serialCounter := ser, countDone := s.acq.countDone + 1, lastDone := some (s.acq.cur, ser)
    runIndex := if s.acq.runKind = .segmented then s.acq.runIndex + 1 else s.acq.runIndex
    segs := tabSet (.free 0) s.acq.segs s.acq.cur ⟨.done, ser, some { i with
      flags := flagSetsAt s i, meas := some (measAt s i.geo), outcome := some (if rej then .rejected else .pass) }⟩ }
  raster := { s.raster with list := list } }

/-- What an arm reads of the state it is made in. -/
def SameForArm (s u : State) : Prop := u.acq = s.acq ∧ u.raster = s.raster ∧ u.setup = s.setup ∧ u.gen = s.gen

theorem ArmedOrHeld.congr {k : Nat} {s u t : State} (h : ArmedOrHeld k u t) (hsame : SameForArm s u) : ArmedOrHeld k s t := by
  obtain ⟨hacq, hraster, hsetup, hgen⟩ := hsame
  cases u
  cases s
  simp only at hacq hraster hsetup hgen
  subst hacq hraster hsetup hgen
  exact h

theorem bufferChoice_congr {s u : State} (hsame : SameForArm s u) : bufferChoice u = bufferChoice s := by
  obtain ⟨hacq, hraster, -⟩ := hsame
  cases u
  cases s
  simp only at hacq hraster
  subst hacq hraster
  rfl

section
variable {s : State} {i : SegInfo} {rej : Bool} {o : SegOutcome}

theorem captureEnd_finishes (hi : (curSeg s).info = some i) (hrej : rej = rejectedBy s i.geo (flagSetsAt s i))
    (hlast : rej = true → s.setup.recapture ≤ i.attempts) : captureEnd s =
      finishSegment s.acq.cur i (flagSetsAt s i) (measAt s i.geo) (if rej then .rejected else .pass)
        (monCaptureEnd (resultsAt s i.geo) s) := by
  have hno : ¬ (rej && decide (i.attempts < s.setup.recapture)) = true := by
    rw [Bool.and_eq_true, decide_eq_true_iff]
    rintro ⟨hr, hlt⟩
    exact absurd (hlast hr) (Nat.not_le.mpr hlt)
  simp only [captureEnd, hi, ← hrej]
  exact if_neg hno

/-- R50, R81: the state once the segment worked is DONE and MON has followed. -/
def madeDone (s : State) (i : SegInfo) (o : SegOutcome) : State := segRejectFollow o (makeDone s.acq.cur
  { i with flags := flagSetsAt s i, meas := some (measAt s i.geo), outcome := some o } (monCaptureEnd (resultsAt s i.geo) s))

theorem madeDone_acq : (madeDone s i o).acq = { s.acq with
    serialCounter := nextSerial s.acq.serialCounter, countDone := s.acq.countDone + 1
    lastDone := some (s.acq.cur, nextSerial s.acq.serialCounter)
    segs := tabSet (.free 0) s.acq.segs s.acq.cur ⟨.done, nextSerial s.acq.serialCounter, some { i with
      flags := flagSetsAt s i, meas := some (measAt s i.geo), outcome := some o }⟩ } := by
  have hmon : (monCaptureEnd (resultsAt s i.geo) s).acq = s.acq := by simp
  rw [madeDone, (segRejectFollow_frame _ _).2.2.1]
  simp only [makeDone, setSeg, hmon]

theorem madeDone_others : (madeDone s i o).raster = s.raster ∧ (madeDone s i o).setup = s.setup ∧ (madeDone s i o).gen = s.gen ∧
    (madeDone s i o).power = s.power := by
  simp [madeDone]

theorem segAt_madeDone : (segAt (madeDone s i o) s.acq.cur).serial = nextSerial s.acq.serialCounter := by
  rw [segAt, madeDone_acq, tabGet_tabSet_same]

/-- R51: the run goes on after a segment. -/
theorem runEnds_not {u : State} {k : Nat} {g : Geometry} (hreject : o = .rejected → u.setup.stoprej = false)
    (hgoes : u.acq.runKind = .segmented ∧ k + 1 < g.nEff ∨ u.acq.runKind = .repeats ∧ u.acq.single = false) :
    runEnds u k g o = false := by
  have hno : (decide (o = .rejected) && u.setup.stoprej) = false := by
    rw [Bool.and_eq_false_imp]
    exact fun h => hreject (of_decide_eq_true h)
  rcases hgoes with ⟨hkind, hlt⟩ | ⟨hkind, hsingle⟩
  · simp only [runEnds, hkind, hno, Bool.or_false]
    exact decide_eq_false (Nat.not_le.mpr hlt)
  · simp only [runEnds, hkind, hno, hsingle, Bool.or_false]

theorem nextArm_segmented {u : State} (h : u.acq.runKind = .segmented) :
    nextArm u = arm (u.acq.runIndex + 1) { u with acq := { u.acq with runIndex := u.acq.runIndex + 1 } } := by
  unfold nextArm
  rw [h]

theorem nextArm_repeats {u : State} (h : u.acq.runKind = .repeats) : nextArm u = arm (bufferChoice u) u := by
  simp only [nextArm, h, armRepeat]

/-- R104: the list with an automatic entry, in the words of the draw list's rule. -/
theorem listWithAuto_eq (e : DrawEntry) (l : List DrawEntry) : listWithAuto e l =
    if ∃ x ∈ l, x.automatic = true then l.map (fun x => if x.automatic then e else x)
    else if l.length < 8 then l ++ [e] else l := by
  simp only [listWithAuto, List.any_eq_true]

/-- R51, R104: the draw list once a capture of a REPEAT run is DONE. -/
theorem drawn_raster {u : State} {k : Nat} {ser : Serial} {g : Geometry} {entry : DrawEntry}
    (hentry : entry = ⟨k, ser, g.enabled, decide (u.setup.persist = .off), true⟩) :
    (if g.enabled.nonempty then enterAutomatic k ser g.enabled u else u).raster = { u.raster with
      list := if g.enabled.nonempty = false ∨ u.power.state = .standby then u.raster.list
      else if ∃ e ∈ u.raster.list, e.automatic = true then u.raster.list.map (fun e => if e.automatic then entry else e)
      else if u.raster.list.length < 8 then u.raster.list ++ [entry] else u.raster.list } := by
  subst hentry
  cases g.enabled.nonempty with
  | false => simp
  | true =>
    by_cases hstandby : u.power.state = .standby
    · simp [enterAutomatic, hstandby]
    · simp only [enterAutomatic, hstandby, if_true, if_false, Bool.true_eq_false, or_self, listWithAuto_eq]

/-- R51: the index of the next arm, and the draw list it finds. -/
def NextPlace (s : State) (i : SegInfo) (ser : Serial) (rej : Bool) (k : Nat) (list : List DrawEntry) (entry : DrawEntry) : Prop :=
  s.acq.runKind = .segmented ∧ s.acq.cur + 1 < i.geo.nEff ∧ list = s.raster.list ∧ k = s.acq.runIndex + 1 ∨
  s.acq.runKind = .repeats ∧ s.acq.single = false ∧ k = bufferChoice (afterCapture ser i rej list s) ∧ list =
    (if i.geo.enabled.nonempty = false ∨ s.power.state = .standby then s.raster.list
    else if ∃ e ∈ s.raster.list, e.automatic = true then s.raster.list.map (fun e => if e.automatic then entry else e)
    else if s.raster.list.length < 8 then s.raster.list ++ [entry] else s.raster.list)

/-- R50, R51: a capture end after which the run goes on is the next arm. -/
theorem captureEnd_next {ser : Serial} {k : Nat} {list : List DrawEntry} {entry : DrawEntry}
    (hi : (curSeg s).info = some i) (hrej : rej = rejectedBy s i.geo (flagSetsAt s i))
    (hgoes : rej = true → s.setup.recapture ≤ i.attempts ∧ s.setup.stoprej = false)
    (hser : ser = nextSerial s.acq.serialCounter)
    (hentry : entry = ⟨s.acq.cur, ser, i.geo.enabled, decide (s.setup.persist = .off), true⟩)
    (hplace : NextPlace s i ser rej k list entry) :
    ∃ u, captureEnd s = arm k u ∧ SameForArm (afterCapture ser i rej list s) u ∧ ∃ e ∈ u.link.notes, e.src = .acq := by
  obtain ⟨d, hd⟩ : ∃ d, d = madeDone s i (if rej then .rejected else .pass) := ⟨_, rfl⟩
  have hacq : d.acq = _ := hd ▸ madeDone_acq
  obtain ⟨hraster, hsetup, hgen, hpower⟩ := hd ▸ madeDone_others (s := s) (i := i) (o := if rej then .rejected else .pass)
  have hserial : (segAt d s.acq.cur).serial = ser := hser ▸ hd ▸ segAt_madeDone
  have hends : runEnds d s.acq.cur i.geo (if rej then .rejected else .pass) = false := by
    refine runEnds_not (fun ho => ?_) ?_
    · rw [hsetup]
      refine (hgoes ?_).2
      by_contra hr
      simp [hr] at ho
    · rw [hacq]
      exact hplace.imp (fun h => ⟨h.1, h.2.1⟩) fun h => ⟨h.1, h.2.1⟩
  rw [captureEnd_finishes hi hrej fun h => (hgoes h).1]
  have hafter : finishSegment s.acq.cur i (flagSetsAt s i) (measAt s i.geo) (if rej then .rejected else .pass)
      (monCaptureEnd (resultsAt s i.geo) s) = afterDone s.acq.cur i.geo (if rej then .rejected else .pass) d := hd ▸ rfl
  rw [hafter]
  simp only [afterDone, hends, Bool.or_false, Bool.false_eq_true, if_false]
  rcases hplace with ⟨hkind, -, rfl, rfl⟩ | ⟨hkind, -, hk, hlist⟩
  · have hdkind : d.acq.runKind = .segmented := by rw [hacq]; exact hkind
    simp only [hdkind, ne_eq, not_true_eq_false, decide_false, Bool.false_and, Bool.false_eq_true, if_false]
    refine ⟨{ enterNote .acq d with acq := { d.acq with runIndex := d.acq.runIndex + 1 } }, ?_, ⟨?_, hraster, hsetup, hgen⟩,
      mem_enterNote _ _⟩
    · have hindex : d.acq.runIndex = s.acq.runIndex := by rw [hacq]
      rw [nextArm_segmented (u := enterNote .acq d) hdkind, ← hindex]
      rfl
    · rw [afterCapture, hacq, hser, if_pos hkind]
  · have hdkind : d.acq.runKind = .repeats := by rw [hacq]; exact hkind
    have hdraws : decide (d.acq.runKind ≠ .segmented) = true := by simp [hdkind]
    rw [hdraws, Bool.true_and, hserial]
    obtain ⟨e, he⟩ : ∃ e, e = if i.geo.enabled.nonempty then enterAutomatic s.acq.cur ser i.geo.enabled d else d := ⟨_, rfl⟩
    have hkeeps : e.acq = d.acq ∧ e.setup = d.setup ∧ e.gen = d.gen := by
      rw [he]
      split <;> simp
    obtain ⟨heacq, hesetup, hegen⟩ := hkeeps
    have heraster : e.raster = { s.raster with list := list } := by
      rw [he, drawn_raster (entry := entry) (by rw [hentry, hsetup]), hlist, hraster, hpower]
    have hsame : SameForArm (afterCapture ser i rej list s) (enterNote .acq e) := by
      refine ⟨?_, heraster, hesetup.trans hsetup, hegen.trans hgen⟩
      change e.acq = _
      have hindex : (if s.acq.runKind = .segmented then s.acq.runIndex + 1 else s.acq.runIndex) = s.acq.runIndex :=
        if_neg (by simp [hkind])
      rw [heacq, hacq, afterCapture, hser, hindex]
    refine ⟨enterNote .acq e, ?_, hsame, mem_enterNote _ _⟩
    have hekind : (enterNote .acq e).acq.runKind = .repeats := by
      change e.acq.runKind = _
      rw [heacq, hdkind]
    rw [← he, nextArm_repeats hekind, bufferChoice_congr hsame, hk]

end

section
variable {s : State} {i : SegInfo} {rej : Bool} {ser : Serial} {k : Nat} {list : List DrawEntry} {entry : DrawEntry}

/-- R50: the row CAPTURE_END once position L - 1 has been written. -/
theorem exec_captureEnd (hreset : s.pins.resetLow = false) (hstate : s.acq.state = .capturing)
    (hi : (curSeg s).info = some i) (hlen : i.geo.len ≤ i.geo.pre + s.acq.postCount) :
    exec .captureEnd s = .next (captureEnd s) := by
  have hdue : endDue s = true := by
    simp only [endDue, hi, hstate, decide_true, Bool.true_and]
    exact decide_eq_true hlen
  exact (live_high hreset).trans (congrArg _ (if_pos hdue))

theorem afterCapture_segs : (afterCapture ser i rej list s).acq.segs =
    tabSet (.free 0) s.acq.segs s.acq.cur ⟨.done, ser, some { i with
      flags := flagSetsAt s i, meas := some (measAt s i.geo), outcome := some (if rej then .rejected else .pass) }⟩ := rfl

/-- The records once the segment worked is DONE. -/
theorem segAt_afterCapture : segAt (afterCapture ser i rej list s) s.acq.cur = ⟨.done, ser, some { i with
      flags := flagSetsAt s i, meas := some (measAt s i.geo), outcome := some (if rej then .rejected else .pass) }⟩ ∧
    ∀ n, n ≠ s.acq.cur → segAt (afterCapture ser i rej list s) n = segAt s n :=
  ⟨by rw [segAt, afterCapture_segs, tabGet_tabSet_same],
    fun n hn => by rw [segAt, afterCapture_segs, tabGet_tabSet_other _ _ _ _ _ hn, segAt]⟩

/-- R50, R51: what a capture end leaves, after which the run goes on. -/
theorem captureEnd_goesOn (hi : (curSeg s).info = some i) (hsegs : SegTableOk s)
    (hrej : rej = rejectedBy s i.geo (flagSetsAt s i))
    (hgoes : rej = true → s.setup.recapture ≤ i.attempts ∧ s.setup.stoprej = false)
    (hser : ser = nextSerial s.acq.serialCounter)
    (hentry : entry = ⟨s.acq.cur, ser, i.geo.enabled, decide (s.setup.persist = .off), true⟩)
    (hplace : NextPlace s i ser rej k list entry) : ∀ v, v = afterCapture ser i rej list s →
    ArmedOrHeld k v (captureEnd s) ∧ (captureEnd s).acq.runKind = v.acq.runKind ∧
    (captureEnd s).acq.runIndex = v.acq.runIndex ∧ (captureEnd s).acq.countDone = v.acq.countDone ∧
    (captureEnd s).acq.lastDone = v.acq.lastDone ∧ (captureEnd s).raster = v.raster ∧
    ∃ e ∈ (captureEnd s).link.notes, e.src = .acq := by
  rintro v rfl
  obtain ⟨u, hu, hsame, hnote⟩ := captureEnd_next hi hrej hgoes hser hentry hplace
  obtain ⟨hacq, hraster, -⟩ := id hsame
  have husegs : SegTableOk u := by
    rw [SegTableOk, hacq, afterCapture_segs]
    exact tabRising_tabSet _ _ _ _ hsegs
  rw [hu]
  refine ⟨(arm_spec k u husegs).congr hsame, by simp [hacq], by rw [arm_run, hacq], by simp [hacq], by simp [hacq],
    by simp [hraster], ?_⟩
  rcases arm_notes k u with hnotes | hnotes
  · rwa [hnotes]
  · rw [hnotes]
    exact noteEnter_mem _ _ _ hnote

end

/-- R37: under the layout of the previous arm only a record of the index armed is in the way of segments of one size. -/
theorem not_freedByArm {k n : Nat} {g : Geometry} {v : State} (hlayout : v.acq.prevLayout = some g.layout)
    (hsize : ∀ i, (segAt v n).info = some i → i.geo.size = g.size) (hn : n ≠ k) : ¬ FreedByArm k g v n := by
  rintro ⟨-, -, ⟨l, hl, hdiffers⟩ | ⟨i, hi, hlo, hhi⟩⟩
  · exact hdiffers (Option.some.inj (hl.symm.trans hlayout))
  · rw [hsize i hi] at hlo hhi
    have h1 := Nat.lt_of_mul_lt_mul_right hlo
    have h2 := Nat.lt_of_mul_lt_mul_right hhi
    omega

/-- R47: the fields that an arm with P above 0 sets. -/
theorem Armed.of_pre {freed : Nat → Prop} {k : Nat} {g : Geometry} {s t : State} (h : Armed freed k g s t)
    (hpre : 0 < g.pre) : t.acq.state = .arming ∧ segAt t k = ⟨.prefill, 0, some (freshInfo g s)⟩ ∧
    t.acq.lastTrig = s.acq.lastTrig := by
  obtain ⟨forced, hiff, hstate, -, hseg, -, -, -, -, -, -, -, htrig, -⟩ := h
  have hne : g.pre ≠ 0 := Nat.ne_of_gt hpre
  obtain rfl : forced = false := by
    cases forced with
    | false => rfl
    | true => exact absurd (hiff.mp rfl).1 hne
  exact ⟨hstate.trans (if_neg hne), hseg.trans (by simp [hne, freshInfo]), htrig⟩

/-- R58, R104: an automatic entry that stands in the list once one has arrived is that one. -/
theorem find_automatic {l : List DrawEntry} {entry e : DrawEntry}
    (h : (if ∃ x ∈ l, x.automatic = true then l.map (fun x => if x.automatic then entry else x)
      else if l.length < 8 then l ++ [entry] else l).find? (fun x => x.automatic) = some e) : e = entry := by
  have hmem := List.mem_of_find?_eq_some h
  have he : e.automatic = true := List.find?_some h
  by_cases hany : ∃ x ∈ l, x.automatic = true
  · rw [if_pos hany] at hmem
    obtain ⟨x, -, hx⟩ := List.mem_map.mp hmem
    by_cases hxa : x.automatic = true
    · exact hx.symm.trans (if_pos hxa)
    · rw [if_neg hxa] at hx
      exact absurd (hx ▸ he) hxa
  · rw [if_neg hany] at hmem
    split at hmem
    · rcases List.mem_append.mp hmem with hl | hl
      · exact absurd ⟨e, hl, he⟩ hany
      · exact List.mem_singleton.mp hl
    · exact absurd ⟨e, hmem, he⟩ hany

/-- R58: with no pin, the buffer armed after the DONE of a REPEAT run is the other one. -/
theorem bufferChoice_other {v : State} {cur : Nat} {ser : Serial} {l : List DrawEntry} {entry : DrawEntry}
    (hjob : v.raster.job = none) (hlast : v.acq.lastDone = some (cur, ser)) (hcur : cur ≤ 1) (hentry : entry.seg = cur)
    (hlist : v.raster.list = if ∃ x ∈ l, x.automatic = true then l.map (fun x => if x.automatic then entry else x)
      else if l.length < 8 then l ++ [entry] else l) : bufferChoice v = 1 - cur := by
  have hpref : preferredBuffer v = 1 - cur := by
    rw [preferredBuffer, hlast]
    rcases Nat.le_one_iff_eq_zero_or_eq_one.mp hcur with rfl | rfl <;> rfl
  have hpinned : pinnedSeg v (1 - cur) = false := by simp [pinnedSeg, hjob]
  have hpending : pendingSeg v (1 - cur) = false := by
    rw [pendingSeg, autoEntry, hlist]
    split
    next e he =>
      have hne : e.seg ≠ 1 - cur := by
        rw [find_automatic he, hentry]
        omega
      rw [decide_eq_false hne, Bool.false_and]
    next => rfl
  rw [bufferChoice_eq, hpref, if_pos ⟨hpinned, hpending⟩]

theorem armHeld_repeats {s : State} (hkind : s.acq.runKind = .repeats) (hcond : s.setup.rollConditions = false) :
    armHeld s = arm (bufferChoice s) s := by
  have hsame : { s with acq := { s.acq with runKind := .repeats } } = s := by rw [← hkind]
  simp only [armHeld, hkind, armRepeatOrRoll, hsame, hcond, Bool.false_eq_true, if_false, armRepeat]

section
variable {s : State} {i : SegInfo} {rej : Bool} {ser : Serial} {k : Nat} {list : List DrawEntry} {entry : DrawEntry}
  (hi : (curSeg s).info = some i) (hsegs : SegTableOk s) (hrej : rej = rejectedBy s i.geo (flagSetsAt s i))
  (hgoes : rej = true → s.setup.recapture ≤ i.attempts ∧ s.setup.stoprej = false)
  (hser : ser = nextSerial s.acq.serialCounter)
  (hentry : entry = ⟨s.acq.cur, ser, i.geo.enabled, decide (s.setup.persist = .off), true⟩)
  (hplace : NextPlace s i ser rej k list entry) (hjob : s.raster.job = none)
  (hlayout : s.acq.prevLayout = some s.setup.geometry.layout) (hpre : 0 < s.setup.geometry.pre)
  (hsizes : ∀ n j, (segAt s n).info = some j → j.geo.size = s.setup.geometry.size) (hk : k ≠ s.acq.cur)
include hi hsegs hrej hgoes hser hentry hplace hjob hlayout hpre hsizes hk

/-- R50, R51: the next arm after a capture end, of the layout of the one before, with P above 0 and no pin. -/
theorem captureEnd_arms : segAt (captureEnd s) s.acq.cur = ⟨.done, ser, some { i with
      flags := flagSetsAt s i, meas := some (measAt s i.geo), outcome := some (if rej then .rejected else .pass) }⟩ ∧
    segAt (captureEnd s) k = ⟨.prefill, 0, some (freshInfo s.setup.geometry s)⟩ ∧
    (∀ n, n ≠ s.acq.cur → n ≠ k → segAt (captureEnd s) n = segAt s n) ∧
    (captureEnd s).acq.state = .arming ∧ (captureEnd s).acq.cur = k ∧ (captureEnd s).acq.lastTrig = s.acq.lastTrig ∧
    (captureEnd s).acq.mem = s.acq.mem ∧ (captureEnd s).acq.points = [] ∧ (captureEnd s).acq.single = s.acq.single := by
  obtain ⟨hdone, hkept⟩ := segAt_afterCapture (s := s) (i := i) (rej := rej) (ser := ser) (list := list)
  obtain ⟨⟨harm, -⟩, -⟩ := captureEnd_goesOn hi hsegs hrej hgoes hser hentry hplace _ rfl
  have hsizes' : ∀ n j, (segAt (afterCapture ser i rej list s) n).info = some j → j.geo.size = s.setup.geometry.size := by
    intro n j hj
    by_cases hn : n = s.acq.cur
    · rw [hn, hdone] at hj
      obtain rfl := Option.some.inj hj
      exact hsizes _ i hi
    · rw [hkept n hn] at hj
      exact hsizes n j hj
  have harmed := harm (not_meetsPin_of_no_job (s := afterCapture ser i rej list s) hjob)
  obtain ⟨hstate, hseg, htrig⟩ := harmed.of_pre hpre
  obtain ⟨-, -, -, hcur, -, hothers, -, -, hpoints, -, -, -, -, -, -, -, hmem, hsingle, -⟩ := harmed
  have hother : ∀ n, n ≠ k → segAt (captureEnd s) n = segAt (afterCapture ser i rej list s) n := fun n hn =>
    (hothers n hn).2 (not_freedByArm (v := afterCapture ser i rej list s) hlayout (hsizes' n) hn)
  exact ⟨(hother _ hk.symm).trans hdone, hseg, fun n hn hnk => (hother n hnk).trans (hkept n hn), hstate, hcur, htrig, hmem,
    hpoints, hsingle⟩

end

/-- Settles O26: the buffer choice, the start that waits and its release, and the next arm after a capture end. -/
theorem heldArmTakesItsBuffer : Obligations.HeldArmTakesItsBuffer := by
  refine ⟨fun s => ?_, ⟨fun c kind tag single s j k size rk hc h hpower hstopped hjob hplace hlo hhi hne => ?_,
    fun s j hreset _ hjob => exec_armAtRelease_pinned hreset hjob⟩,
    fun s hreset hheld hjob hkind hcond hforce => ?_, fun s hreset hheld hjob hsegs => ?_,
    fun s i rej hreset hstate hi hlen hkind hindex hmore hrej hgoes hsegs hjob hlayout hsizes hpre => ?_,
    fun s i rej hreset hstate hi hlen hkind hsingle hcur hrej hgoes hsegs hjob hpower hon hlayout hsizes hpre => ?_,
    fun s v i rej ser k list entry hreset hstate hi hlen hsegs hrej hgoes hser hentry hv hplace => ?_⟩
  · refine ⟨preferredBuffer s, rfl, fun h1 h2 => ?_, fun h1 h2 h3 => ?_, fun h1 h2 h3 => ?_, fun h1 h2 => ?_⟩ <;>
      rw [bufferChoice_eq]
    · rw [if_pos ⟨h1, h2⟩]
    · rw [if_neg (by rintro ⟨hp, hq⟩; simp [hp, hq] at h1), if_pos ⟨h2, h3⟩]
    · rw [if_neg (by simp [h1]), if_neg (by simp [h3]), if_neg (by simp [h2])]
    · rw [if_neg (by simp [h1]), if_pos h1, ite_self]
  · have hplace' : StartPlace (startPoint single s) k size rk := hplace
    have hjob' : (startPoint single s).raster.job = some j := hjob
    obtain ⟨w, hw, hkind, hmem, hlayout, htrig, hraster⟩ := launch_waits hjob' hplace' hlo hhi hne
    obtain ⟨hsingle, hserial, -, -, hsetup, hgen, hmon, hpanel, hstore, hpow, hinbound, hanswers⟩ :=
      start_frame kind tag single s _ rfl
    obtain ⟨hcount, hlast⟩ := launch_counts (s := startPoint single s) rfl rfl
    have hrecords := launch_waits_records hjob' hplace' hlo hhi hne
    have hnote : ∃ e ∈ (launch (startPoint single s)).link.notes, e.src = .acq := by
      rw [hw]
      exact mem_enterNote _ _
    have hpinned : SegTableOk s → (segAt s j.seg).state = .done → (segAt s j.seg).serial = j.serial →
        segAt (launch (startPoint single s)) j.seg = segAt s j.seg := fun hsegs hdone hser =>
      (hrecords hsegs j.seg).resolve_right fun ⟨_, hno, _⟩ => hno ⟨j, hjob, rfl, hdone, hser⟩
    refine ⟨_, exec_start hc h hpower hstopped, ?_, ?_, ?_, hsingle, ?_, hcount, hlast, hnote,
      fun n hsegs => (hrecords hsegs n).imp_right fun ⟨hdone, _, hfree⟩ => ⟨hdone, hfree⟩, hpinned, ?_, hserial, ?_, ?_, hsetup,
      hgen, hmon, hpanel, hstore, hpow, hinbound, hanswers⟩ <;> rw [hw]
    · rfl
    · rfl
    · exact hkind
    · exact htrig
    · exact hmem
    · exact hlayout
    · exact hraster
  · have harmed := arm_armed_freed (k := bufferChoice s) (armWaits_no_job (s := freeForArm _ _ s) (by simpa using hjob))
    obtain ⟨hstate, hseg, htrig⟩ := harmed.of_not_forced (s := freeForArm _ _ s) hforce
    have hlink := arm_link_of_ne_held harmed.not_held
    obtain ⟨-, -, -, hcur, -⟩ := harmed
    refine ⟨_, exec_armAtRelease hreset hheld hjob, ?_⟩
    rw [armHeld_repeats hkind hcond]
    exact ⟨hstate, hcur, hseg, by simpa using hkind, by simp, htrig, by simp, by simp, by simp, by simp, by simp, by simp,
      by simp, by simp, hlink⟩
  · obtain ⟨hsegmented, hrepeats⟩ := armHeld_spec s hsegs
    have hno : ∀ k n, ¬ MeetsPin k n s := fun k n => not_meetsPin_of_no_job hjob
    have hindex : (armHeld s).acq.runIndex = s.acq.runIndex := by
      by_cases hkind : s.acq.runKind = .segmented
      · exact (hsegmented hkind).2.2.1
      · exact (hrepeats hkind).2.2.1
    refine ⟨_, exec_armAtRelease hreset hheld hjob, by simp, by simp, hindex, by simp,
      fun hkind => ⟨(hsegmented hkind).2.1, (hsegmented hkind).1.1 (hno _ _)⟩, fun hkind hcond => ?_, fun hkind hcond => ?_,
      fun hroll => armHeld_raster_link (armHeld_not_held hsegs hjob) hroll, by simp, by simp, by simp, by simp, by simp,
      by simp, by simp, by simp⟩
    · obtain ⟨-, -, -, -, harm⟩ := hrepeats (by simp [hkind])
      exact ⟨(harm hcond).1, (harm hcond).2.1 (hno _ _)⟩
    · obtain ⟨-, -, -, hrolls, -⟩ := hrepeats (by simp [hkind])
      obtain ⟨g, hg, hentered, -⟩ := hrolls hcond
      exact ⟨g, hg, hentered (hno _ _)⟩
  · have hplace : NextPlace s i (nextSerial s.acq.serialCounter) rej (s.acq.runIndex + 1) s.raster.list
        ⟨s.acq.cur, nextSerial s.acq.serialCounter, i.geo.enabled, decide (s.setup.persist = .off), true⟩ :=
      .inl ⟨hkind, hmore, rfl, rfl⟩
    obtain ⟨-, hkind', hindex', hcount, hlast, hraster, hnote⟩ :=
      captureEnd_goesOn hi hsegs hrej hgoes rfl rfl hplace _ rfl
    obtain ⟨hdone, hseg, hothers, hstate', hcur, htrig, hmem, -, hsingle⟩ := captureEnd_arms hi hsegs hrej hgoes rfl rfl
      hplace hjob hlayout hpre (fun n j hj => (hsizes n _ j rfl hj).2) (by omega)
    rw [hindex] at hseg hothers hcur
    exact ⟨_, _, exec_captureEnd hreset hstate hi hlen, nextSerial_eq _, hdone, hseg, hothers, hstate', hcur,
      hindex'.trans ((if_pos hkind).trans (by rw [hindex])), hkind'.trans hkind, hsingle, hcount, hlast, htrig, hmem, hraster,
      hnote, by simp, by simp, by simp, by simp, by simp⟩
  · obtain ⟨entry, hentry⟩ : ∃ entry : DrawEntry, entry = ⟨s.acq.cur, nextSerial s.acq.serialCounter, i.geo.enabled,
      decide (s.setup.persist = .off), true⟩ := ⟨_, rfl⟩
    obtain ⟨list, hlist⟩ : ∃ list, list =
      if ∃ e ∈ s.raster.list, e.automatic = true then s.raster.list.map (fun e => if e.automatic then entry else e)
      else if s.raster.list.length < 8 then s.raster.list ++ [entry] else s.raster.list := ⟨_, rfl⟩
    have hchoice : bufferChoice (afterCapture (nextSerial s.acq.serialCounter) i rej list s) = 1 - s.acq.cur :=
      bufferChoice_other (cur := s.acq.cur) (ser := nextSerial s.acq.serialCounter) hjob rfl hcur (by rw [hentry]) hlist
    have hplace : NextPlace s i (nextSerial s.acq.serialCounter) rej (1 - s.acq.cur) list entry :=
      .inr ⟨hkind, hsingle, hchoice.symm, hlist.trans (if_neg (by simp [hon, hpower])).symm⟩
    obtain ⟨-, hkind', -, hcount, hlast, hraster, hnote⟩ := captureEnd_goesOn hi hsegs hrej hgoes rfl hentry hplace _ rfl
    obtain ⟨hdone, hseg, hothers, hstate', hcur', htrig, hmem, hpoints, hsingle'⟩ := captureEnd_arms hi hsegs hrej hgoes rfl
      hentry hplace hjob hlayout hpre (fun n j hj => (hsizes n _ j rfl hj).2) (by omega)
    refine ⟨_, _, entry, exec_captureEnd hreset hstate hi hlen, nextSerial_eq _, hdone, hseg,
      fun n hn => hothers n (by omega) (by omega), hstate', hcur', hkind'.trans hkind, hsingle'.trans hsingle, hcount, hlast,
      htrig, hmem, hpoints, hentry, ?_, hnote, by simp, by simp, by simp, by simp, by simp⟩
    rw [hraster, afterCapture, hlist]
  · subst hv
    obtain ⟨harm, hkind, hindex, hcount, hlast, hraster, hnote⟩ := captureEnd_goesOn hi hsegs hrej hgoes
      (hser.trans (nextSerial_eq _).symm) hentry hplace _ rfl
    exact ⟨_, exec_captureEnd hreset hstate hi hlen, harm, hkind, hindex, hcount, hlast, hraster, hnote, by simp, by simp,
      by simp, by simp, by simp⟩

end Sys2Proof.Machine
end

section
/-! SUPPORT. A run that is on and a run that is over: what each operation of ACQ leaves of the run kind, the acquisition state and the
list of segment records (O56). -/

namespace Sys2Proof.Machine

/-! ## The list of segment records -/

theorem SegTableOk.of_segs {s t : State} (h : SegTableOk s) (he : t.acq.segs = s.acq.segs) : SegTableOk t := by
  rw [SegTableOk, he]
  exact h

theorem segTableOk_setSeg {s : State} (k : Nat) (r : SegRecord) (h : SegTableOk s) : SegTableOk (setSeg k r s) :=
  tabRising_tabSet _ _ _ _ h

theorem segTableOk_setAcqState {s : State} (a : AcqState) (h : SegTableOk s) : SegTableOk (setAcqState a s) :=
  h.of_segs (by simp)

theorem segTableOk_freeForArm {s : State} (k : Nat) (g : Geometry) (h : SegTableOk s) : SegTableOk (freeForArm k g s) :=
  segTableOk_freeDone _ s h

theorem segTableOk_markTrigger {s : State} (kind : TrigKind) (tag : Tick) (h : SegTableOk s) :
    SegTableOk (markTrigger kind tag s) := by
  simp only [markTrigger]
  split
  · exact segTableOk_setSeg _ _ h
  · exact h

theorem segTableOk_makeDone {s : State} (k : Nat) (i : SegInfo) (h : SegTableOk s) : SegTableOk (makeDone k i s) :=
  segTableOk_setSeg k _ (h.of_segs rfl)

theorem segTableOk_storePoint {s : State} (k q : Nat) (i : SegInfo) (h : SegTableOk s) : SegTableOk (storePoint k q i s) :=
  segTableOk_setSeg k { segAt s k with info := some { i with flags := markLane i.geo s.acq.iv i.flags } } h

theorem segTableOk_writePoint {s : State} (h : SegTableOk s) : SegTableOk (writePoint s) := by
  unfold writePoint
  split
  · exact h
  next i _ =>
    have hpoint := fun q => segTableOk_storePoint s.acq.cur q i h
    split
    · exact hpoint (i.geo.pre + s.acq.postCount)
    · split
      · exact h
      · exact hpoint (s.acq.preCount % i.geo.pre)
    · split
      · exact h
      · exact hpoint (s.acq.preCount % i.geo.pre)
    · exact h

theorem segTableOk_writeColumn {s : State} (h : SegTableOk s) : SegTableOk (writeColumn s) := by
  unfold writeColumn
  split
  · exact h
  next i _ => exact segTableOk_storePoint s.acq.cur (s.acq.rollCount % 500) i h

theorem segTableOk_writeInterval {s : State} (h : SegTableOk s) : SegTableOk (writeInterval s) := by
  unfold writeInterval
  split
  · exact segTableOk_writeColumn h
  · exact segTableOk_writePoint h

theorem segTableOk_abandon {s : State} (h : SegTableOk s) : SegTableOk (abandon s) := by
  have hfree : SegTableOk (setSeg s.acq.cur (.free 0) (discardPoints { s with acq := { s.acq with forcePending := false } })) :=
    segTableOk_setSeg _ _ h
  simp only [abandon]
  split
  · exact hfree
  · exact hfree

/-! ## A run is on, or over -/

/-- R46: a run is on: it has a kind, and ACQ is not STOPPED. -/
def RunOn (s : State) : Prop := s.acq.runKind ≠ .idle ∧ s.acq.state ≠ .stopped ∧ SegTableOk s

/-- R46: no run is on. -/
def RunOver (s : State) : Prop := s.acq.runKind = .idle ∧ s.acq.state = .stopped ∧ SegTableOk s

/-- R46: a run is on, or none is. -/
def RunForm (s : State) : Prop := RunOn s ∨ RunOver s

theorem runForm_iff (s : State) : RunForm s ↔ RunOk s ∧ SegTableOk s := by
  unfold RunForm RunOn RunOver RunOk
  by_cases hkind : s.acq.runKind = .idle <;> by_cases hstate : s.acq.state = .stopped <;> simp [hkind, hstate]

theorem RunOn.of_same {s t : State} (h : RunOn s) (hkind : t.acq.runKind = s.acq.runKind) (hstate : t.acq.state = s.acq.state)
    (hsegs : SegTableOk t) : RunOn t := ⟨hkind ▸ h.1, hstate ▸ h.2.1, hsegs⟩

theorem RunOn.of_acq {s t : State} (h : RunOn s) (ha : t.acq = s.acq) : RunOn t := by
  unfold RunOn SegTableOk
  rw [ha]
  exact h

theorem RunForm.of_acq {s t : State} (h : RunForm s) (ha : t.acq = s.acq) : RunForm t := by
  unfold RunForm RunOn RunOver SegTableOk
  rw [ha]
  exact h

/-! ## Arms -/

theorem runOn_enterCapturing {s : State} (hkind : s.acq.runKind ≠ .idle) (h : SegTableOk s) : RunOn (enterCapturing s) :=
  ⟨hkind, by simp [enterCapturing, setAcqState], segTableOk_setAcqState _ (segTableOk_setSeg _ _ h)⟩

/-- R48: a capture with P = 0 is READY at once, and FILLING where a force was pending. -/
theorem runOn_readyAtOnce {s : State} (tag : Tick) (h : RunOn s) : RunOn (readyAtOnce tag s) := by
  simp only [readyAtOnce]
  split
  · exact runOn_enterCapturing (by simpa using h.1) (segTableOk_markTrigger _ _ h.2.2)
  · exact h

theorem runOn_beginCapture {s : State} (k : Nat) (i : SegInfo) (hkind : s.acq.runKind ≠ .idle) (h : SegTableOk s) :
    RunOn (beginCapture k i s) := by
  have hset : ∀ a r, a ≠ AcqState.stopped →
      RunOn (setAcqState a (setSeg k r (clearPrimes (discardPoints { s with acq := { s.acq with cur := k } })))) :=
    fun a r ha => ⟨hkind, by simpa [setAcqState] using ha, segTableOk_setSeg _ _ h⟩
  simp only [beginCapture]
  split
  · exact runOn_readyAtOnce _ (hset _ _ (by simp))
  · exact hset _ _ (by simp)

theorem runOn_enterHeld {s : State} (hkind : s.acq.runKind ≠ .idle) (h : SegTableOk s) : RunOn (enterHeld s) :=
  ⟨by simpa using hkind, by simp [enterHeld, setAcqState], h.of_segs (by simp)⟩

/-- R38, R47: an arm takes place or waits in HELD; the run is on either way. -/
theorem runOn_arm {s : State} (k : Nat) (hkind : s.acq.runKind ≠ .idle) (h : SegTableOk s) : RunOn (arm k s) := by
  have hfreed := segTableOk_freeForArm k s.setup.geometry h
  have hkind' : (freeForArm k s.setup.geometry s).acq.runKind ≠ .idle := by simpa using hkind
  simp only [arm]
  split
  · exact runOn_enterHeld hkind' hfreed
  · exact runOn_beginCapture k _ hkind' hfreed

theorem runOn_beginRoll {s : State} (g : Geometry) (h : SegTableOk s) : RunOn (beginRoll g s) :=
  ⟨by simp [beginRoll], by simp [beginRoll, setAcqState],
    (segTableOk_setSeg 0 ⟨.filling, 0, some (armInfo g s)⟩ (h.of_segs (t := discardPoints s) rfl)).of_segs rfl⟩

theorem runOn_enterRoll {s : State} (hkind : s.acq.runKind ≠ .idle) (h : SegTableOk s) : RunOn (enterRoll s) := by
  have hfreed := segTableOk_freeForArm 0 (s.setup.rollGeometry s.acq.fresh)
    (h.of_segs (t := { s with acq := { s.acq with fresh := s.acq.fresh + 1 } }) rfl)
  simp only [enterRoll]
  split
  · exact runOn_enterHeld (by simpa using hkind) hfreed
  · exact runOn_beginRoll _ hfreed

/-! ## Starts and ends of runs -/

theorem runOn_armRepeatOrRoll {s : State} (h : SegTableOk s) : RunOn (armRepeatOrRoll s) := by
  simp only [armRepeatOrRoll]
  split
  · exact runOn_enterRoll (by simp) h
  · exact runOn_arm _ (by simp) h

/-- R57, R63: whatever the run mode, a start leaves a run on. -/
theorem runOn_launch {s : State} (h : SegTableOk s) : RunOn (launch s) := by
  unfold launch
  split
  · exact runOn_armRepeatOrRoll h
  · exact runOn_arm 0 (by simp) ((segTableOk_freeDone (fun _ _ => true) s h).of_segs rfl)

theorem runOn_startRun {s : State} (one : Bool) (h : SegTableOk s) : RunOn (startRun one s) := runOn_launch h

theorem runOn_armHeld {s : State} (h : SegTableOk s) : RunOn (armHeld s) := by
  unfold armHeld
  split
  next hkind => exact runOn_arm _ (by simp [hkind]) h
  all_goals exact runOn_armRepeatOrRoll h

theorem runOver_enterStopped {s : State} (h : SegTableOk s) : RunOver (enterStopped s) := ⟨rfl, rfl, h⟩

theorem runOver_endRoll {s : State} (h : SegTableOk s) : RunOver (endRoll s) := by
  cases hi : (curSeg s).info with
  | none =>
    simp only [endRoll, hi]
    exact runOver_enterStopped h
  | some i =>
    rw [endRoll_eq hi]
    exact runOver_enterStopped ((segTableOk_makeDone 0 (rolledInfo s i) h).of_segs (by simp))

/-! ## Capture ends and triggers -/

theorem runOn_nextArm {s : State} (hkind : s.acq.runKind ≠ .idle) (h : SegTableOk s) : RunOn (nextArm s) := by
  unfold nextArm
  split
  · exact runOn_arm _ hkind h
  all_goals exact runOn_arm _ hkind h

/-- R51: after a segment the run goes on or stops. -/
theorem runForm_afterDone {s : State} (k : Nat) (g : Geometry) (o : SegOutcome) (hkind : s.acq.runKind ≠ .idle)
    (h : SegTableOk s) : RunForm (afterDone k g o s) := by
  have hdrawn : ∀ u : State, u.acq = s.acq → u.acq.runKind ≠ .idle ∧ SegTableOk u := fun u hu =>
    ⟨by rw [hu]; exact hkind, h.of_segs (by rw [hu])⟩
  obtain ⟨hkind', hsegs⟩ := hdrawn (enterNote .acq
    (if (decide (s.acq.runKind ≠ .segmented) || runEnds s k g o) && g.enabled.nonempty then
      enterAutomatic k (segAt s k).serial g.enabled s else s)) (by split <;> simp)
  simp only [afterDone]
  by_cases hends : runEnds s k g o = true
  · rw [if_pos hends]
    exact .inr (runOver_enterStopped hsegs)
  · rw [if_neg hends]
    exact .inl (runOn_nextArm hkind' hsegs)

theorem runForm_finishSegment {s : State} (k : Nat) (i : SegInfo) (f : PerChan FlagSet) (m : PerChan Meas) (o : SegOutcome)
    (hkind : s.acq.runKind ≠ .idle) (h : SegTableOk s) : RunForm (finishSegment k i f m o s) :=
  runForm_afterDone _ _ _ (by simpa using hkind)
    ((segTableOk_makeDone k { i with flags := f, meas := some m, outcome := some o } h).of_segs (by simp))

/-- R50: a capture end finishes the segment or takes it again. -/
theorem runForm_captureEnd {s : State} (h : RunOn s) : RunForm (captureEnd s) := by
  unfold captureEnd
  split
  · exact .inl h
  next i _ =>
    obtain ⟨hkind, -, hsegs⟩ := h.of_acq (monCaptureEnd_frame (resultsAt s i.geo) s).2.2.1
    simp only
    split
    · exact .inl (runOn_beginCapture _ _ hkind hsegs)
    · exact runForm_finishSegment _ _ _ _ _ hkind hsegs

/-- R49: an accepted trigger begins the rest of the capture, or ends it. -/
theorem runForm_acceptTrigger {s : State} (kind : TrigKind) (tag : Tick) (h : RunOn s) : RunForm (acceptTrigger kind tag s) := by
  have hmark : RunOn (markTrigger kind tag s) := h.of_same (by simp) (by simp) (segTableOk_markTrigger kind tag h.2.2)
  simp only [acceptTrigger]
  split
  · split
    · exact .inl (runOn_enterCapturing hmark.1 hmark.2.2)
    · exact runForm_captureEnd hmark
  · exact .inl hmark

theorem runForm_becomeReady {s : State} (h : RunOn s) : RunForm (becomeReady s) := by
  have hready : RunOn (setAcqState .waiting (setSeg s.acq.cur { curSeg s with state := .ready }
      { s with acq := { s.acq with readyTick := lastCodeTick s } })) :=
    ⟨h.1, by simp [setAcqState], segTableOk_setAcqState _ (segTableOk_setSeg _ _ h.2.2)⟩
  simp only [becomeReady]
  split
  · exact runForm_acceptTrigger _ _ hready
  · exact .inl hready

end Sys2Proof.Machine
end

section
/-! SUPPORT. What keeps run kind, acquisition state, power state and the list of segment records consistent: the changes of the record,
the power moves, the panel, the scans and the codes (O56). -/

namespace Sys2Proof.Machine

/-! ## The property -/

/-- R46, R65: what every step keeps of ACQ's run and the list of segment records. -/
def RunConsistent (s : State) : Prop := RunOk s ∧ StandbyStopped s ∧ SegTableOk s

theorem RunConsistent.of_same {s t : State} (h : RunConsistent s) (hkind : t.acq.runKind = s.acq.runKind)
    (hstate : t.acq.state = s.acq.state) (hsegs : t.acq.segs = s.acq.segs) (hpower : t.power.state = s.power.state) :
    RunConsistent t := by
  unfold RunConsistent RunOk StandbyStopped SegTableOk
  rw [hkind, hstate, hsegs, hpower]
  exact h

theorem RunConsistent.of_acq {s t : State} (h : RunConsistent s) (ha : t.acq = s.acq) (hpower : t.power.state = s.power.state) :
    RunConsistent t := h.of_same (by rw [ha]) (by rw [ha]) (by rw [ha]) hpower

/-- A change of the list alone that keeps its form. -/
theorem RunConsistent.of_table {s t : State} (h : RunConsistent s) (hkind : t.acq.runKind = s.acq.runKind)
    (hstate : t.acq.state = s.acq.state) (hpower : t.power.state = s.power.state) (ht : SegTableOk t) : RunConsistent t := by
  unfold RunConsistent RunOk StandbyStopped
  rw [hkind, hstate, hpower]
  exact ⟨h.1, h.2.1, ht⟩

theorem RunForm.awake {t : State} (h : RunForm t) (hpower : t.power.state ≠ .standby) : RunConsistent t :=
  ⟨((runForm_iff t).mp h).1, fun hp => absurd hp hpower, ((runForm_iff t).mp h).2⟩

theorem RunOver.consistent {t : State} (h : RunOver t) : RunConsistent t :=
  ⟨((runForm_iff t).mp (.inr h)).1, fun _ => h.2.1, h.2.2⟩

theorem RunConsistent.runForm {s : State} (h : RunConsistent s) : RunForm s := (runForm_iff s).mpr ⟨h.1, h.2.2⟩

theorem RunConsistent.runOn {s : State} (h : RunConsistent s) (hs : s.acq.state ≠ .stopped) : RunOn s :=
  h.runForm.resolve_right fun hover => hs hover.2.1

/-- R65: what ACQ does while it is not STOPPED it does outside STANDBY. -/
theorem RunConsistent.move {s t : State} (h : RunConsistent s) (hs : s.acq.state ≠ .stopped) (ht : RunForm t)
    (hpower : t.power.state = s.power.state) : RunConsistent t :=
  ht.awake fun hp => hs (h.2.1 (hpower ▸ hp))

theorem runConsistent_whenDue {due : State → Bool} {f : State → State} {s : State} (h : RunConsistent s)
    (hdue : due s = true → s.acq.state ≠ .stopped) (hf : RunOn s → RunForm (f s))
    (hpower : (f s).power.state = s.power.state) : RunConsistent (whenDue due f s) := by
  unfold whenDue
  split
  next hd => exact h.move (hdue hd) (hf (h.runOn (hdue hd))) hpower
  next => exact h

/-! ## What is due only while a run is on -/

section
variable {s : State} (h : RunConsistent s)
include h

theorem runConsistent_writeInterval : RunConsistent (whenDue intervalFull writeInterval s) :=
  runConsistent_whenDue h (fun hd hs => by simp [intervalFull, inFlight, hs] at hd)
    (fun hon => .inl (hon.of_same (by simp) (by simp) (segTableOk_writeInterval hon.2.2))) (by simp)

theorem runConsistent_becomeReady : RunConsistent (whenDue readyDue becomeReady s) :=
  runConsistent_whenDue h (fun hd hs => by simp [readyDue, hs] at hd) runForm_becomeReady (by simp)

theorem runConsistent_captureEnd : RunConsistent (whenDue endDue captureEnd s) :=
  runConsistent_whenDue h (fun hd hs => by simp [endDue, hs] at hd) runForm_captureEnd (by simp)

theorem runConsistent_endRoll : RunConsistent (whenDue columnsDone endRoll s) :=
  runConsistent_whenDue h (fun hd hs => by simp [columnsDone, hs] at hd) (fun hon => .inr (runOver_endRoll hon.2.2)) (by simp)

theorem runConsistent_fireAuto : RunConsistent (whenDue autoDue fireAuto s) :=
  runConsistent_whenDue h (fun hd hs => by simp [autoDue, hs] at hd) (runForm_acceptTrigger _ _) (by simp)

theorem runConsistent_fireOverdue : RunConsistent (whenDue autoOverdue fireAuto s) :=
  runConsistent_whenDue h (fun hd hs => by simp [autoOverdue, autoDue, hs] at hd) (runForm_acceptTrigger _ _) (by simp)

theorem runConsistent_armHeld : RunConsistent (whenDue releaseDue armHeld s) :=
  runConsistent_whenDue h (fun hd hs => by simp [releaseDue, hs] at hd) (fun hon => .inl (runOn_armHeld hon.2.2)) (by simp)

/-- Whatever comes before the next code. -/
theorem runConsistent_settle : RunConsistent (settle s) :=
  runConsistent_armHeld (runConsistent_fireOverdue (runConsistent_endRoll (runConsistent_captureEnd
    (runConsistent_becomeReady (runConsistent_writeInterval h)))))

/-- R53: a crossing can trigger in READY only. -/
theorem runConsistent_detect (code : PerChan Byte) (ext : Bool) (tick : Tick) : RunConsistent (detect code ext tick s) := by
  have hdetect : s.acq.state ≠ .stopped → ∀ rise fall, ∀ c : Bool,
      RunConsistent (if c then acceptTrigger .edge tick { s with acq := { s.acq with risePrime := rise, fallPrime := fall } }
        else { s with acq := { s.acq with risePrime := rise, fallPrime := fall } }) := by
    intro hs rise fall c
    split
    · exact h.move hs (runForm_acceptTrigger _ _ ((h.runOn hs).of_same rfl rfl (h.2.2.of_segs rfl))) (by simp)
    · exact h.of_same rfl rfl rfl rfl
  unfold detect
  split
  next hs => exact hdetect (by simp [hs]) _ _ _
  next hs => exact hdetect (by simp [hs]) _ _ _
  next => exact h

theorem runConsistent_takeCode (x : Sample) : RunConsistent (takeCode s x) :=
  runConsistent_detect ((runConsistent_settle h).of_same (by simp) (by simp) (by simp) (by simp)) _ _ _

/-! ## Changes of the record -/

theorem runConsistent_acqChange : RunConsistent (acqChange s) := by
  by_cases hs : s.acq.state = .stopped
  · rwa [acqChange, hs]
  · have hsegs : SegTableOk (beforeRestart s) := segTableOk_beforeRestart h.2.2
    refine h.move hs ?_ (by simp)
    rw [acqChange_eq hs]
    exact .inl (runOn_launch hsegs)

theorem runConsistent_trigChange (old : Setup) : RunConsistent (trigChange old s) := by
  have hprimed : RunConsistent (primed old s) := by
    unfold primed
    split
    · exact h.of_same (by simp) (by simp) (by simp) (by simp)
    · exact h
  rw [trigChange_eq]
  split
  next hfires =>
    have hs : (primed old s).acq.state ≠ .stopped := fun hs => by
      rw [← autoDue_primed old s, autoDue_of_ne_waiting (by simp [hs])] at hfires
      simp at hfires
    exact hprimed.move hs (runForm_acceptTrigger _ _ (hprimed.runOn hs)) (by simp)
  next => exact hprimed

/-- R11: a change of the record. -/
theorem runConsistent_adopt (u : Setup) : RunConsistent (adopt u s) := by
  unfold adopt
  split
  · exact h
  · have hlane : RunConsistent (laneAfterChange s.setup u { s with setup := u, gen := s.gen + 1 }) := h.of_acq (by simp) (by simp)
    have hacq : RunConsistent (tellAcq s.setup u (laneAfterChange s.setup u { s with setup := u, gen := s.gen + 1 })) := by
      unfold tellAcq
      split
      · exact runConsistent_acqChange hlane
      · exact hlane
    have htrig : RunConsistent
        (tellTrig s.setup u (tellAcq s.setup u (laneAfterChange s.setup u { s with setup := u, gen := s.gen + 1 }))) := by
      unfold tellTrig
      split
      · exact runConsistent_trigChange hacq _
      · exact hacq
    exact htrig.of_acq (tellBlocks_acq _ _ _) (by simp)

/-! ## RUN, STOP, SINGLE and FORCE outside STANDBY -/

theorem runConsistent_runAcq (hpower : s.power.state ≠ .standby) : RunConsistent (runAcq s) := by
  unfold runAcq
  split
  · exact RunForm.awake (.inl (runOn_startRun _ h.2.2)) (by simpa using hpower)
  · exact h.of_same rfl rfl rfl rfl

theorem runConsistent_singleAcq (hpower : s.power.state ≠ .standby) : RunConsistent (singleAcq s) := by
  unfold singleAcq
  split
  · exact RunForm.awake (.inl (runOn_startRun _ h.2.2)) (by simpa using hpower)
  · split
    · exact h
    · exact h.of_same rfl rfl rfl rfl
  all_goals exact h.of_same rfl rfl rfl rfl

theorem runConsistent_stopAcq : RunConsistent (stopAcq s) := by
  have hstop : ∀ u : State, SegTableOk u → RunConsistent (enterStopped u) := fun _ hu => (runOver_enterStopped hu).consistent
  cases hs : s.acq.state with
  | stopped => rwa [stopAcq_stopped hs]
  | held => exact stopAcq_held hs ▸ hstop _ (h.2.2.of_segs rfl)
  | rolling =>
    rw [stopAcq_rolling hs]
    exact (runOver_endRoll (s := dropForce s) (h.2.2.of_segs rfl)).consistent
  | arming | waiting | capturing =>
    rw [stopAcq_capture (s := s) (by simp [hs])]
    exact hstop _ (segTableOk_setSeg _ _ (h.2.2.of_segs rfl))

theorem runConsistent_forceAcq : RunConsistent (forceAcq s) := by
  unfold forceAcq
  split
  · exact h.of_same rfl rfl rfl rfl
  · exact h.of_same rfl rfl rfl rfl
  next hs =>
    have hne : s.acq.state ≠ .stopped := by simp [hs]
    exact h.move hne (runForm_acceptTrigger _ _ (h.runOn hne)) (by simp)
  all_goals exact h

/-! ## The power state -/

/-- R193: at the wake from STANDBY a run starts where one was on at its entry. -/
theorem runConsistent_requestOn (c : MoveCause) : RunConsistent (requestOn c s) := by
  have hset : RunForm (setPower .on c { s with power := { s.power with runAtWake := false } }) := h.runForm.of_acq (by simp)
  have hwake : ∀ run u, RunForm u → RunForm (acqWake run u) := by
    intro run u hu
    simp only [acqWake]
    split
    · refine RunForm.of_acq (.inl (runOn_startRun false ?_)) (enterNote_frame .acq _).2.2.1
      exact ((runForm_iff u).mp hu).2
    · exact hu.imp (fun hon => hon.of_same rfl rfl hon.2.2) fun hover => ⟨hover.1, hover.2.1, hover.2.2⟩
  unfold requestOn
  split
  · exact h
  · exact (h.runForm.of_acq (by simp)).awake (by simp [wakeFromDark, setPower])
  · exact ((hwake s.power.runAtWake _ hset).of_acq (by simp [wakeFromStandby])).awake (by simp [wakeFromStandby, setPower])

/-- R65, R192: ACQ stops on entry into STANDBY. -/
theorem runConsistent_requestStandby (c : MoveCause) : RunConsistent (requestStandby c s) := by
  have hstandby : ∀ u, SegTableOk u → RunOver (acqStandby u) := fun u hu => by
    have hwaves : SegTableOk (endWaves .wrongState u) := hu.of_segs (by simp)
    have hin : SegTableOk (if inFlight (endWaves .wrongState u) then abandon (endWaves .wrongState u)
        else endWaves .wrongState u) := by
      split
      · exact segTableOk_abandon hwaves
      · exact hwaves
    exact ⟨rfl, rfl, hin⟩
  have hmove : RunConsistent (moveToStandby c s) := by
    obtain ⟨hkind, hstate, hsegs⟩ :=
      hstandby (setPower .standby c { s with power := { s.power with runAtWake := isRunning s } }) (h.2.2.of_segs rfl)
    exact RunOver.consistent ⟨by simpa [moveToStandby] using hkind, by simpa [moveToStandby] using hstate,
      hsegs.of_segs (by simp [moveToStandby])⟩
  unfold requestStandby
  split
  · exact hmove
  · exact hmove
  · exact h

theorem runConsistent_requestDark (c : MoveCause) : RunConsistent (requestDark c s) := by
  unfold requestDark
  split
  · exact (h.runForm.of_acq (by simp)).awake (by simp [moveToDark, setPower])
  · exact h
  · exact h

theorem runConsistent_requestWaking : RunConsistent (requestWaking s) := by
  unfold requestWaking
  split
  · exact (h.runForm.of_acq (by simp)).awake (by simp [wakeFromDark, setPower])
  · exact h
  · exact h

theorem runConsistent_requestWake (p : PowerState) : RunConsistent (requestWake p s) := by
  cases p with
  | standby => exact runConsistent_requestOn h _
  | on | dark => exact runConsistent_requestStandby h _

/-! ## Keys and knobs -/

theorem runConsistent_runAction (a : KeyAction) (hpower : s.power.state ≠ .standby) : RunConsistent (runAction a s).1 := by
  cases a with
  | nothing | wake => exact h
  | chan n => exact runConsistent_adopt h _
  | defaults => exact runConsistent_adopt h _
  | single => exact runConsistent_singleAcq h hpower
  | force => exact runConsistent_forceAcq h
  | clear => exact h.of_acq (by simp [runAction]) (by simp [runAction])
  | runstop =>
    simp only [runAction]
    split
    · exact runConsistent_runAcq h hpower
    · exact runConsistent_stopAcq h
  | _ k => -- a save or a recall
    simp only [runAction, actJob]
    split
    · exact h.of_acq (by simp) (by simp)
    · exact h

theorem runConsistent_pressInOn (k : Nat) (hpower : s.power.state = .on) : RunConsistent (pressInOn k s) := by
  unfold pressInOn
  split
  next => exact h.of_acq (by simp) (by simp)
  next b _ =>
    split
    · exact runConsistent_requestWake (h.of_acq (by simp) (by simp)) _
    · split
      · exact h.of_acq (by simp) (by simp)
      · exact (runConsistent_runAction h b.action (by simp [hpower])).of_acq (by simp) (by simp)

theorem runConsistent_pressInStandby (k : Nat) : RunConsistent (pressInStandby k s) := by
  unfold pressInStandby
  split
  · split
    · exact runConsistent_requestWake (h.of_acq (by simp) (by simp)) _
    · exact h
  · exact h

/-- R147, R159, R160: a press by the power state. -/
theorem runConsistent_pressKey (k : Nat) : RunConsistent (pressKey k s) := by
  have hdown : RunConsistent (activity (setKey k { keyAt s k with down := true, count := 0 } s)) := h.of_acq (by simp) (by simp)
  simp only [pressKey]
  split
  next hon => exact runConsistent_pressInOn hdown k hon
  next => exact runConsistent_requestWaking (hdown.of_acq (by simp) (by simp))
  next => exact runConsistent_pressInStandby hdown k

theorem runConsistent_offerBatch (n : Nat) (b : KnobBinding) : RunConsistent (offerBatch n b s) := by
  simp only [offerBatch]
  split
  · exact h
  · exact runConsistent_adopt (h.of_acq (by simp) (by simp)) _

theorem runConsistent_takeDetent (n : Nat) (d : Dir) : RunConsistent (takeDetent n d s) := by
  have hcount : ∀ u, RunConsistent u → RunConsistent (countDetent n d u) := fun u hu => by
    simp only [countDetent]
    split
    · exact hu.of_acq (by simp) (by simp)
    · exact runConsistent_offerBatch (hu.of_acq (by simp) (by simp)) _ _
  have hactive : RunConsistent (activity s) := h.of_acq (by simp) (by simp)
  simp only [takeDetent]
  split
  · split
    · exact hactive
    · exact hcount _ hactive
  · exact runConsistent_requestWaking hactive
  · exact hactive

theorem runConsistent_batchResult (n : Nat) : RunConsistent (batchResult n s) := by
  simp only [batchResult]
  split
  · exact runConsistent_offerBatch (h.of_acq (by simp) (by simp)) _ _
  · exact h.of_acq (by simp) (by simp)

/-! ## The scans and the codes -/

theorem runConsistent_scanKey (k : Nat) : RunConsistent (scanKey s k) := by
  simp only [scanKey]
  split
  · split
    · exact h
    · exact h.of_acq (by simp) (by simp)
  · split
    · exact h.of_acq (by simp) (by simp)
    · split
      · exact runConsistent_pressKey h k
      · exact h.of_acq (by simp) (by simp)

theorem runConsistent_scanKnob (n : Nat) : RunConsistent (scanKnob s n) := by
  have hsampled : ∀ x : Knob, RunConsistent (if x = knobAt s n then s else setKnob n x s) := fun x => by
    split
    · exact h
    · exact h.of_acq (by simp) (by simp)
  simp only [scanKnob]
  split
  · exact runConsistent_takeDetent (hsampled _) _ _
  · exact hsampled _

theorem runConsistent_scansAt : RunConsistent (scansAt s) := by
  have hknobs : RunConsistent (if ticksSinceReset s % 15625 = 0 then scanKnobs s else s) := by
    split
    · exact foldl_keeps (P := RunConsistent) (fun _ n hu => runConsistent_scanKnob hu n) _ s h
    · exact h
  have hkeys : ∀ u, RunConsistent u → RunConsistent (scanKeys u) := fun u hu =>
    (foldl_keeps (P := RunConsistent) (f := scanKey) (fun _ k hv => runConsistent_scanKey hv k) (List.range 64) u hu).of_acq
      (by simp [scanKeys]) (by simp [scanKeys])
  simp only [scansAt]
  by_cases hk : ticksSinceReset s % 125000 = 0
  · rw [if_pos hk]
    exact hkeys _ hknobs
  · rw [if_neg hk]
    exact hknobs

theorem runConsistent_passCodes (xs : List Sample) : RunConsistent (passCodes xs s) := by
  refine foldl_keeps (P := RunConsistent) (fun u x hu => ?_) xs s h
  have htaken := runConsistent_takeCode hu x
  simp only [passCode, scanAtTick]
  split
  · exact runConsistent_scansAt htaken
  · exact htaken

end

end Sys2Proof.Machine
end

section
/-! SUPPORT. Every row keeps the run, the acquisition state and the list of segment records consistent; the statement of it for a
step (O56). -/

namespace Sys2Proof.Machine

/-! ## STORE and RESTART -/

/-- R169, R176: only a recall that adopts its image reaches ACQ. -/
theorem runConsistent_readDone {page : List Byte} {s : State} (h : RunConsistent s) : RunConsistent (readDone page s) := by
  have hclassified : ∀ j r why hd b, RunConsistent (classified j r why hd b s) := fun j r why hd b => by
    have hset : RunConsistent (setDir j.slot (classifySlot j.slot hd b) s) := h.of_acq (by simp) (by simp)
    have hend : ∀ res, RunConsistent (endJob res (setDir j.slot (classifySlot j.slot hd b) s)) := fun _ =>
      hset.of_acq (by simp) (by simp)
    have hab : RunConsistent (finishAbandoned r (setDir j.slot (classifySlot j.slot hd b) s)) :=
      hset.of_acq (by simp) (by simp)
    unfold classified
    cases why with
    | refresh res => exact hend res
    | startCheck =>
      simp only
      split
      · exact hab
      · exact hset.of_acq (by simp) (by simp)
    | protectOff =>
      simp only
      split
      · exact hab
      · split
        · exact hset.of_acq (by simp) (by simp)
        all_goals exact hend _
    | _ => -- a recall
      simp only
      split
      · exact hab
      · split
        · split
          next u c _ => exact (runConsistent_adopt hset u).of_acq (by simp) (by simp)
          next => exact hend _
        all_goals exact hend _
  have hjob : ∀ j r, RunConsistent (jobRead j r page s) := fun j r => by
    unfold jobRead
    split
    · split
      · exact hclassified _ _ _ _ _
      · split <;> exact h.of_acq (by simp) (by simp)
    · exact h
  unfold readDone
  split
  · exact hjob _ _
  · exact h.of_acq (by simp) (by simp)
  · exact h

theorem foldl_autosaveActs_power (b : Bool) (js : List StoreJob) (s : State) :
    (js.foldl (autosaveActs b) s).power = s.power := by
  induction js generalizing s with
  | nil => rfl
  | cons j js ih => simpa using ih (autosaveActs b s j)

/-- R167: the end of a step with an effect. -/
theorem runConsistent_endStep {f : State → State} {s : State} (h : RunConsistent s)
    (hf : ∀ u, RunConsistent u → RunConsistent (f u)) : RunConsistent (endStep f s) := by
  refine (hf { s with store := { s.store with step := none, autosaves := [] } } (h.of_acq rfl rfl)).of_acq ?_ ?_
  · rw [endStep, foldl_autosaveActs_acq]
    simp
  · rw [endStep, foldl_autosaveActs_power]
    simp

theorem runConsistent_alteredThen {f : StoreJob → JobPhase → State → State} {s : State} (h : RunConsistent s)
    (hacq : ∀ j p u, (f j p u).acq = u.acq) (hpower : ∀ j p u, (f j p u).power = u.power) :
    RunConsistent (alteredThen f s) := by
  unfold alteredThen
  split
  · simp only
    split
    · exact h.of_acq (by simp) (by simp)
    · exact h.of_acq (by simp [hacq]) (by simp [hpower])
  · exact h

/-- R211: a RESTART ends the run and empties the list. -/
theorem runConsistent_restartPart (tag : Byte) (s : State) : RunConsistent (restartPart tag s) := by
  have hover : RunOver (acqRestart { s with link := { s.link with inbound := [] } }) := ⟨rfl, rfl, rfl⟩
  obtain ⟨hkind, hstate, hsegs⟩ := hover
  refine RunOver.consistent ⟨?_, ?_, hsegs.of_segs ?_⟩
  · simpa [restartPart, clearLink, restartBlocks, powerRestart] using hkind
  · simpa [restartPart, clearLink, restartBlocks, powerRestart] using hstate
  · simp [restartPart, clearLink, restartBlocks, powerRestart]

theorem runConsistent_coldState (s : State) : RunConsistent (coldState s) := by
  refine RunOver.consistent ⟨?_, ?_, ?_⟩
  · rw [coldState, (laneFollowAll_frame _).2.2.1]
    rfl
  · rw [coldState, (laneFollowAll_frame _).2.2.1]
    rfl
  · rw [SegTableOk, coldState, (laneFollowAll_frame _).2.2.1]
    rfl

/-! ## Orders -/

theorem atHead_power (f : Frame) (s : State) : (atHead f s).power = s.power := by
  unfold atHead
  split
  · rfl
  · simp

section
variable {s : State}

theorem runConsistent_order {kind tag : Byte} {lenOk : Nat → Bool} {body : List Byte} {act : State → State}
    (h : RunConsistent s) (hact : ∀ u, RunConsistent u → RunConsistent (act u)) :
    NextMeets RunConsistent (order kind lenOk tag body act s) := by
  refine live_keeps h fun _ => ?_
  have hhead : RunConsistent (atHead ⟨kind, tag, body⟩ s) := h.of_acq (atHead_acq _ s) (by rw [atHead_power])
  simp only [dispatchOrder]
  split
  · split
    · exact hact _ (hhead.of_acq (by simp) (by simp))
    · exact hhead.of_acq (by simp) (by simp)
  · exact hhead

theorem runConsistent_answer {kind tag : Byte} {st : Status} {items : List Byte} (h : RunConsistent s) :
    RunConsistent (answer kind tag st items s) := h

/-- R56, R62, R65: RUN, STOP, SINGLE and FORCE reach ACQ outside STANDBY only. -/
theorem runConsistent_outsideStandby {kind tag : Byte} {lenOk : Nat → Bool} {body : List Byte} {blocked : State → Prop}
    [DecidablePred blocked] {f : State → State} (h : RunConsistent s) (hblocked : ∀ u, u.power.state = .standby → blocked u)
    (hf : ∀ u, RunConsistent u → u.power.state ≠ .standby → RunConsistent (f u)) :
    NextMeets RunConsistent (order kind lenOk tag body
      (fun s => if blocked s then answer kind tag .wrongState [] s else answer kind tag .ok [] (f s)) s) := by
  refine runConsistent_order h fun u hu => ?_
  split
  · exact hu
  next hon => exact runConsistent_answer (hf u hu fun hp => hon (hblocked u hp))

theorem selectPeriodStart_keeps_run (h : RunConsistent s) : NextMeets RunConsistent (execSelectPeriodStart s) := by
  unfold execSelectPeriodStart
  (repeat' split) <;> exact nextMeets_next (h.of_acq (by simp) (by simp))

theorem selectPeriodEnd_keeps_run {bytes : List Byte} {stray : List Bool} (h : RunConsistent s) :
    NextMeets RunConsistent (execSelectPeriodEnd bytes stray s) := by
  unfold execSelectPeriodEnd
  split
  · exact nextMeets_next h
  · split
    · exact nextMeets_next (h.of_acq (by simp) (by simp))
    · refine nextMeets_next (h.of_acq ?_ ?_) <;> split <;> simp

theorem orderBadKind_keeps_run {kind tag : Byte} {body : List Byte} (h : RunConsistent s) :
    NextMeets RunConsistent (execOrderBadKind kind tag body s) := by
  refine live_keeps h fun _ => ?_
  have hhead : RunConsistent (atHead ⟨kind, tag, body⟩ s) := h.of_acq (atHead_acq _ s) (by rw [atHead_power])
  simp only
  (repeat' split) <;> assumption

theorem fieldSet_keeps_run {tag : Byte} {body : List Byte} (h : RunConsistent s) :
    NextMeets RunConsistent (execFieldSet tag body s) := by
  refine runConsistent_order h fun u hu => ?_
  simp only
  split
  · exact hu
  · split
    · exact hu
    · split
      · exact hu
      · exact runConsistent_answer (runConsistent_adopt hu _)

theorem setupWrite_keeps_run {tag : Byte} {body : List Byte} (h : RunConsistent s) :
    NextMeets RunConsistent (execSetupWrite tag body s) := by
  refine runConsistent_order h fun u hu => ?_
  split
  · exact runConsistent_answer (runConsistent_adopt hu _)
  · exact hu

theorem power_keeps_run {tag : Byte} {body : List Byte} (h : RunConsistent s) :
    NextMeets RunConsistent (execPower tag body s) := by
  refine runConsistent_order h fun u hu => ?_
  split
  · exact runConsistent_answer (runConsistent_requestOn hu _)
  · split
    · exact hu
    · exact runConsistent_answer (runConsistent_requestDark hu _)
  · exact runConsistent_answer (runConsistent_requestStandby hu _)
  · exact hu

theorem waveRead_keeps_run {tag : Byte} {body : List Byte} (h : RunConsistent s) :
    NextMeets RunConsistent (execWaveRead tag body s) := by
  refine runConsistent_order h fun u hu => ?_
  split
  · exact hu.of_same rfl rfl rfl rfl
  · exact hu

/-! ## Other rows -/

theorem drawColumn_keeps_run (h : RunConsistent s) : NextMeets RunConsistent (execDrawColumn s) := by
  unfold execDrawColumn
  split
  · exact nextMeets_next h
  · split
    · exact nextMeets_next h
    · split
      · split
        · exact nextMeets_next (h.of_acq (by simp) (by simp))
        · rintro u ⟨⟩
      · exact nextMeets_next h

theorem waveReadDone_keeps_run (h : RunConsistent s) : NextMeets RunConsistent (execWaveReadDone s) := by
  have htaken : ∀ waves, RunConsistent { s with acq := { s.acq with waves := waves } } := fun _ =>
    h.of_same rfl rfl rfl rfl
  unfold execWaveReadDone
  split
  · exact nextMeets_next h
  · split
    · exact nextMeets_next h
    · split
      · split
        · split
          · exact nextMeets_next (runConsistent_answer (htaken _))
          · rintro u ⟨⟩
        · exact nextMeets_next (runConsistent_answer (htaken _))
      · exact nextMeets_next (runConsistent_answer (htaken _))

theorem laneConditionChange_keeps_run {n : Chan} {lock : Bool} (h : RunConsistent s) :
    NextMeets RunConsistent (execLaneConditionChange n lock s) := by
  simp only [execLaneConditionChange]
  split <;> exact nextMeets_next (h.of_acq (by simp) (by simp))

theorem flashReadPageEnd_keeps_run {page : Vector Byte 256} (h : RunConsistent s) :
    NextMeets RunConsistent (execFlashReadPageEnd page s) := by
  refine live_keeps h fun hs => ?_
  split
  · split
    · exact runConsistent_endStep hs fun _ => runConsistent_readDone
    · exact hs
  · exact hs

theorem flashProgramPageEnd_keeps_run (h : RunConsistent s) : NextMeets RunConsistent (execFlashProgramPageEnd s) := by
  refine live_keeps h fun hs => ?_
  split
  · split
    · split
      · exact runConsistent_endStep hs fun _ hu => runConsistent_alteredThen hu (by simp) (by simp)
      · exact hs
    · exact hs
  · exact hs

theorem flashEraseSectorEnd_keeps_run (h : RunConsistent s) : NextMeets RunConsistent (execFlashEraseSectorEnd s) := by
  refine live_keeps h fun hs => ?_
  split
  · split
    · exact runConsistent_endStep hs fun _ hu => runConsistent_alteredThen hu (by simp) (by simp)
    · exact hs
  · exact hs

theorem flashStepTimeout_keeps_run (h : RunConsistent s) : NextMeets RunConsistent (execFlashStepTimeout s) := by
  refine live_keeps h fun hs => ?_
  split
  · exact runConsistent_endStep hs fun _ hu => hu.of_acq (by simp) (by simp)
  · exact hs

/-- The codes of a row, then the write of the interval they complete. -/
theorem runConsistent_codesRow {codes : List Sample} {f : State → State} (h : RunConsistent s)
    (hf : ∀ u, RunConsistent u → RunConsistent (f u)) : NextMeets RunConsistent (codesRow (fun s => f (passCodes codes s)) s) :=
  codesRow_keeps h fun hs => hf _ (runConsistent_passCodes hs codes)

theorem pointWritten_keeps_run {codes : List Sample} (h : RunConsistent s) :
    NextMeets RunConsistent (execPointWritten codes s) := by
  refine runConsistent_codesRow (f := fun u => if intervalFull u ∧ u.acq.state ≠ .rolling then writePoint u else u) h
    fun u hu => ?_
  split
  · exact hu.of_table (by simp) (by simp) (by simp) (segTableOk_writePoint hu.2.2)
  · exact hu

theorem rollColumn_keeps_run {codes : List Sample} (h : RunConsistent s) : NextMeets RunConsistent (execRollColumn codes s) := by
  refine runConsistent_codesRow (f := fun u => if intervalFull u ∧ u.acq.state = .rolling then writeColumn u else u) h
    fun u hu => ?_
  split
  · exact hu.of_table (by simp) (by simp) (by simp) (segTableOk_writeColumn hu.2.2)
  · exact hu

theorem keyPress_keeps_run {key : Fin 64} (h : RunConsistent s) : NextMeets RunConsistent (execKeyPress key s) := by
  have hswitch : RunConsistent (setSwitch key.val true s) := h
  refine live_keeps hswitch fun hs => ?_
  split
  · exact hs
  · exact runConsistent_pressKey hs _

theorem knobDetent_keeps_run {knob : Fin 8} {dir : Dir} (h : RunConsistent s) :
    NextMeets RunConsistent (execKnobDetent knob dir s) := by
  have hlines : RunConsistent (setLinesHigh knob.val s) := h
  refine live_keeps hlines fun hs => ?_
  exact runConsistent_takeDetent (s := setKnob knob.val (knobAt _ knob.val).atRest (setLinesHigh knob.val s)) hs _ _

theorem drawJobStart_keeps_run (h : RunConsistent s) : NextMeets RunConsistent (execDrawJobStart s) :=
  live_keeps h fun hs => (runConsistent_armHeld hs).of_acq (by simp) (by simp)

theorem frameEvent_keeps_run (h : RunConsistent s) : NextMeets RunConsistent (execFrameEvent s) := by
  refine live_keeps h fun hs => ?_
  split
  · split
    · exact hs.of_acq (by simp) (by simp)
    · exact hs
  · exact hs

end

/-- R46, R65: every row keeps the run consistent. -/
theorem exec_keeps_runConsistent (i : Instr) {s : State} (h : RunConsistent s) : NextMeets RunConsistent (exec i s) := by
  cases i with
  | coldReset => exact nextMeets_next (runConsistent_coldState s)
  | resetNLow => exact nextMeets_next h
  | selectPeriodStart => exact selectPeriodStart_keeps_run h
  | selectPeriodEnd bytes stray => exact selectPeriodEnd_keeps_run (stray := stray) h
  | orderBadKind kind tag body => exact orderBadKind_keeps_run h
  | drawColumn => exact drawColumn_keeps_run h
  | waveReadDone => exact waveReadDone_keeps_run h
  | laneConditionChange n lock => exact laneConditionChange_keeps_run h
  | restart tag body => exact runConsistent_order h fun u _ => runConsistent_restartPart tag u
  | fieldSet tag body => exact fieldSet_keeps_run h
  | setupWrite tag body => exact setupWrite_keeps_run h
  | setupDefault tag body => exact runConsistent_order h fun _ hu => runConsistent_answer (runConsistent_adopt hu _)
  | power tag body => exact power_keeps_run h
  | run tag body => exact runConsistent_outsideStandby h (fun _ => id) fun _ => runConsistent_runAcq
  | stop tag body => exact runConsistent_outsideStandby h (fun _ => id) fun _ hu _ => runConsistent_stopAcq hu
  | single tag body => exact runConsistent_outsideStandby h (fun _ => id) fun _ => runConsistent_singleAcq
  | force tag body => exact runConsistent_outsideStandby h (fun _ => .inl) fun _ hu _ => runConsistent_forceAcq hu
  | waveRead tag body => exact waveRead_keeps_run h
  | flashReadPageEnd page => exact flashReadPageEnd_keeps_run h
  | flashProgramPageEnd => exact flashProgramPageEnd_keeps_run h
  | flashEraseSectorEnd => exact flashEraseSectorEnd_keeps_run h
  | flashStepTimeout => exact flashStepTimeout_keeps_run h
  | keyPress key => exact keyPress_keeps_run h
  | knobDetent knob dir => exact knobDetent_keeps_run h
  | knobBatchResult knob =>
    refine live_keeps h fun hs => ?_
    split
    · exact runConsistent_batchResult hs _
    · exact hs
  | edgeTrigger codes => exact runConsistent_codesRow (f := id) h fun _ => id
  | pointWritten codes => exact pointWritten_keeps_run h
  | rollColumn codes => exact rollColumn_keeps_run h
  | armAtRelease => exact live_keeps h runConsistent_armHeld
  | segmentReady => exact live_keeps h runConsistent_becomeReady
  | autoTrigger => exact live_keeps h runConsistent_fireAuto
  | captureEnd => exact live_keeps h runConsistent_captureEnd
  | columnsLeftZero => exact live_keeps h runConsistent_endRoll
  | storeJobStart => exact live_keeps h fun hs => whenDue_keeps hs (hs.of_acq (by simp) (by simp))
  | drawJobStart => exact drawJobStart_keeps_run h
  | frameEvent => exact frameEvent_keeps_run h
  | idleTimerExpiry => exact live_keeps h fun hs => whenDue_keeps hs (runConsistent_requestDark hs _)
  | frameComplete bytes | lenAbove1024 bytes => exact live_keeps h fun hs => hs.of_acq (by simp) (by simp)
  | frameSent | keyRepeat key | keyRelease key =>
    refine live_keeps h fun hs => ?_
    (repeat' split) <;> exact hs.of_acq (by simp) (by simp)
  | _ tag body =>
    refine runConsistent_order h fun u hu => ?_
    simp -failIfUnchanged only
    (repeat' split) <;> exact hu.of_acq (by simp) (by simp)

/-- Settles O56: a change of ACQ's state and run kind is a move of a run that is on or the end of one, and no run is on in
STANDBY. -/
theorem everyStepKeepsTheRunConsistent : Obligations.EveryStepKeepsTheRunConsistent := by
  intro s t h ht
  have hstep : NextMeets RunConsistent (step s) := by
    unfold step
    split
    next i rest _ => exact exec_keeps_runConsistent i (RunConsistent.of_acq h rfl rfl)
    next =>
      split
      next i _ => exact exec_keeps_runConsistent i h
      next => exact codesRow_keeps h fun hs => runConsistent_passCodes hs _
  exact hstep t ht

end Sys2Proof.Machine
end

section
/-! SUPPORT. READY, the AUTO trigger and the force taken at READY (O28). -/

namespace Sys2Proof.Machine

/-- R48: the segment being worked is READY since the last code taken, and ACQ is WAITING. -/
def markedReady (s : State) : State :=
  setAcqState .waiting (setSeg s.acq.cur { curSeg s with state := .ready }
    { s with acq := { s.acq with readyTick := lastCodeTick s } })

section
variable {s : State}

theorem becomeReady_quiet (h : s.acq.forcePending = false) : becomeReady s = markedReady s := by
  have hquiet : (markedReady s).acq.forcePending = false := h
  exact if_neg (ne_true_of_eq_false hquiet)

theorem becomeReady_forced (h : s.acq.forcePending = true) :
    becomeReady s = acceptTrigger .forced s.acq.timeTag (markedReady s) := by
  have hforced : (markedReady s).acq.forcePending = true := h
  exact if_pos hforced

theorem markedReady_acq (s : State) : (markedReady s).acq = { s.acq with
    state := .waiting, readyTick := lastCodeTick s
    segs := tabSet (.free 0) s.acq.segs s.acq.cur { curSeg s with state := .ready } } := rfl

@[simp] theorem markedReady_frame (s : State) : (markedReady s).setup = s.setup ∧ (markedReady s).gen = s.gen ∧
    (markedReady s).panel = s.panel ∧ (markedReady s).store = s.store ∧ (markedReady s).power = s.power :=
  ⟨rfl, rfl, rfl, rfl, rfl⟩

theorem segAt_markedReady_cur (s : State) : segAt (markedReady s) s.acq.cur = { curSeg s with state := .ready } :=
  segAt_setSeg_same s.acq.cur { curSeg s with state := .ready } s

theorem segAt_markedReady_other {k : Nat} (h : k ≠ s.acq.cur) : segAt (markedReady s) k = segAt s k :=
  segAt_setSeg_other s.acq.cur k { curSeg s with state := .ready } s h

theorem curSeg_markedReady (s : State) : curSeg (markedReady s) = { curSeg s with state := .ready } :=
  segAt_markedReady_cur s

/-- R55: the record that a trigger marks does not show the READY mark once it is DONE or recaptured. -/
theorem triggered_markedReady (kind : TrigKind) (tag : Tick) (i : SegInfo) (s : State) :
    triggered kind tag i (markedReady s) = triggered kind tag i { s with
      compose := (markedReady s).compose
      acq := { s.acq with
        readyTick := lastCodeTick s
        segs := tabSet (.free 0) s.acq.segs s.acq.cur { curSeg s with state := .ready } } } := rfl

theorem exec_segmentReady {i : SegInfo} (hreset : s.pins.resetLow = false) (hstate : s.acq.state = .arming)
    (hi : (curSeg s).info = some i) (hpre : i.geo.pre ≤ s.acq.preCount) : exec .segmentReady s = .next (becomeReady s) := by
  have hdue : readyDue s = true := by simp [readyDue, hstate, hi, hpre]
  exact (live_high hreset).trans (congrArg _ (if_pos hdue))

theorem exec_autoTrigger (hreset : s.pins.resetLow = false) (hstate : s.acq.state = .waiting) (hmode : s.setup.tmode = .auto)
    (hlate : s.setup.tauto * 125000 ≤ (s.acq.timeTag - s.acq.readyTick).toNat) :
    exec .autoTrigger s = .next (acceptTrigger .auto (autoDeadline s) s) := by
  have hdue : autoDue s = true := by
    simpa only [autoDue, hstate, hmode, decide_true, Bool.true_and, decide_eq_true_eq] using hlate
  exact (live_high hreset).trans (congrArg _ (if_pos hdue))

/-- R49: a trigger before the record is whole marks the segment and enters CAPTURING. -/
theorem acceptTrigger_enters {kind : TrigKind} {tag : Tick} {i : SegInfo} (hi : (curSeg s).info = some i)
    (h : i.geo.pre < i.geo.len) : acceptTrigger kind tag s = enterCapturing (markTrigger kind tag s) := by
  have hmarked : ∃ j, (curSeg (markTrigger kind tag s)).info = some j ∧ j.geo.pre < j.geo.len := by
    simp only [markTrigger, hi]
    exact ⟨{ i with
      trigTag := some tag, trigKind := some kind
      geo := { i.geo with origin := originFor s.acq.preCount i.geo.pre } }, by simp [curSeg, segAt, setSeg], h⟩
  obtain ⟨j, hj, hlt⟩ := hmarked
  simp only [acceptTrigger, hj, if_pos hlt]

/-- R49, R53: a trigger clears the count of points after it and leaves the primes. -/
theorem acceptTrigger_filling_counts {kind : TrigKind} {tag : Tick} {i : SegInfo} (hi : (curSeg s).info = some i)
    (h : i.geo.pre < i.geo.len) : ∀ t, t = acceptTrigger kind tag s →
    t.acq.postCount = 0 ∧ t.acq.risePrime = s.acq.risePrime ∧ t.acq.fallPrime = s.acq.fallPrime := by
  rintro t rfl
  rw [acceptTrigger_enters hi h]
  simp only [markTrigger, hi]
  exact ⟨rfl, rfl, rfl⟩

end

/-- Settles O28: READY alone, the AUTO trigger of an unfinished and of a whole record, and the force taken at READY. -/
theorem readyThenAutoTrigger : Obligations.ReadyThenAutoTrigger := by
  refine ⟨fun s r i hreset hstate hr hi hpre hquiet => ?_, fun s r i deadline hreset hstate hmode hr hi hlen hlate hd => ?_,
    fun s i deadline hreset hstate hmode hi hlen hlate hd => ?_,
    fun s r i hreset hstate hr hi hpre hforce => ⟨fun hlen => ?_, fun hlen => ?_⟩⟩
  · subst hr
    refine ⟨_, exec_segmentReady hreset hstate hi hpre, ?_⟩
    rw [becomeReady_quiet hquiet]
    exact ⟨rfl, segAt_markedReady_cur s, rfl, fun k => segAt_markedReady_other, rfl, rfl, rfl, rfl, rfl, rfl, rfl, rfl, rfl,
      rfl, rfl⟩
  · subst hr hd
    obtain ⟨hcapturing, hfilling, hothers, hlast, hmem⟩ :=
      acceptTrigger_filling (kind := .auto) (tag := autoDeadline s) (s := s) hi hlen
    obtain ⟨-, hmon, hraster, hlink⟩ :=
      acceptTrigger_filling_others (kind := .auto) (tag := autoDeadline s) (s := s) hi hlen _ rfl
    exact ⟨_, exec_autoTrigger hreset hstate hmode hlate, hcapturing, hfilling, hlast, hmem, hothers, by simp, by simp, hmon,
      hraster, by simp, by simp, by simp, hlink, by simp⟩
  · subst hd
    rw [exec_autoTrigger hreset hstate hmode hlate, exec_captureEnd_triggered hreset hlen]
    exact congrArg _ (acceptTrigger_whole .auto _ i s hi hlen)
  · subst hr
    have hmarked : (curSeg (markedReady s)).info = some i := by rw [curSeg_markedReady]; exact hi
    obtain ⟨hcapturing, hfilling, hothers, hlast, hmem⟩ :=
      acceptTrigger_filling (kind := .forced) (tag := s.acq.timeTag) (s := markedReady s) hmarked hlen
    obtain ⟨hpending, hmon, hraster, hlink⟩ :=
      acceptTrigger_filling_others (kind := .forced) (tag := s.acq.timeTag) (s := markedReady s) hmarked hlen _ rfl
    rw [curSeg_markedReady] at hfilling
    refine ⟨_, exec_segmentReady hreset hstate hi hpre, ?_⟩
    rw [becomeReady_forced hforce]
    exact ⟨hcapturing, hfilling, hlast, hpending, (acceptTrigger_filling_counts hmarked hlen _ rfl).1, hmem,
      fun k hk => (hothers k hk).trans (segAt_markedReady_other hk), by simp, by simp, hmon,
      hraster, by simp, by simp, by simp, hlink⟩
  · subst hr
    have hmarked : (curSeg (markedReady s)).info = some i := by rw [curSeg_markedReady]; exact hi
    refine ⟨(markedReady s).compose, ?_⟩
    rw [exec_segmentReady hreset hstate hi hpre, becomeReady_forced hforce, acceptTrigger_whole _ _ i _ hmarked hlen,
      triggered_markedReady]
    exact (exec_captureEnd_triggered (by exact hreset) hlen).symm

end Sys2Proof.Machine
end

section
/-! SUPPORT. The answer to SEG.READ and the checks of WAVE.READ (O32). -/

namespace Sys2Proof.Machine

/-! ## The record of a segment, byte by byte -/

theorem be_one_toNat (b : Byte) : be 1 b.toNat = [b] := by simp [be]

theorem presence_eq (i : SegInfo) : i.presence = BitVec.ofNat 8 (1 + (if i.trigKind.isSome then 2 else 0) +
    (if i.trigTag.isSome then 4 else 0) + (if i.outcome.isSome then 8 else 0) + (if i.meas.isSome then 16 else 0)) := by
  have hbit : ∀ (c : Nat) (b : Bool), c * b.toNat = if b then c else 0 := fun c b => by cases b <;> simp
  simp only [SegInfo.presence, hbit]

theorem outcomeCode_eq (o : Option SegOutcome) :
    codeOr SegOutcome.code o = match o with | some .rejected => 1 | _ => 0 := by
  rcases o with _ | _ | _ <;> rfl

theorem trigKindCode_eq (k : Option TrigKind) :
    codeOr TrigKind.code k = match k with | some .auto => 1 | some .forced => 2 | _ => 0 := by
  rcases k with _ | _ | _ | _ <;> rfl

theorem modeCode_eq (m : AcqMode) : beInt 1 m.code = [match m with | .sample => (0 : Byte) | .peak => 1] := by
  cases m <;> rfl

theorem trigTagBytes_eq (t : Option Tick) :
    be 6 (t.getD 0).toNat = match t with | some t => be 6 t.toNat | none => [0, 0, 0, 0, 0, 0] := by
  cases t <;> rfl

theorem exec_segRead {tag k : Byte} {items : List Byte} {s : State} (h : Ready 0x14 tag [k] s)
    (hitems : segItems k.toNat (segAt s k.toNat) = items) :
    exec (.segRead tag [k]) s = .next (answered 0x14 tag .ok items s) := by
  subst hitems
  exact (order_ready h _ _ rfl).trans (congrArg _ (answer_popInbound _ _ _ _ _))

/-! ## WAVE.READ -/

section
variable {tag : Byte} {body : List Byte} {s : State}

theorem exec_waveRead_refused {st : Status} (h : Ready 0x15 tag body s) (hlen : body.length = 12)
    (hchecks : waveChecks s tag body = .error st) :
    exec (.waveRead tag body) s = .next (answered 0x15 tag st [] s) := by
  have hpopped : waveChecks (popInbound s) tag body = .error st := hchecks
  refine (order_ready h _ _ (by simp [lenIs, hlen])).trans (congrArg _ ?_)
  simp only [hpopped, answer_popInbound]

theorem exec_waveRead_begun {w : WaveRead} (h : Ready 0x15 tag body s) (hlen : body.length = 12)
    (hchecks : waveChecks s tag body = .ok w) :
    exec (.waveRead tag body) s = .next { s with
      acq := { s.acq with waves := s.acq.waves ++ [w] }
      link := { s.link with inbound := s.link.inbound.drop 1 } } := by
  have hpopped : waveChecks (popInbound s) tag body = .ok w := hchecks
  refine (order_ready h _ _ (by simp [lenIs, hlen])).trans (congrArg _ ?_)
  simp only [hpopped]
  rfl

theorem waveChecks_wrongState {r : SegRecord} (hr : r = segAt s (byteAt body 0).toNat)
    (h : s.power.state = .standby ∨ r.state ≠ .done ∨ r.info = none) : waveChecks s tag body = .error .wrongState := by
  subst hr
  by_cases hpower : s.power.state = .standby
  · simp only [waveChecks, if_pos hpower]
  · simp only [waveChecks, if_neg hpower]
    rcases h.resolve_left hpower with hstate | hnone
    · cases (segAt s (byteAt body 0).toNat).info with
      | none => rfl
      | some i => simp only [if_pos hstate]
    · simp only [hnone]

end

/-! R67: the checks on a DONE segment outside STANDBY, in their order. -/

section
variable {tag : Byte} {body : List Byte} {s : State} {i : SegInfo} {n : Chan} (hpower : s.power.state ≠ .standby)
  (hstate : (segAt s (byteAt body 0).toNat).state = .done) (hi : (segAt s (byteAt body 0).toNat).info = some i)
include hpower hstate hi

theorem waveChecks_stale (hstale : (segAt s (byteAt body 0).toNat).serial ≠ BitVec.ofNat 32 (natAt body 1 4)) :
    waveChecks s tag body = .error .stale := by
  simp [waveChecks, hpower, hi, hstate, hstale]

variable (hserial : (segAt s (byteAt body 0).toNat).serial = BitVec.ofNat 32 (natAt body 1 4))
include hserial

theorem waveChecks_noChannel (hchan : Chan.ofNum? (byteAt body 5).toNat = none) :
    waveChecks s tag body = .error .badValue := by
  simp [waveChecks, hpower, hi, hstate, hserial, hchan]

variable (hchan : Chan.ofNum? (byteAt body 5).toNat = some n)
include hchan

theorem waveChecks_outside (hbad : i.geo.enabled.get n = false ∨ i.geo.len ≤ natAt body 6 4) :
    waveChecks s tag body = .error .badValue := by
  simp only [waveChecks, if_neg hpower, hi, hstate, hserial, hchan, ne_eq, not_true_eq_false, if_false]
  exact if_pos (hbad.imp_left fun hoff => by simp [hoff])

theorem waveChecks_ok {c : Nat} (henabled : i.geo.enabled.get n = true) (hfirst : natAt body 6 4 < i.geo.len)
    (hc : c = waveCount i.geo (natAt body 6 4) (natAt body 10 2)) :
    waveChecks s tag body = .ok ⟨tag, (byteAt body 0).toNat, BitVec.ofNat 32 (natAt body 1 4), n, natAt body 6 4, c,
      decide (c ≠ natAt body 10 2)⟩ := by
  subst hc
  simp only [waveChecks, if_neg hpower, hi, hstate, hserial, hchan, ne_eq, not_true_eq_false, if_false]
  exact if_neg (not_or.mpr ⟨by simp [henabled], Nat.not_le.mpr hfirst⟩)

end

/-- Settles O32: the record of a segment byte by byte, and the checks of WAVE.READ in their order. -/
theorem segReadAndWaveReadOrders : Obligations.SegReadAndWaveReadOrders := by
  refine ⟨fun tag k s h => ⟨fun hnone => ?_, fun i hi => ?_⟩,
    fun tag body s k first count ser r h hlen hk hser hfirst hcount hr => ?_⟩
  · refine exec_segRead h ?_
    simp only [segItems, hnone, be_one_toNat, List.singleton_append]
  · refine exec_segRead h ?_
    dsimp only [segItems, infoItems]
    rw [hi]
    dsimp only
    rw [be_one_toNat, presence_eq, outcomeCode_eq, trigKindCode_eq, modeCode_eq, trigTagBytes_eq]
    simp only [Chan.all, List.map_cons, List.map_nil, List.flatMap_cons, List.flatMap_nil, List.append_assoc,
      List.append_nil, List.cons_append, List.nil_append]
    rfl
  · subst hk hser hfirst hcount hr
    refine ⟨fun hrefused => exec_waveRead_refused h hlen (waveChecks_wrongState rfl hrefused),
      fun i hpower hstate hi => ⟨fun hstale => ?_, fun hserial hchan => ?_, fun n hserial hchan hbad => ?_,
        fun n c hserial hchan henabled hfirst hc => ?_⟩⟩
    · exact exec_waveRead_refused h hlen (waveChecks_stale hpower hstate hi hstale)
    · exact exec_waveRead_refused h hlen (waveChecks_noChannel hpower hstate hi hserial hchan)
    · exact exec_waveRead_refused h hlen (waveChecks_outside hpower hstate hi hserial hchan hbad)
    · exact exec_waveRead_begun h hlen (waveChecks_ok hpower hstate hi hserial hchan henabled hfirst hc)

end Sys2Proof.Machine
end

section
/-! SUPPORT. What a capture end measures: the adders over the points that stand, the limit flags, the flag sets, and the results as
flags of MON (O30). -/

namespace Sys2Proof.Machine

/-! ## The adders -/

section
variable {mode : AcqMode} (ps : List PointMeas) (a : Adders)

theorem foldl_add_min : (ps.foldl (Adders.add mode) a).min = ps.foldl (fun m p => Nat.min m p.lo.toNat) a.min := by
  induction ps generalizing a with
  | nil => rfl
  | cons p ps ih => exact ih _

theorem foldl_add_max : (ps.foldl (Adders.add mode) a).max = ps.foldl (fun m p => Nat.max m p.hi.toNat) a.max := by
  induction ps generalizing a with
  | nil => rfl
  | cons p ps ih => exact ih _

theorem foldl_add_ovr : (ps.foldl (Adders.add mode) a).ovr = (a.ovr || ps.any fun p => p.ovr) := by
  induction ps generalizing a with
  | nil => simp
  | cons p ps ih => simp [ih, Adders.add, Bool.or_assoc]

theorem foldl_add_sample : (ps.foldl (Adders.add .sample) a).sum = a.sum + (ps.map fun p => p.lo.toNat).sum ∧
    (ps.foldl (Adders.add .sample) a).n = a.n + ps.length := by
  induction ps generalizing a with
  | nil => simp
  | cons p ps ih =>
    obtain ⟨hsum, hn⟩ := ih (a.add .sample p)
    rw [List.foldl_cons, hsum, hn, List.map_cons, List.sum_cons, List.length_cons]
    simp only [Adders.add]
    omega

theorem foldl_add_peak :
    (ps.foldl (Adders.add .peak) a).sum = a.sum + (ps.map fun p => p.lo.toNat + p.hi.toNat).sum ∧
    (ps.foldl (Adders.add .peak) a).n = a.n + 2 * ps.length := by
  induction ps generalizing a with
  | nil => simp
  | cons p ps ih =>
    obtain ⟨hsum, hn⟩ := ih (a.add .peak p)
    rw [List.foldl_cons, hsum, hn, List.map_cons, List.sum_cons, List.length_cons]
    simp only [Adders.add]
    omega

end

theorem addersOf_eq_foldl (mode : AcqMode) (points : List (Nat × PerChan PointMeas)) (n : Chan) :
    addersOf mode points n = (points.map fun p => p.2.get n).foldl (Adders.add mode) .cleared := by
  rw [addersOf, List.foldl_map]

theorem addersAt_enabled {s : State} {g : Geometry} {n : Chan} (h : g.enabled.get n = true) :
    addersAt s g n = (s.acq.points.map fun p => p.2.get n).foldl (Adders.add g.mode) .cleared := by
  rw [addersAt, if_pos h, addersOf_eq_foldl]

theorem addersAt_disabled {s : State} {g : Geometry} {n : Chan} (h : g.enabled.get n = false) : addersAt s g n = .cleared :=
  if_neg (by simp [h])

/-! ## Thresholds, flag sets and rejection -/

/-- R75: the thresholds of a type that trips above them. -/
theorem trips_above {v : Int} {t : LimitType} {o : Option Int} (h : t = .ha ∨ t = .hw) :
    trips v t o = true ↔ ∃ x, o = some x ∧ x < v := by
  cases o with
  | none => simp [trips]
  | some x => rcases h with rfl | rfl <;> simp [trips]

/-- R75: the thresholds of a type that trips below them. -/
theorem trips_below {v : Int} {t : LimitType} {o : Option Int} (h : t = .la ∨ t = .lw) :
    trips v t o = true ↔ ∃ x, o = some x ∧ v < x := by
  cases o with
  | none => simp [trips]
  | some x => rcases h with rfl | rfl <;> simp [trips]

theorem mem_quantities (q : Quantity) : q ∈ quantities := by cases q <;> simp [quantities]

theorem mem_chanAll (n : Chan) : n ∈ Chan.all := by cases n <;> simp [Chan.all]

theorem any_quantities {f : Quantity → Bool} : quantities.any f = true ↔ ∃ q, f q = true := by
  simp [List.any_eq_true, mem_quantities]

/-- R76: the flag set of a measured channel, its types each over the four quantities. -/
theorem flagSetFor_eq {u : ChanSetup} {a : Adders} {hw : Nat} {lane : Bool} {l : LimitType → Bool}
    (hl : ∀ t, l t = true ↔ ∃ q, limitFlag u a hw q t = true) :
    flagSetFor u a hw lane = ⟨a.ovr, lane, l .ha, l .la, l .hw, l .lw⟩ := by
  have hany : ∀ t, quantities.any (fun q => limitFlag u a hw q t) = l t := fun t =>
    Bool.eq_iff_iff.mpr (any_quantities.trans (hl t).symm)
  simp only [flagSetFor, hany]

theorem rejects_iff {r : RejectSet} {f : FlagSet} : rejects r f = true ↔ r.ovr = true ∧ f.ovr = true ∨
    r.lane = true ∧ f.lane = true ∨ r.alarm = true ∧ (f.ha = true ∨ f.la = true) ∨
    r.warn = true ∧ (f.hw = true ∨ f.lw = true) := by
  simp only [rejects, Bool.or_eq_true, Bool.and_eq_true, or_assoc]

theorem rejectedBy_iff {s : State} {g : Geometry} {f : PerChan FlagSet} :
    rejectedBy s g f = true ↔ ∃ n, g.enabled.get n = true ∧ rejects (s.setup.ch.get n).reject (f.get n) = true := by
  simp [rejectedBy, List.any_eq_true, mem_chanAll]

/-! ## The results as flags -/

/-- The bits of a list of truth values added up, the first of them at position k + 2. -/
theorem testBit_zipIdx (bs : List Bool) (k acc : Nat) (hacc : acc < 2 ^ (2 + k)) (j : Nat) :
    ((bs.zipIdx k).foldl (fun acc b => acc + b.1.toNat * 2 ^ (2 + b.2)) acc).testBit j =
      if j < 2 + k then acc.testBit j else bs.getD (j - (2 + k)) false := by
  induction bs generalizing k acc with
  | nil =>
    simp only [List.zipIdx_nil, List.foldl_nil, List.getD_nil]
    split
    · rfl
    next hj => exact Nat.testBit_lt_two_pow (hacc.trans_le (Nat.pow_le_pow_right (by omega) (by omega)))
  | cons b bs ih =>
    have hbit : b.toNat ≤ 1 := Bool.toNat_le b
    have hnext : acc + b.toNat * 2 ^ (2 + k) < 2 ^ (2 + (k + 1)) := by
      have hpow : 2 ^ (2 + (k + 1)) = 2 ^ (2 + k) * 2 := Nat.pow_succ ..
      nlinarith
    have htest : (acc + b.toNat * 2 ^ (2 + k)).testBit j =
        if j < 2 + k then acc.testBit j else b.toNat.testBit (j - (2 + k)) := by
      rw [Nat.add_comm, Nat.mul_comm, Nat.testBit_two_pow_mul_add _ hacc]
    rw [List.zipIdx_cons, List.foldl_cons, ih (k + 1) _ hnext, htest]
    rcases Nat.lt_trichotomy j (2 + k) with hj | rfl | hj
    · rw [if_pos (by omega), if_pos hj, if_pos hj]
    · rw [if_pos (by omega), if_neg (Nat.lt_irrefl _), if_neg (Nat.lt_irrefl _), Nat.sub_self, List.getD_cons_zero]
      cases b <;> rfl
    · rw [if_neg (by omega), if_neg (by omega), show j - (2 + k) = j - (2 + (k + 1)) + 1 by omega, List.getD_cons_succ]

theorem foldl_bits_start (l : List (Bool × Nat)) (x : Nat) : l.foldl (fun acc b => acc + b.1.toNat * 2 ^ (2 + b.2)) x =
    x + l.foldl (fun acc b => acc + b.1.toNat * 2 ^ (2 + b.2)) 0 := by
  induction l generalizing x with
  | nil => rfl
  | cons b l ih =>
    rw [List.foldl_cons, List.foldl_cons, ih, ih (0 + _)]
    omega

/-- R77: the limit flags of a channel in their order. -/
def limitBits (u : ChanSetup) (a : Adders) (hw : Nat) : List Bool :=
  quantities.flatMap (fun q => limitTypes.map (fun t => limitFlag u a hw q t))

section
variable {u : ChanSetup} {a : Adders} {hw : Nat}

theorem limitBits_at (q : Quantity) (t : LimitType) : (limitBits u a hw).getD (4 * q.num + t.num) false = limitFlag u a hw q t := by
  cases q <;> cases t <;> rfl

theorem limitBits_length : (limitBits u a hw).length = 16 := rfl

theorem exists_limit_number {m : Nat} (h : m < 16) : ∃ (q : Quantity) (t : LimitType), m = 4 * q.num + t.num := by
  obtain ⟨q, hq⟩ : ∃ q : Quantity, q.num = m / 4 := by
    have : m / 4 < 4 := by omega
    interval_cases m / 4
    exacts [⟨.max, rfl⟩, ⟨.min, rfl⟩, ⟨.mean, rfl⟩, ⟨.pkpk, rfl⟩]
  obtain ⟨t, ht⟩ : ∃ t : LimitType, t.num = m % 4 := by
    have : m % 4 < 4 := by omega
    interval_cases m % 4
    exacts [⟨.ha, rfl⟩, ⟨.la, rfl⟩, ⟨.hw, rfl⟩, ⟨.lw, rfl⟩]
  exact ⟨q, t, by omega⟩

theorem limitBits_getD {m : Nat} : (limitBits u a hw).getD m false = true ↔
    ∃ q t, m = 4 * Quantity.num q + LimitType.num t ∧ limitFlag u a hw q t = true := by
  constructor
  · intro h
    have hm : m < 16 := by
      by_contra hge
      rw [List.getD_eq_default _ _ (by rw [limitBits_length]; omega)] at h
      exact absurd h (by simp)
    obtain ⟨q, t, rfl⟩ := exists_limit_number hm
    exact ⟨q, t, rfl, by rwa [limitBits_at] at h⟩
  · rintro ⟨q, t, rfl, h⟩
    rwa [limitBits_at]

/-- R77: the results of a channel as a number, its OVR at bit 0 and its limit flags from bit 2 on. -/
def resultBits (u : ChanSetup) (a : Adders) (hw : Nat) : Nat :=
  (limitBits u a hw).zipIdx.foldl (fun acc b => acc + b.1.toNat * 2 ^ (2 + b.2)) a.ovr.toNat

theorem resultFlags_eq (n : Chan) (u : ChanSetup) (a : Adders) (hw : Nat) :
    resultFlags n u a hw = BitVec.ofNat 76 (2 ^ (18 * (n.num - 1)) * resultBits u a hw) := by
  rw [resultBits, foldl_bits_start]
  rfl

theorem resultBits_testBit (j : Nat) : (resultBits u a hw).testBit j = true ↔ j = 0 ∧ a.ovr = true ∨
    ∃ q t, j = 2 + 4 * Quantity.num q + LimitType.num t ∧ limitFlag u a hw q t = true := by
  have hovr : a.ovr.toNat < 2 ^ (2 + 0) := by cases a.ovr <;> decide
  rw [resultBits, testBit_zipIdx _ 0 _ hovr]
  rcases Nat.lt_or_ge j 2 with hlt | hge
  · have hno : ¬ ∃ q t, j = 2 + 4 * Quantity.num q + LimitType.num t ∧ limitFlag u a hw q t = true := by
      rintro ⟨q, t, hj, -⟩
      omega
    rw [if_pos hlt, or_iff_left hno]
    interval_cases j <;> cases a.ovr <;> decide
  · have hzero : ¬ (j = 0 ∧ a.ovr = true) := fun h => by omega
    rw [if_neg (Nat.not_lt.mpr hge), or_iff_right hzero, limitBits_getD]
    exact exists₂_congr fun q t => and_congr_left' (by omega)

/-- R77: the flags that a measured channel's results set. -/
theorem resultFlags_bit (n : Chan) (f : Nat) : (resultFlags n u a hw).getLsbD f = true ↔
    f = 18 * (n.num - 1) ∧ a.ovr = true ∨
    ∃ q t, f = 18 * (n.num - 1) + 2 + 4 * Quantity.num q + LimitType.num t ∧ limitFlag u a hw q t = true := by
  have hplace : 18 * (n.num - 1) ≤ 54 := by cases n <;> decide
  have hnum : ∀ (q : Quantity) (t : LimitType), 4 * q.num + t.num < 16 := fun q t => by cases q <;> cases t <;> decide
  simp only [resultFlags_eq, BitVec.getLsbD_ofNat, Nat.testBit_two_pow_mul, Bool.and_eq_true, decide_eq_true_eq,
    resultBits_testBit]
  constructor
  · rintro ⟨-, hge, ⟨hzero, h⟩ | ⟨q, t, hj, h⟩⟩
    · exact .inl ⟨by omega, h⟩
    · exact .inr ⟨q, t, by omega, h⟩
  · rintro (⟨hf, h⟩ | ⟨q, t, hf, h⟩)
    · exact ⟨by omega, by omega, .inl ⟨by omega, h⟩⟩
    · have := hnum q t
      exact ⟨by omega, by omega, .inr ⟨q, t, by omega, h⟩⟩

end

/-- R79: the results of a capture end, flag by flag. -/
theorem resultsAt_bit (s : State) (g : Geometry) (f : Nat) : (resultsAt s g).getLsbD f = true ↔
    ∃ n : Chan, g.enabled.get n = true ∧
      (resultFlags n (s.setup.ch.get n) (addersAt s g n) (hwOf (g.range.get n))).getLsbD f = true := by
  have hfold : ∀ (ns : List Chan) (acc : BitVec 76), (ns.foldl (fun acc n => if g.enabled.get n then
      acc ||| resultFlags n (s.setup.ch.get n) (addersAt s g n) (hwOf (g.range.get n)) else acc) acc).getLsbD f = true ↔
      acc.getLsbD f = true ∨ ∃ n ∈ ns, g.enabled.get n = true ∧
        (resultFlags n (s.setup.ch.get n) (addersAt s g n) (hwOf (g.range.get n))).getLsbD f = true := by
    intro ns
    induction ns with
    | nil => simp
    | cons n ns ih =>
      intro acc
      rw [List.foldl_cons, ih, List.exists_mem_cons_iff]
      by_cases hn : g.enabled.get n = true
      · rw [if_pos hn, BitVec.getLsbD_or, Bool.or_eq_true, or_assoc, and_iff_right hn]
      · rw [if_neg hn, or_iff_right (a := g.enabled.get n = true ∧ _) fun h => hn h.1]
  rw [resultsAt, hfold]
  simp [mem_chanAll]

theorem measuredFlags_bit (f : Nat) : measuredFlags.getLsbD f = true ↔ f < 72 ∧ f % 18 ≠ 1 := by
  by_cases hf : f < 76
  · have hall : ∀ f < 76, measuredFlags.getLsbD f = true ↔ f < 72 ∧ f % 18 ≠ 1 := by decide
    exact hall f hf
  · rw [BitVec.getLsbD_of_ge _ _ (Nat.not_lt.mp hf)]
    simp only [Bool.false_eq_true, false_iff]
    omega

end Sys2Proof.Machine
end

section
/-! SUPPORT. A capture end that ends the run, and one that takes the capture again (O30). -/

namespace Sys2Proof.Machine

/-! ## MON -/

theorem enterNote_mon (src : NoteSource) (s : State) : (enterNote src s).mon = s.mon := rfl

theorem monOccur_mon (fs : BitVec 76) (s : State) : (monOccur fs s).mon =
    { s.mon with current := s.mon.current ||| fs, latched := s.mon.latched ||| fs } := by
  simp only [monOccur]
  split <;> rfl

theorem monEnd_mon (fs : BitVec 76) (s : State) :
    (monEnd fs s).mon = { s.mon with current := s.mon.current &&& ~~~fs } := rfl

theorem monCaptureEnd_mon (fs : BitVec 76) (s : State) : (monCaptureEnd fs s).mon =
    { s.mon with current := (s.mon.current &&& ~~~measuredFlags) ||| fs, latched := s.mon.latched ||| fs } :=
  monOccur_mon fs _

section
variable {s : State} {i : SegInfo} {rej : Bool}

theorem madeDone_mon : (madeDone s i (if rej then .rejected else .pass)).mon = { s.mon with
    current := if rej then ((s.mon.current &&& ~~~measuredFlags) ||| resultsAt s i.geo) ||| flagBit 75
      else ((s.mon.current &&& ~~~measuredFlags) ||| resultsAt s i.geo) &&& ~~~(flagBit 75)
    latched := if rej then (s.mon.latched ||| resultsAt s i.geo) ||| flagBit 75 else s.mon.latched ||| resultsAt s i.geo } := by
  have hdone : (makeDone s.acq.cur { i with
      flags := flagSetsAt s i, meas := some (measAt s i.geo), outcome := some (if rej then .rejected else .pass) }
      (monCaptureEnd (resultsAt s i.geo) s)).mon = (monCaptureEnd (resultsAt s i.geo) s).mon := rfl
  cases rej with
  | true => exact (monOccur_mon _ _).trans (by rw [hdone, monCaptureEnd_mon]; rfl)
  | false => exact (monEnd_mon _ _).trans (by rw [hdone, monCaptureEnd_mon]; rfl)

/-! ## The run ends -/

theorem segAt_madeDone_cur {o : SegOutcome} : segAt (madeDone s i o) s.acq.cur = ⟨.done, nextSerial s.acq.serialCounter,
    some { i with flags := flagSetsAt s i, meas := some (measAt s i.geo), outcome := some o }⟩ := by
  rw [segAt, madeDone_acq, tabGet_tabSet_same]

theorem segAt_madeDone_other {o : SegOutcome} {k : Nat} (hk : k ≠ s.acq.cur) : segAt (madeDone s i o) k = segAt s k := by
  rw [segAt, madeDone_acq, tabGet_tabSet_other _ _ _ _ _ hk, segAt]

/-- R51, R81: the state once the segment worked is DONE, with its automatic draw entry. -/
def drawnDone (s : State) (i : SegInfo) (o : SegOutcome) : State :=
  if i.geo.enabled.nonempty then enterAutomatic s.acq.cur (nextSerial s.acq.serialCounter) i.geo.enabled (madeDone s i o)
  else madeDone s i o

theorem drawnDone_acq (o : SegOutcome) : (drawnDone s i o).acq = (madeDone s i o).acq := by
  unfold drawnDone
  split <;> simp

theorem drawnDone_mon (o : SegOutcome) : (drawnDone s i o).mon = (madeDone s i o).mon := by
  unfold drawnDone
  split <;> simp

theorem drawnDone_raster (o : SegOutcome) {entry : DrawEntry}
    (hentry : entry = ⟨s.acq.cur, nextSerial s.acq.serialCounter, i.geo.enabled, decide (s.setup.persist = .off), true⟩) :
    (drawnDone s i o).raster = { s.raster with
      list := if i.geo.enabled.nonempty = false ∨ s.power.state = .standby then s.raster.list
      else if ∃ e ∈ s.raster.list, e.automatic = true then s.raster.list.map (fun e => if e.automatic then entry else e)
      else if s.raster.list.length < 8 then s.raster.list ++ [entry] else s.raster.list } := by
  obtain ⟨hraster, hsetup, -, hpower⟩ := madeDone_others (s := s) (i := i) (o := o)
  rw [drawnDone, drawn_raster (entry := entry) (by rw [hentry, hsetup]), hraster, hpower]

/-- R104: an automatic entry stands in a list that had one or had room. -/
theorem mem_listWithAuto {l : List DrawEntry} {entry : DrawEntry} {p : Prop} [Decidable p] (hp : ¬ p)
    (hroom : l.length < 8 ∨ ∃ e ∈ l, e.automatic = true) :
    entry ∈ (if p then l else if ∃ e ∈ l, e.automatic = true then l.map (fun e => if e.automatic then entry else e)
      else if l.length < 8 then l ++ [entry] else l) := by
  rw [if_neg hp]
  split
  next hany =>
    obtain ⟨e, he, hea⟩ := hany
    exact List.mem_map.mpr ⟨e, he, if_pos hea⟩
  next hno =>
    rw [if_pos (hroom.resolve_right hno)]
    exact List.mem_append_right _ (List.mem_singleton.mpr rfl)

/-- R51: when a run ends after a segment. -/
theorem runEnds_of {u : State} {k : Nat} {g : Geometry} {o : SegOutcome}
    (h : u.acq.runKind = .repeats ∧ u.acq.single = true ∨ u.acq.runKind = .segmented ∧ g.nEff ≤ k + 1 ∨
      o = .rejected ∧ u.setup.stoprej = true) : runEnds u k g o = true := by
  rcases h with ⟨hkind, hsingle⟩ | ⟨hkind, hlast⟩ | ⟨hreject, hstop⟩
  · simp [runEnds, hkind, hsingle]
  · simp [runEnds, hkind, hlast]
  · cases hkind : u.acq.runKind <;> simp [runEnds, hkind, hreject, hstop]

section
variable (hi : (curSeg s).info = some i) (hrej : rej = rejectedBy s i.geo (flagSetsAt s i))
  (hlast : rej = true → s.setup.recapture ≤ i.attempts)
  (hends : s.acq.runKind = .repeats ∧ s.acq.single = true ∨ s.acq.runKind = .segmented ∧ i.geo.nEff ≤ s.acq.cur + 1 ∨
    rej = true ∧ s.setup.stoprej = true)
include hi hrej hlast hends

/-- R50, R51: a capture end after which the run ends. -/
theorem captureEnd_ends :
    captureEnd s = enterStopped (enterNote .acq (drawnDone s i (if rej then .rejected else .pass))) := by
  have hsetup := (madeDone_others (s := s) (i := i) (o := if rej then .rejected else .pass)).2.1
  have hover : runEnds (madeDone s i (if rej then .rejected else .pass)) s.acq.cur i.geo (if rej then .rejected else .pass) =
      true := runEnds_of (by
    rw [madeDone_acq, hsetup]
    exact hends.imp_right (Or.imp_right fun ⟨hr, hstop⟩ => ⟨if_pos hr, hstop⟩))
  rw [captureEnd_finishes hi hrej hlast, drawnDone, ← segAt_madeDone (i := i) (o := if rej then .rejected else .pass)]
  change afterDone s.acq.cur i.geo _ (madeDone s i (if rej then .rejected else .pass)) = _
  simp only [afterDone, hover, Bool.or_true, Bool.true_and, if_true]

/-- R46, R50, R51: the records and ACQ after a capture end that ends the run. -/
theorem captureEnd_ends_acq : ∀ t, t = captureEnd s →
    segAt t s.acq.cur = ⟨.done, nextSerial s.acq.serialCounter, some { i with
      flags := flagSetsAt s i, meas := some (measAt s i.geo), outcome := some (if rej then .rejected else .pass) }⟩ ∧
    (∀ k, k ≠ s.acq.cur → segAt t k = segAt s k) ∧ t.acq.state = .stopped ∧ t.acq.runKind = .idle ∧ t.acq.single = false ∧
    t.acq.serialCounter = nextSerial s.acq.serialCounter ∧ t.acq.countDone = s.acq.countDone + 1 ∧
    t.acq.lastDone = some (s.acq.cur, nextSerial s.acq.serialCounter) ∧ ∃ e ∈ t.link.notes, e.src = .acq := by
  rintro t rfl
  obtain ⟨d, hd⟩ : ∃ d, d = drawnDone s i (if rej then .rejected else .pass) := ⟨_, rfl⟩
  have hacq := (congrArg State.acq hd).trans ((drawnDone_acq _).trans madeDone_acq)
  rw [captureEnd_ends hi hrej hlast hends, ← hd]
  have hsegs : d.acq.segs = (madeDone s i (if rej then .rejected else .pass)).acq.segs := by rw [hd, drawnDone_acq]
  have hseg : ∀ k, segAt (enterStopped (enterNote .acq d)) k = segAt (madeDone s i (if rej then .rejected else .pass)) k :=
    segAt_of_segs hsegs
  exact ⟨(hseg _).trans segAt_madeDone_cur, fun k hk => (hseg k).trans (segAt_madeDone_other hk), rfl, rfl, rfl,
    congrArg Acq.serialCounter hacq, congrArg Acq.countDone hacq, congrArg Acq.lastDone hacq, mem_enterNote _ _⟩

theorem captureEnd_ends_mon : (captureEnd s).mon = (madeDone s i (if rej then .rejected else .pass)).mon := by
  rw [captureEnd_ends hi hrej hlast hends, ← drawnDone_mon]
  rfl

theorem captureEnd_ends_raster : (captureEnd s).raster = (drawnDone s i (if rej then .rejected else .pass)).raster := by
  rw [captureEnd_ends hi hrej hlast hends]
  rfl

end

/-! ## The capture is taken again -/

/-- R50: the record of a capture taken again. -/
def againInfo (s : State) (i : SegInfo) : SegInfo := { i with
  generation := s.gen, geo := { i.geo with origin := 0 }, armTag := s.acq.timeTag, trigTag := none, trigKind := none
  attempts := i.attempts + 1, flags := .const .empty, meas := none, outcome := none }

theorem captureEnd_recaptures (hi : (curSeg s).info = some i) (hrej : rejectedBy s i.geo (flagSetsAt s i) = true)
    (hmore : i.attempts < s.setup.recapture) :
    captureEnd s = beginCapture s.acq.cur (againInfo s i) (monCaptureEnd (resultsAt s i.geo) s) := by
  have htaken : captureEnd s = recapture s.acq.cur i (monCaptureEnd (resultsAt s i.geo) s) := by
    simp only [captureEnd, hi]
    exact if_pos (by simp [hrej, hmore])
  rw [htaken, recapture, againInfo]
  simp

end

/-- R47, R48, R50: what a capture that begins anew into index k holds, a pending force with P = 0 taken at once. -/
def Began (k : Nat) (i : SegInfo) (s t : State) : Prop :=
  ∃ forced : Bool, (forced = true ↔ i.geo.pre = 0 ∧ s.acq.forcePending = true) ∧
    segAt t k = ⟨if forced then .filling else if i.geo.pre = 0 then .ready else .prefill, 0, some { i with
      trigTag := if forced then some s.acq.timeTag else i.trigTag
      trigKind := if forced then some .forced else i.trigKind }⟩ ∧
    (∀ j, j ≠ k → segAt t j = segAt s j) ∧
    t.acq.state = (if forced then .capturing else if i.geo.pre = 0 then .waiting else .arming) ∧ t.acq.cur = k ∧
    t.acq.runIndex = s.acq.runIndex ∧ t.acq.forcePending = (s.acq.forcePending && !forced) ∧
    t.acq.lastTrig = (if forced then some s.acq.timeTag else s.acq.lastTrig) ∧
    (i.geo.pre = 0 → t.acq.readyTick = i.armTag) ∧ t.acq.risePrime = false ∧ t.acq.fallPrime = false ∧
    t.acq.points = [] ∧ t.acq.ivCount = 0 ∧ t.acq.preCount = 0 ∧ t.acq.postCount = 0

theorem Began.congr {k : Nat} {i : SegInfo} {s u t : State} (h : Began k i s t) (hacq : s.acq = u.acq) : Began k i u t := by
  simp only [Began, segAt, hacq] at *
  exact h

theorem beginCapture_began (k : Nat) (i : SegInfo) (s : State) (horigin : i.geo.origin = 0) :
    Began k i s (beginCapture k i s) := by
  have hgeo : { i.geo with origin := 0 } = i.geo := by rw [← horigin]
  by_cases hpre : i.geo.pre = 0
  · cases hforce : s.acq.forcePending with
    | false =>
      refine ⟨false, by simp [hforce], ?_⟩
      simp only [beginCapture, readyAtOnce, setAcqState, rebuildAnnotation, clearPrimes, discardPoints, segAt, setSeg, hpre,
        hforce]
      simp
      exact fun j hj => tabGet_tabSet_other _ _ _ _ _ hj
    | true =>
      refine ⟨true, by simp [hpre, hforce], ?_⟩
      simp only [beginCapture, readyAtOnce, setAcqState, rebuildAnnotation, clearPrimes, discardPoints, segAt, setSeg, hpre,
        hforce, enterCapturing, markTrigger, curSeg, originFor]
      simp [hgeo]
      intro j hj
      rw [tabGet_tabSet_other _ _ _ _ _ hj, tabGet_tabSet_other _ _ _ _ _ hj, tabGet_tabSet_other _ _ _ _ _ hj]
  · refine ⟨false, by simp [hpre], ?_⟩
    simp only [beginCapture, setAcqState, rebuildAnnotation, clearPrimes, discardPoints, segAt, setSeg, hpre]
    simp
    exact fun j hj => tabGet_tabSet_other _ _ _ _ _ hj

/-- R50, R72: a capture end that takes the capture again. -/
theorem captureEnd_began {s : State} {i : SegInfo} (hi : (curSeg s).info = some i)
    (hrej : rejectedBy s i.geo (flagSetsAt s i) = true) (hmore : i.attempts < s.setup.recapture) :
    Began s.acq.cur (againInfo s i) s (captureEnd s) := by
  rw [captureEnd_recaptures hi hrej hmore]
  exact (beginCapture_began _ _ _ rfl).congr (by simp)

theorem captureEnd_again_frame {s : State} {i : SegInfo} (hi : (curSeg s).info = some i)
    (hrej : rejectedBy s i.geo (flagSetsAt s i) = true) (hmore : i.attempts < s.setup.recapture) : ∀ t, t = captureEnd s →
    t.acq.runKind = s.acq.runKind ∧ t.acq.single = s.acq.single ∧ t.acq.serialCounter = s.acq.serialCounter ∧
    t.acq.countDone = s.acq.countDone ∧ t.acq.lastDone = s.acq.lastDone ∧ t.acq.prevLayout = s.acq.prevLayout ∧
    t.acq.mem = s.acq.mem ∧ t.mon.current = (s.mon.current &&& ~~~measuredFlags) ||| resultsAt s i.geo ∧
    t.mon.latched = s.mon.latched ||| resultsAt s i.geo ∧ t.mon.mask = s.mon.mask ∧ t.raster = s.raster := by
  rintro t rfl
  rw [captureEnd_recaptures hi hrej hmore]
  simp [monCaptureEnd_mon]

/-! ## The statement -/

/-- R70, R71, R73: what the adders of a channel hold, and the measurements made of them. -/
theorem addersAt_holds (s : State) (g : Geometry) (n : Chan) (ps : List PointMeas) (a : Adders)
    (hps : ps = s.acq.points.map (fun p => p.2.get n)) (ha : a = addersAt s g n) :
    (g.enabled.get n = false → a = ⟨255, 0, 0, 0, false⟩) ∧
    (g.enabled.get n = true →
      a.min = ps.foldl (fun m p => Nat.min m p.lo.toNat) 255 ∧ a.max = ps.foldl (fun m p => Nat.max m p.hi.toNat) 0 ∧
      (g.mode = .sample → a.sum = (ps.map (fun p => p.lo.toNat)).sum ∧ a.n = ps.length) ∧
      (g.mode = .peak → a.sum = (ps.map (fun p => p.lo.toNat + p.hi.toNat)).sum ∧ a.n = 2 * ps.length) ∧
      a.ovr = ps.any (fun p => p.ovr)) ∧
    (measAt s g).get n = (if g.enabled.get n then
      ⟨BitVec.ofNat 8 a.min, BitVec.ofNat 8 a.max, (32 * a.sum + a.n) / (2 * a.n)⟩ else ⟨0, 0, 0⟩) := by
  subst hps ha
  refine ⟨addersAt_disabled, fun hon => ?_, get_ofFn _ _⟩
  rw [addersAt_enabled hon]
  refine ⟨foldl_add_min _ _, foldl_add_max _ _, fun hmode => ?_, fun hmode => ?_, ?_⟩
  · rw [hmode, (foldl_add_sample _ _).1, (foldl_add_sample _ _).2]
    simp [Adders.cleared]
  · rw [hmode, (foldl_add_peak _ _).1, (foldl_add_peak _ _).2]
    simp [Adders.cleared]
  · rw [foldl_add_ovr]
    rfl

/-- Settles O30: the capture that passes and the one taken again, then the adders, the limit flags, the flag sets, the results,
and the segment that ends its run. -/
theorem captureEndFinishesOrRecaptures : Obligations.CaptureEndFinishesOrRecaptures := by
  refine ⟨fun s i hreset hstate hi hlen hkind hsingle hon hpower hroom => ⟨fun hpass => ?_, fun hrej hmore hforce => ?_⟩,
    fun s i hreset hstate hi hlen hrej hmore => ?_,
    ⟨addersAt_holds, fun a hw => ⟨rfl, rfl, rfl, rfl⟩, fun u a hw q => ⟨_, rfl, trips_above (.inl rfl), trips_below (.inl rfl),
        trips_above (.inr rfl), trips_below (.inr rfl)⟩, fun s i n l hl => ⟨fun hon => ?_, fun hoff => ?_⟩, fun s g f => ?_⟩,
    fun s g f => ?_, measuredFlags_bit, fun s i rej hreset hstate hi hlen hrej hlast hends => ?_⟩
  · have hends : s.acq.runKind = .repeats ∧ s.acq.single = true ∨ s.acq.runKind = .segmented ∧ i.geo.nEff ≤ s.acq.cur + 1 ∨
        false = true ∧ s.setup.stoprej = true := .inl ⟨hkind, hsingle⟩
    have hnever : false = true → s.setup.recapture ≤ i.attempts := nofun
    obtain ⟨hdone, hothers, hstopped, hidle, hsingle', hserial, hcount, hlast, hnote⟩ :=
      captureEnd_ends_acq hi hpass.symm hnever hends _ rfl
    refine ⟨_, _, exec_captureEnd hreset hstate hi hlen, nextSerial_eq _, hdone, hstopped, hidle, hsingle', hserial, hcount,
      hlast, by simp, ?_, hnote, hothers, by simp, by simp, by simp, by simp, by simp, by simp, by simp⟩
    rw [captureEnd_ends_raster hi hpass.symm hnever hends, drawnDone_raster _ rfl]
    exact ⟨_, mem_listWithAuto (by simp [hon, hpower]) hroom, rfl, rfl, rfl, rfl⟩
  · obtain ⟨forced, hforced, hseg, -, hbegun, -, -, -, htrig, -⟩ := captureEnd_began hi hrej hmore
    obtain ⟨-, hsingle', hserial, hcount, -, -, hmem, -, -, -, hraster⟩ := captureEnd_again_frame hi hrej hmore _ rfl
    obtain rfl : forced = false := by simpa [hforce] using hforced
    exact ⟨_, exec_captureEnd hreset hstate hi hlen, hseg, hbegun, hsingle'.trans hsingle, hserial, hcount, htrig, hmem, hraster,
      by simp, by simp⟩
  · obtain ⟨forced, hforced, hseg, hothers, hbegun, hcur, hindex, hpending, htrig, hready, hrise, hfall, hpoints, hcodes, hpre,
      hpost⟩ := captureEnd_began hi hrej hmore
    obtain ⟨hkind, hsingle, hserial, hcount, hlast, hlayout, hmem, hcurrent, hlatched, hmask, hraster⟩ :=
      captureEnd_again_frame hi hrej hmore _ rfl
    exact ⟨_, forced, exec_captureEnd hreset hstate hi hlen, hforced, hseg, hothers, hbegun, hcur, hkind, hsingle, hindex,
      hpending, htrig, hready, hrise, hfall, hpoints, hcodes, hpre, hpost, hserial, hcount, hlast, hlayout, hmem, hcurrent,
      hlatched, hmask, hraster, by simp, by simp, by simp, by simp, by simp, by simp, by simp⟩
  · rw [flagSetsAt, get_ofFn, if_pos hon]
    exact flagSetFor_eq hl
  · rw [flagSetsAt, get_ofFn, if_neg (by simp [hoff])]
    rfl
  · simp only [rejectedBy_iff, rejects_iff, exists_and_left, exists_eq_left]
  · simp only [resultsAt_bit, resultFlags_bit]
  · have hends' := hends.imp_right (Or.imp_right And.right)
    obtain ⟨hdone, hothers, hstopped, hidle, hsingle, -, hcount, hlast', -⟩ := captureEnd_ends_acq hi hrej hlast hends' _ rfl
    have hmon := (captureEnd_ends_mon hi hrej hlast hends').trans madeDone_mon
    refine ⟨_, _, exec_captureEnd hreset hstate hi hlen, nextSerial_eq _, hdone, hothers, ?_, ?_, ?_, hstopped, hidle, hsingle,
      hcount, hlast', by simp, by simp, by simp, by simp, by simp, by simp⟩ <;> rw [hmon]

end Sys2Proof.Machine
end

section
/-! SUPPORT. One code while a crossing can trigger: what the detector sees, the primes it leaves, and the trigger it gives (O29). -/

namespace Sys2Proof.Machine

/-! ## The level code -/

theorem clampInt_eq (lo hi v : Int) (h : lo ≤ hi) : clampInt lo hi v = max lo (min hi v) := by
  unfold clampInt
  split
  · omega
  · split <;> omega

/-- R52: the level code, with one fraction of TLEVEL for each sign. -/
theorem levelCode_eq (u : Setup) (n : Chan) (hw : Int) (h : hw = hwOf (rangeOf (u.ch.get n).scale)) :
    levelCode u n = max 1 (min 254 (128 +
      (if 0 ≤ u.tlevel then (50 * u.tlevel + hw) / (2 * hw) else -((-(50 * u.tlevel) + hw) / (2 * hw))))) := by
  subst h
  have hround : roundHalfAway (u.tlevel * 25) (hwOf (u.range n)) =
      if 0 ≤ u.tlevel then (50 * u.tlevel + (hwOf (rangeOf (u.ch.get n).scale) : Int)) / (2 * hwOf (rangeOf (u.ch.get n).scale))
      else -((-(50 * u.tlevel) + (hwOf (rangeOf (u.ch.get n).scale) : Int)) / (2 * hwOf (rangeOf (u.ch.get n).scale))) := by
    have hpos : 2 * (u.tlevel * 25) = 50 * u.tlevel := by omega
    have hneg : 2 * -(u.tlevel * 25) = -(50 * u.tlevel) := by omega
    rw [roundHalfAway, hpos, hneg, Setup.range]
    exact if_congr (by omega) rfl rfl
  rw [levelCode, hround, clampInt_eq _ _ _ (by omega)]

/-! ## What the detector sees -/

/-- R26, R53: what the detector sees of a code that has passed the lanes. -/
def seenOf (x : Sample) (s : State) : Seen := seen s.setup (.ofFn (passedCode s x)) x.ext

section
variable {x : Sample} {s : State}

theorem seenOf_chan {n : Chan} (h : s.setup.tsrc = .chan n) : seenOf x s =
    ⟨decide (((passedCode s x n).toNat : Int) ≤ levelCode s.setup n - s.setup.thyst),
      decide (levelCode s.setup n + s.setup.thyst ≤ (passedCode s x n).toNat),
      decide (levelCode s.setup n ≤ (passedCode s x n).toNat), decide (((passedCode s x n).toNat : Int) ≤ levelCode s.setup n)⟩ := by
  simp only [seenOf, seen, h, get_ofFn]

theorem seenOf_ext (h : s.setup.tsrc = .ext) : seenOf x s = ⟨!x.ext, x.ext, x.ext, !x.ext⟩ := by
  simp only [seenOf, seen, h]

/-- R52, R53: what it is for the code or the level of the source to stand at or beyond the level. -/
theorem seenOf_levels {high low : Bool} (h : match s.setup.tsrc with
     | .chan n =>
       let c : Int := (if s.pins.lock.get n then x.code.get n else s.acq.held.get n).toNat
       high = decide (levelCode s.setup n ≤ c) ∧ low = decide (c ≤ levelCode s.setup n)
     | .ext => high = x.ext ∧ low = !x.ext) : high = (seenOf x s).high ∧ low = (seenOf x s).low := by
  cases hsrc : s.setup.tsrc with
  | chan n =>
    rw [hsrc] at h
    rw [seenOf_chan hsrc]
    exact h
  | ext =>
    rw [hsrc] at h
    rw [seenOf_ext hsrc]
    exact h

/-- R53: what it is for the code or the level of the source to set a prime, too. -/
theorem seenOf_eq {high low setsRise setsFall : Bool} (h : match s.setup.tsrc with
     | .chan n =>
       let c : Int := (if s.pins.lock.get n then x.code.get n else s.acq.held.get n).toNat
       let v := levelCode s.setup n
       high = decide (v ≤ c) ∧ low = decide (c ≤ v) ∧ setsRise = decide (c ≤ v - s.setup.thyst) ∧
         setsFall = decide (v + s.setup.thyst ≤ c)
     | .ext => high = x.ext ∧ low = !x.ext ∧ setsRise = !x.ext ∧ setsFall = x.ext) :
    seenOf x s = ⟨setsRise, setsFall, high, low⟩ := by
  cases hsrc : s.setup.tsrc with
  | chan n =>
    rw [hsrc] at h
    obtain ⟨rfl, rfl, rfl, rfl⟩ := h
    exact seenOf_chan hsrc
  | ext =>
    rw [hsrc] at h
    obtain ⟨rfl, rfl, rfl, rfl⟩ := h
    exact seenOf_ext hsrc

/-- R53: a crossing that TSLOPE asks for, its prime set. -/
def crosses (x : Sample) (s : State) : Bool :=
  candidate s.setup.tslope (s.acq.risePrime && (seenOf x s).high) (s.acq.fallPrime && (seenOf x s).low)

theorem crosses_iff : crosses x s = true ↔
    s.setup.tslope ≠ .fall ∧ s.acq.risePrime = true ∧ (seenOf x s).high = true ∨
    s.setup.tslope ≠ .rise ∧ s.acq.fallPrime = true ∧ (seenOf x s).low = true := by
  unfold crosses
  cases s.setup.tslope <;> simp [candidate]

theorem holdoffPassed_iff {tick : Tick} : holdoffPassed s tick = true ↔
    s.acq.lastTrig = none ∨ ∃ l, s.acq.lastTrig = some l ∧ s.setup.holdoff * 125 ≤ (tick - l).toNat := by
  unfold holdoffPassed
  cases s.acq.lastTrig <;> simp

/-! ## The code -/

/-- R32, R42, R53: a code has joined the interval, its nanosecond has passed, and the detector has its primes. -/
def observed (x : Sample) (s : State) : State :=
  let w := advanceNs (joinCode x s)
  { w with acq := { w.acq with
      risePrime := (s.acq.risePrime && !(seenOf x s).high) || (seenOf x s).setsRise
      fallPrime := (s.acq.fallPrime && !(seenOf x s).low) || (seenOf x s).setsFall } }

theorem observed_eq (x : Sample) (s : State) : ∃ held ns wraps iv, observed x s = { s with
    pins := { s.pins with lanes := x }
    acq := { s.acq with
      held := held, nsPhase := ns, timeTag := if s.acq.nsPhase < 7 then s.acq.timeTag else s.acq.timeTag + 1
      wraps := wraps, ivCount := s.acq.ivCount + 1, iv := iv
      risePrime := (s.acq.risePrime && !(seenOf x s).high) || (seenOf x s).setsRise
      fallPrime := (s.acq.fallPrime && !(seenOf x s).low) || (seenOf x s).setsFall } } := by
  have hphase : (joinCode x s).acq.nsPhase = s.acq.nsPhase := rfl
  simp only [observed, advanceNs, hphase]
  split
  · exact ⟨_, _, _, _, rfl⟩
  · exact ⟨_, _, _, _, rfl⟩

@[simp] theorem observed_frame (x : Sample) (s : State) : (observed x s).acq.state = s.acq.state ∧
    (observed x s).acq.cur = s.acq.cur ∧ (observed x s).acq.segs = s.acq.segs ∧ (observed x s).acq.mem = s.acq.mem ∧
    (observed x s).acq.preCount = s.acq.preCount ∧ (observed x s).acq.lastTrig = s.acq.lastTrig ∧
    (observed x s).setup = s.setup ∧ (observed x s).gen = s.gen ∧ (observed x s).mon = s.mon ∧
    (observed x s).raster = s.raster ∧ (observed x s).panel = s.panel ∧ (observed x s).store = s.store ∧
    (observed x s).power = s.power ∧ (observed x s).link = s.link := by
  obtain ⟨_, _, _, _, hobserved⟩ := observed_eq x s
  rw [hobserved]
  exact ⟨rfl, rfl, rfl, rfl, rfl, rfl, rfl, rfl, rfl, rfl, rfl, rfl, rfl, rfl⟩

theorem observed_risePrime (h : (seenOf x s).high = true) : (observed x s).acq.risePrime = (seenOf x s).setsRise := by
  simp [observed, h]

theorem observed_fallPrime (h : (seenOf x s).low = true) : (observed x s).acq.fallPrime = (seenOf x s).setsFall := by
  simp [observed, h]

theorem segAt_observed (k : Nat) : segAt (observed x s) k = segAt s k := segAt_of_segs (by simp) k

theorem curSeg_observed : curSeg (observed x s) = curSeg s := by
  rw [curSeg, segAt_observed, curSeg]
  simp

/-- R32: the code joins the interval of a capture in flight. -/
theorem accumulate_passLanes (h : inFlight s = true) : accumulate (.ofFn (passedCode s x)) (passLanes x s) = joinCode x s := by
  rw [accumulate_inFlight (s := passLanes x s) h]
  simp only [get_ofFn]
  rfl

theorem settle_waiting (hstate : s.acq.state = .waiting) (hfull : intervalFull s = false) (hauto : autoOverdue s = false) :
    settle s = s := by
  have hready : readyDue s = false := by simp [readyDue, hstate]
  have hend : endDue s = false := by simp [endDue, hstate]
  have hcolumns : columnsDone s = false := by simp [columnsDone, hstate]
  have hrelease : releaseDue s = false := by simp [releaseDue, hstate]
  rw [settle, whenDue_of_not hfull, whenDue_of_not hready, whenDue_of_not hend, whenDue_of_not hcolumns, whenDue_of_not hauto,
    whenDue_of_not hrelease]

/-- R53: in PREFILL and in READY the detector takes the code, and in READY it can trigger. -/
theorem detect_observed (hstate : s.acq.state = .arming ∨ s.acq.state = .waiting) :
    detect (.ofFn (passedCode s x)) x.ext s.acq.timeTag (advanceNs (joinCode x s)) =
      if s.acq.state = .waiting ∧ crosses x s = true ∧ holdoffPassed s s.acq.timeTag = true then
        acceptTrigger .edge s.acq.timeTag (observed x s)
      else observed x s := by
  obtain ⟨w, hw⟩ : ∃ w, w = advanceNs (joinCode x s) := ⟨_, rfl⟩
  have hobserved : observed x s = { w with acq := { w.acq with
      risePrime := (s.acq.risePrime && !(seenOf x s).high) || (seenOf x s).setsRise
      fallPrime := (s.acq.fallPrime && !(seenOf x s).low) || (seenOf x s).setsFall } } := hw ▸ rfl
  have hkept : w.acq.state = s.acq.state ∧ w.setup = s.setup ∧ w.acq.lastTrig = s.acq.lastTrig ∧
      w.acq.risePrime = s.acq.risePrime ∧ w.acq.fallPrime = s.acq.fallPrime := by
    rw [hw, advanceNs]
    split <;> exact ⟨rfl, rfl, rfl, rfl, rfl⟩
  obtain ⟨hwstate, hsetup, htrig, hrise, hfall⟩ := hkept
  have hholdoff : holdoffPassed w s.acq.timeTag = holdoffPassed s s.acq.timeTag := by simp only [holdoffPassed, htrig, hsetup]
  rw [← hw, hobserved]
  rcases hstate with hs | hs
  · simp only [detect, hwstate, hsetup, hrise, hfall, hholdoff, hs]
    rfl
  · simp only [detect, hwstate, hsetup, hrise, hfall, hholdoff, hs, decide_true, Bool.true_and, true_and, ← Bool.and_eq_true]
    rfl

/-- R54: the row EDGE_TRIGGER with one code, in PREFILL or in READY. -/
theorem exec_edgeTrigger_one {i : SegInfo} (hreset : s.pins.resetLow = false) (hi : (curSeg s).info = some i)
    (hregion : (s.acq.cur + 1) * i.geo.size ≤ memSize) (hcount : s.acq.ivCount < i.geo.interval)
    (hquiet : s.acq.state = .waiting ∧ autoOverdue s = false ∨ s.acq.state = .arming ∧ s.acq.preCount < i.geo.pre) :
    exec (.edgeTrigger [x]) s = .next (scanAtTick
      (if s.acq.state = .waiting ∧ crosses x s = true ∧ holdoffPassed s s.acq.timeTag = true then
        acceptTrigger .edge s.acq.timeTag (observed x s)
      else observed x s)) := by
  have hfull : intervalFull s = false := intervalFull_not (.inr ⟨i, hi, hcount⟩)
  have hsettle : settle s = s := by
    rcases hquiet with ⟨hs, hauto⟩ | hprefill
    · exact settle_waiting hs hfull hauto
    · exact Taking.settle (i := i) ⟨hi, .inr (.inl hprefill)⟩ hcount
  have hstate : s.acq.state = .arming ∨ s.acq.state = .waiting := hquiet.symm.imp And.left And.left
  have hflight : inFlight s = true := by
    rcases hstate with hs | hs <;> simp only [inFlight, hs]
  rw [exec_edgeTrigger hreset (captureExists_of_region hi hregion), List.foldl_cons, List.foldl_nil, passCode, takeCode, hsettle]
  rw [← detect_observed hstate, ← accumulate_passLanes hflight]
  rfl

end

/-! ## A crossing in READY -/

section
variable {x : Sample} {s : State} {i : SegInfo}

/-- R49, R54: an accepted crossing before the record is whole. -/
theorem acceptTrigger_observed (hi : (curSeg s).info = some i) (hlen : i.geo.pre < i.geo.len) :
    ∀ t, t = acceptTrigger .edge s.acq.timeTag (observed x s) → t.acq.state = .capturing ∧
      segAt t s.acq.cur = { curSeg s with state := .filling, info := some { i with
        trigTag := some s.acq.timeTag, trigKind := some .edge
        geo := { i.geo with origin := if i.geo.pre = 0 then 0 else s.acq.preCount % i.geo.pre } } } ∧
      t.acq.lastTrig = some s.acq.timeTag ∧ t.acq.postCount = 0 ∧ t.acq.mem = s.acq.mem ∧
      (∀ k, k ≠ s.acq.cur → segAt t k = segAt s k) ∧ t.setup = s.setup ∧ t.gen = s.gen ∧ t.mon = s.mon ∧
      t.raster = s.raster ∧ t.panel = s.panel ∧ t.store = s.store ∧ t.power = s.power ∧ t.link = s.link ∧
      t.acq.risePrime = ((s.acq.risePrime && !(seenOf x s).high) || (seenOf x s).setsRise) ∧
      t.acq.fallPrime = ((s.acq.fallPrime && !(seenOf x s).low) || (seenOf x s).setsFall) := by
  rintro t rfl
  have hi' : (curSeg (observed x s)).info = some i := by rw [curSeg_observed, hi]
  obtain ⟨hstate, hfilling, hothers, hlast, hmem⟩ := acceptTrigger_filling (kind := .edge) (tag := s.acq.timeTag) hi' hlen
  obtain ⟨-, hmon, hraster, hlink⟩ := acceptTrigger_filling_others (kind := .edge) (tag := s.acq.timeTag) hi' hlen _ rfl
  obtain ⟨hpost, hrise, hfall⟩ := acceptTrigger_filling_counts (kind := .edge) (tag := s.acq.timeTag) hi' hlen _ rfl
  simp only [curSeg_observed, segAt_observed, observed_frame] at hfilling hmem hothers hmon hraster hlink
  exact ⟨hstate, hfilling, hlast, hpost, hmem, hothers, by simp, by simp, hmon, hraster, by simp, by simp, by simp, hlink, hrise,
    hfall⟩

end

/-! ## The statement -/

/-- Settles O29: a crossing accepted or discarded, the primes it leaves, the crossing that is a capture end, and the level
code. -/
theorem edgeCrossingTriggers : Obligations.EdgeCrossingTriggers := by
  refine ⟨fun x s r i high low hreset hstate hr hi hlen hregion hcount hauto hsees hcross => ?_,
    fun x s i high low setsRise setsFall hreset hi hregion hcount hquiet hsees => ?_,
    fun x s i high low hreset hstate hi hlen hregion hcount hauto hsees hcross hholdoff => ?_, levelCode_eq⟩
  · subst hr
    obtain ⟨rfl, rfl⟩ := seenOf_levels hsees
    have hexec := exec_edgeTrigger_one (x := x) hreset hi hregion hcount (.inl ⟨hstate, hauto⟩)
    refine ⟨fun hholdoff => ?_, fun l hlast hholdoff => ?_⟩
    · rw [if_pos ⟨hstate, crosses_iff.mpr hcross, holdoffPassed_iff.mpr hholdoff⟩] at hexec
      obtain ⟨hstate', hseg, hlast, hpost, hmem, hothers, hsetup, hgen, hmon, hraster, hpanel, hstore, hpower, hlink, -⟩ :=
        acceptTrigger_observed (x := x) hi hlen _ rfl
      exact ⟨_, hexec, hstate', hseg, hlast, hpost, hmem, hothers, hsetup, hgen, hmon, hraster, hpanel, hstore, hpower, hlink⟩
    · have hdiscarded : holdoffPassed s s.acq.timeTag = false := by
        rw [← Bool.not_eq_true, holdoffPassed_iff, hlast]
        simpa using hholdoff
      rw [if_neg (by simp [hdiscarded])] at hexec
      exact ⟨_, hexec, by simp [hstate], by simp, by simp, by simp, observed_risePrime, observed_fallPrime⟩
  · have hseen := seenOf_eq hsees
    have hexec := exec_edgeTrigger_one (x := x) hreset hi hregion hcount (hquiet.imp_left fun h => ⟨h.1, h.2.1⟩)
    have hprimes : (observed x s).acq.risePrime = (setsRise || s.acq.risePrime && !high) ∧
        (observed x s).acq.fallPrime = (setsFall || s.acq.fallPrime && !low) := by
      simp only [observed, hseen, Bool.or_comm, and_self]
    by_cases htriggers : s.acq.state = .waiting ∧ crosses x s = true ∧ holdoffPassed s s.acq.timeTag = true
    · have hlen : i.geo.pre < i.geo.len := by
        rcases hquiet with ⟨-, -, hlen⟩ | ⟨harming, -⟩
        · exact hlen
        · exact absurd (harming.symm.trans htriggers.1) (by decide)
      rw [if_pos htriggers] at hexec
      obtain ⟨-, hrise, hfall⟩ := acceptTrigger_filling_counts (kind := .edge) (tag := s.acq.timeTag) (s := observed x s)
        (by rw [curSeg_observed]; exact hi) hlen _ rfl
      exact ⟨_, hexec, hrise.trans hprimes.1, hfall.trans hprimes.2, fun harming =>
        absurd (harming.symm.trans htriggers.1) (by decide)⟩
    · rw [if_neg htriggers] at hexec
      exact ⟨_, hexec, hprimes.1, hprimes.2, fun harming => ⟨by simp [harming], by simp, by simp⟩⟩
  · obtain ⟨rfl, rfl⟩ := seenOf_levels hsees
    have hexec := exec_edgeTrigger_one (x := x) hreset hi hregion hcount (.inl ⟨hstate, hauto⟩)
    rw [if_pos ⟨hstate, crosses_iff.mpr hcross, holdoffPassed_iff.mpr hholdoff⟩,
      acceptTrigger_whole _ _ i _ (by rw [curSeg_observed]; exact hi) hlen] at hexec
    obtain ⟨held, ns, wraps, iv, hobserved⟩ := observed_eq x s
    rw [hobserved] at hexec
    exact ⟨held, ns, wraps, iv, _, _, _, exec_captureEnd_triggered hreset hlen, hexec⟩

end Sys2Proof.Machine
end

section
/-! SUPPORT. The sets of the flag table bit by bit, and the ten bytes of a set read back (R213). -/

namespace Sys2Proof.Machine

/-! ## One flag of a set -/

theorem getLsbD_flagBit (f k : Nat) : (flagBit f).getLsbD k = (decide (k < 76) && decide (f = k)) := by
  rw [flagBit, BitVec.getLsbD_ofNat, Nat.testBit_two_pow]

/-- R78: an occurrence of a flag that is current leaves the set as it was. -/
theorem or_flagBit_of_set {v : BitVec 76} {f : Nat} (h : v.getLsbD f = true) : v ||| flagBit f = v := by
  refine BitVec.eq_of_getLsbD_eq fun k _ => ?_
  rw [BitVec.getLsbD_or, getLsbD_flagBit]
  by_cases hk : f = k
  · simp [← hk, h]
  · simp [hk]

/-! ## Numbers from their bits -/

/-- Horner's rule over bits: bit `i` from the front of `n` bits stands at `n - 1 - i`. -/
theorem testBit_foldl_bits (b : Nat → Bool) {n i : Nat} (hi : i < n) :
    ((List.range n).foldl (fun acc i => acc * 2 + (b i).toNat) 0).testBit (n - 1 - i) = b i := by
  induction n with
  | zero => exact absurd hi (Nat.not_lt_zero i)
  | succ n ih =>
    rw [List.range_succ, List.foldl_concat, Nat.mul_comm, ← Nat.bit_val]
    rcases Nat.lt_succ_iff_lt_or_eq.mp hi with hlt | rfl
    · rw [show n + 1 - 1 - i = (n - 1 - i).succ by omega, Nat.testBit_bit_succ]
      exact ih hlt
    · rw [show i + 1 - 1 - i = 0 by omega, Nat.testBit_bit_zero]

/-- The first `n` bits of a number, each with its weight, add up to the number modulo `2 ^ n`. -/
theorem foldl_testBit_weights (x n : Nat) :
    (List.range n).foldl (fun acc f => acc + (x.testBit f).toNat * 2 ^ f) 0 = x % 2 ^ n := by
  induction n with
  | zero => simp [Nat.mod_one]
  | succ n ih =>
    rw [List.range_succ, List.foldl_concat, ih, Nat.toNat_testBit, Nat.mod_pow_succ, Nat.mul_comm (2 ^ n)]

/-! ## The ten bytes of a set -/

/-- R213: flag 8j + i is bit 7 - i of byte j. -/
theorem getLsbD_flagSetByte (v : BitVec 76) (j : Nat) {i : Nat} (hi : i < 8) :
    (flagSetByte v j).getLsbD (7 - i) = v.getLsbD (8 * j + i) := by
  have hbit := testBit_foldl_bits (fun i => v.getLsbD (8 * j + i)) hi
  rw [flagSetByte, BitVec.getLsbD_ofNat, hbit, decide_eq_true (by omega), Bool.true_and]

theorem byteAt_flagSetBytes (v : BitVec 76) {j : Nat} (hj : j < 10) : byteAt (flagSetBytes v) j = flagSetByte v j := by
  simp [byteAt, flagSetBytes, hj]

theorem getLsbD_byteAt_flagSetBytes (v : BitVec 76) {f : Nat} (hf : f < 80) :
    (byteAt (flagSetBytes v) (f / 8)).getLsbD (7 - f % 8) = v.getLsbD f := by
  rw [byteAt_flagSetBytes v (by omega), getLsbD_flagSetByte v _ (Nat.mod_lt f (by omega)), Nat.div_add_mod]

/-- R89: the ten bytes of a set name no flag above 75. -/
theorem flagSetBytes_inRange (v : BitVec 76) : (byteAt (flagSetBytes v) 9).toNat % 16 = 0 := by
  refine Nat.zero_of_testBit_eq_false fun k => ?_
  rw [show 16 = 2 ^ 4 from rfl, Nat.testBit_mod_two_pow, BitVec.testBit_toNat, Bool.and_eq_false_imp]
  intro hk
  have hk : k < 4 := of_decide_eq_true hk
  have hbit := getLsbD_byteAt_flagSetBytes v (f := 79 - k) (by omega)
  rw [show (79 - k) / 8 = 9 by omega, show 7 - (79 - k) % 8 = k by omega] at hbit
  rw [hbit, BitVec.getLsbD_of_ge v _ (by omega)]

/-- R213: a flag set is read back from its ten bytes. -/
theorem flagSetOf_flagSetBytes (v : BitVec 76) : flagSetOf (flagSetBytes v) = some v := by
  have hsum : (List.range 76).foldl
      (fun acc f => acc + ((byteAt (flagSetBytes v) (f / 8)).getLsbD (7 - f % 8)).toNat * 2 ^ f) 0 = v.toNat % 2 ^ 76 := by
    rw [← foldl_testBit_weights]
    refine List.foldl_ext _ _ _ fun acc f hf => ?_
    have hf : f < 76 := List.mem_range.mp hf
    rw [getLsbD_byteAt_flagSetBytes v (by omega), BitVec.testBit_toNat]
  rw [flagSetOf, if_pos (flagSetBytes_inRange v), hsum, Nat.mod_eq_of_lt v.isLt, BitVec.ofNat_toNat, BitVec.setWidth_eq]

end Sys2Proof.Machine
end

section
/-! SUPPORT. The note list, the occurrences of MON and the LANE flags (O22), and the flag orders (O23). -/

namespace Sys2Proof.Machine

/-! ## The note list (R205) -/

theorem noteEnter_of_absent {src : NoteSource} {notes : List NoteEntry} (h : ∀ e ∈ notes, e.src ≠ src) :
    noteEnter src notes = notes ++ [⟨src, none, false⟩] := by
  rw [noteEnter, if_neg (by simpa using h)]

theorem map_eq_self {α : Type} {f : α → α} {l : List α} (h : ∀ x ∈ l, f x = x) : l.map f = l :=
  (List.map_congr_left h).trans (List.map_id l)

/-- R205: the one entry of a source gets the again mark while it is in transit; the others stay as they are. -/
theorem noteEnter_of_present {src : NoteSource} {l r : List NoteEntry} {e : NoteEntry} (he : e.src = src)
    (hothers : ∀ x ∈ l ++ r, x.src ≠ src) :
    noteEnter src (l ++ e :: r) = l ++ (if e.built.isSome then { e with again := true } else e) :: r := by
  have hkept : ∀ x ∈ l ++ r, ¬(x.src = src ∧ x.built.isSome = true) := fun x hx h => hothers x hx h.1
  rw [noteEnter, if_pos (by simp [he]), List.map_append, List.map_cons]
  refine congrArg₂ List.append (map_eq_self fun x hx => if_neg (hkept x (List.mem_append_left r hx)))
    (congrArg₂ List.cons (by simp only [he, true_and])
      (map_eq_self fun x hx => if_neg (hkept x (List.mem_append_right l hx))))

/-! ## Occurrences (R78, R83) -/

theorem monOccur_eq (fs : BitVec 76) (s : State) : monOccur fs s = { s with
    mon := { s.mon with current := s.mon.current ||| fs, latched := s.mon.latched ||| fs }
    link := { s.link with notes := if (fs &&& ~~~s.mon.mask) = 0 then s.link.notes else noteEnter .flags s.link.notes } } := by
  by_cases h : fs &&& ~~~s.mon.mask = 0
  · simp only [monOccur, h, bne_self_eq_false, Bool.false_eq_true, if_true, if_false]
  · simp only [monOccur, bne_iff_ne.mpr h, h, if_true, if_false, enterNote]

/-! ## The LANE flags (R27, R80) -/

theorem exec_laneConditionChange (n : Chan) (lock : Bool) {s : State} (hreset : s.pins.resetLow = false) :
    exec (.laneConditionChange n lock) s =
      .next (laneFollow n { s with pins := { s.pins with lock := s.pins.lock.set n lock } }) := by
  simp only [exec, execLaneConditionChange, hreset, Bool.false_eq_true, if_false]

/-- R80: a condition that is true makes the flag current; only the change from false to true is an occurrence. -/
theorem laneFollow_true {n : Chan} {s : State} (h : laneCondition s n = true) :
    (laneFollow n s).mon.current = s.mon.current ||| flagBit (laneFlag n) ∧
    (laneFollow n s).mon.latched =
      (if s.mon.current.getLsbD (laneFlag n) then s.mon.latched else s.mon.latched ||| flagBit (laneFlag n)) := by
  by_cases hcur : s.mon.current.getLsbD (laneFlag n) = true
  · simp [laneFollow, h, hcur, or_flagBit_of_set hcur]
  · simp [laneFollow, h, hcur, monOccur_mon]

/-- R80: a condition that is false ends the flag's current state and no more. -/
theorem laneFollow_false {n : Chan} {s : State} (h : laneCondition s n = false) :
    laneFollow n s = monEnd (flagBit (laneFlag n)) s := by
  simp [laneFollow, h]

/-- The condition of the channel whose lock line has taken a level. -/
theorem laneCondition_lock (n : Chan) (lock : Bool) (s : State) :
    laneCondition { s with pins := { s.pins with lock := s.pins.lock.set n lock } } n = ((s.setup.ch.get n).on && !lock) := by
  simp [laneCondition, perChan_get_set]

/-- Settles O22: the three cases of an entering source, the occurrence as one update, and the LANE flag by its condition. -/
theorem occurrencesAndLaneFlags : Obligations.OccurrencesAndLaneFlags := by
  refine ⟨fun src s => ⟨noteEnter_of_absent, fun l r e hnotes he hothers => ?_⟩, monOccur_eq, fun n lock s hreset => ?_⟩
  · exact (congrArg (noteEnter src) hnotes).trans (noteEnter_of_present he hothers)
  · refine ⟨_, exec_laneConditionChange n lock hreset, by simp, laneFollow_mask n _, fun hlane => ?_, fun hlane => ?_, ?_⟩
    · exact laneFollow_true ((laneCondition_lock n lock s).trans hlane)
    · rw [laneFollow_false ((laneCondition_lock n lock s).trans hlane)]
      exact ⟨rfl, rfl, rfl⟩
    · simp only [laneFollow_frame, and_self]

/-! ## The flag orders (R87 to R89) -/

/-- R82, R215: the byte of the summary. -/
theorem boolByte_summary (m : Mon) : boolByte m.summary = if m.latched &&& ~~~m.mask = 0 then 0 else 1 := by
  by_cases h : m.latched &&& ~~~m.mask = 0 <;> simp [boolByte, Mon.summary, h]

theorem flagItems_eq (m : Mon) : flagItems m = flagSetBytes m.current ++ flagSetBytes m.latched ++ flagSetBytes m.mask ++
    [if m.latched &&& ~~~m.mask = 0 then 0 else 1] := by
  rw [flagItems, boolByte_summary]

/-- R83, R89: the masks after the write, and the note of a summary that turns true. -/
theorem writeMask_eq (m : BitVec 76) (s : State) : writeMask m s = { s with
    mon := { s.mon with mask := m }
    link := { s.link with notes :=
      if s.mon.latched &&& ~~~s.mon.mask = 0 ∧ s.mon.latched &&& ~~~m ≠ 0 then noteEnter .flags s.link.notes
      else s.link.notes } } := by
  have hturns : (!s.mon.summary && Mon.summary { s.mon with mask := m }) = true ↔
      s.mon.latched &&& ~~~s.mon.mask = 0 ∧ s.mon.latched &&& ~~~m ≠ 0 := by
    simp [Mon.summary]
  simp only [writeMask, hturns]
  split <;> rfl

theorem writeMask_mon (m : BitVec 76) (s : State) : (writeMask m s).mon = { s.mon with mask := m } := by
  rw [writeMask_eq]

theorem writeMask_popInbound (m : BitVec 76) (s : State) : writeMask m (popInbound s) = popInbound (writeMask m s) := by
  simp only [writeMask_eq]
  rfl

section
variable {tag : Byte} {body : List Byte} {s : State}

theorem exec_flagsPeek (h : Ready 0x18 tag [] s) :
    exec (.flagsPeek tag []) s = .next (answered 0x18 tag .ok (flagItems s.mon) s) :=
  (order_ready h _ _ rfl).trans (congrArg _ (answer_popInbound _ _ _ _ _))

theorem exec_flagsTake (h : Ready 0x19 tag [] s) :
    exec (.flagsTake tag []) s = .next (answered 0x19 tag .ok (flagItems s.mon) (clearLatched s)) :=
  (order_ready h _ _ rfl).trans (congrArg _ (answer_popInbound _ _ _ _ (clearLatched s)))

/-- R89: a set with a flag number above 75. -/
theorem exec_flagsMask_badValue (h : Ready 0x1A tag body s) (hlen : body.length = 10) (hset : flagSetOf body = none) :
    exec (.flagsMask tag body) s = .next (answered 0x1A tag .badValue [] s) := by
  refine (order_ready h _ _ (by simp [lenIs, hlen])).trans (congrArg _ ?_)
  simp only [hset, answer_popInbound]

theorem exec_flagsMask (h : Ready 0x1A tag body s) (hlen : body.length = 10) {m : BitVec 76} (hset : flagSetOf body = some m) :
    exec (.flagsMask tag body) s = .next (answered 0x1A tag .ok
      (flagSetBytes m ++ [if s.mon.latched &&& ~~~m = 0 then 0 else 1]) (writeMask m s)) := by
  refine (order_ready h _ _ (by simp [lenIs, hlen])).trans (congrArg _ ?_)
  simp only [hset, boolByte_summary, writeMask_popInbound, answer_popInbound, popInbound_frame, writeMask_mon]

end

/-- Settles O23: each flag order by its own equation; FLAGS.MASK reads back the set that its body spells. -/
theorem flagOrders : Obligations.FlagOrders := by
  refine ⟨fun tag s => ⟨fun h => ?_, fun h => ?_⟩, fun tag body s h hlen => ⟨fun hbad => ?_, fun m hbody => ?_⟩⟩
  · rw [exec_flagsPeek h, flagItems_eq]
  · rw [exec_flagsTake h, flagItems_eq]
    rfl
  · exact exec_flagsMask_badValue h hlen (if_neg hbad)
  · have hset : flagSetOf body = some m := hbody ▸ flagSetOf_flagSetBytes m
    rw [exec_flagsMask h hlen hset, writeMask_eq, hbody]

end Sys2Proof.Machine
end

section
/-! SUPPORT. Planes in their one form: hits, roll columns, rotation and decay keep it, and the columns RASTER counts stay in bounds
(O57). -/

namespace Sys2Proof.Machine

/-! ## One plane -/

theorem tabRising_iff_pairwise {α : Type} (t : List (Nat × α)) :
    tabRising t = true ↔ t.Pairwise (fun a b => a.1 < b.1) := by
  induction t with
  | nil => simp [tabRising]
  | cons e r ih => rw [tabRising_cons, List.pairwise_cons, ih, tabAbove]

theorem planeOk_nil : PlaneOk [] := ⟨rfl, by simp⟩

/-- The entries a function of the row gives a column rise within the column. -/
theorem columnEntries_rising (c n : Nat) (v : Nat → Byte) :
    tabRising ((List.range n).filterMap (fun r => if v r = 0 then none else some (400 * c + r, v r))) = true ∧
    ∀ e ∈ (List.range n).filterMap (fun r => if v r = 0 then none else some (400 * c + r, v r)),
      400 * c ≤ e.1 ∧ e.1 < 400 * c + n := by
  have hkey : ∀ r e, (if v r = 0 then none else some (400 * c + r, v r)) = some e → e.1 = 400 * c + r := fun r e he => by
    split at he
    · cases he
    · rw [← Option.some.inj he]
  refine ⟨(tabRising_iff_pairwise _).mpr (List.Pairwise.filterMap _ ?_ List.pairwise_lt_range), fun e he => ?_⟩
  · intro r r' hr e he e' he'
    have := hkey r e he
    have := hkey r' e' he'
    omega
  · obtain ⟨r, hr, he⟩ := List.mem_filterMap.mp he
    have := hkey r e he
    have := List.mem_range.mp hr
    omega

theorem planeOk_mapColumn {p : List (Nat × Byte)} (f : Nat → Byte → Byte) {c : Nat} (hc : c < 500) (h : PlaneOk p) :
    PlaneOk (mapColumn f c p) := by
  obtain ⟨hrise, hin⟩ := columnEntries_rising c 400 (fun r => f r (tabGet 0 (columnOfPlane p c) (400 * c + r)))
  refine ⟨tabRising_tabSplice _ _ _ _ h.1 hrise hin (by omega), fun e he => ?_⟩
  rcases List.mem_append.mp he with he | he
  · rcases List.mem_append.mp he with he | he
    · exact h.2 e (List.mem_of_mem_filter he)
    · have := (hin e he).2
      omega
  · exact h.2 e (List.mem_of_mem_filter he)

/-- R113: the stored columns from w on come first, then those before w. -/
theorem planeOk_rotatePlane {p : List (Nat × Byte)} {w : Nat} (hw : w < 500) (h : PlaneOk p) : PlaneOk (rotatePlane w p) := by
  obtain ⟨hrise, hbound⟩ := h
  rw [tabRising_iff_pairwise] at hrise
  have hmem : ∀ {q : Nat × Byte → Bool} {e}, e ∈ p.filter q → e.1 < 200000 ∧ q e = true := fun he =>
    ⟨hbound _ (List.mem_of_mem_filter he), List.of_mem_filter he⟩
  refine ⟨(tabRising_iff_pairwise _).mpr (List.pairwise_append.mpr ⟨?_, ?_, ?_⟩), fun e he => ?_⟩
  · refine List.pairwise_map.mpr ((hrise.filter _).imp_of_mem fun {a b} ha _ hab => ?_)
    have := of_decide_eq_true (hmem ha).2
    simp only
    omega
  · exact List.pairwise_map.mpr ((hrise.filter _).imp fun {a b} hab => by simp only; omega)
  · rintro e he e' he'
    obtain ⟨a, ha, rfl⟩ := List.mem_map.mp he
    obtain ⟨b, hb, rfl⟩ := List.mem_map.mp he'
    have := (hmem ha).1
    simp only
    omega
  · rcases List.mem_append.mp he with he | he
    · obtain ⟨a, ha, rfl⟩ := List.mem_map.mp he
      have := (hmem ha).1
      simp only
      omega
    · obtain ⟨a, ha, rfl⟩ := List.mem_map.mp he
      have := of_decide_eq_true (hmem ha).2
      simp only
      omega

/-- R103: decay changes no key. -/
theorem planeOk_decayPlane {p : List (Nat × Byte)} (d : Nat) (h : PlaneOk p) : PlaneOk (decayPlane d p) := by
  have hkey : ∀ e e' : Nat × Byte, (if decayed d e.2 = 0 then none else some (e.1, decayed d e.2)) = some e' → e'.1 = e.1 :=
    fun e e' he => by
      split at he
      · cases he
      · rw [← Option.some.inj he]
  refine ⟨(tabRising_iff_pairwise _).mpr (List.Pairwise.filterMap _ ?_ ((tabRising_iff_pairwise p).mp h.1)), fun e he => ?_⟩
  · intro a a' ha b hb b' hb'
    rw [hkey a b hb, hkey a' b' hb']
    exact ha
  · obtain ⟨a, ha, he⟩ := List.mem_filterMap.mp he
    rw [hkey a e he]
    exact h.2 a ha

/-! ## The operations of RASTER -/

section
variable {s t : State}

theorem RasterOk.of_same (h : RasterOk s) (hplanes : t.raster.planes = s.raster.planes)
    (hcol : t.raster.writeCol = s.raster.writeCol) (hjob : t.raster.job = s.raster.job) : RasterOk t := by
  rw [RasterOk, hplanes, hcol, hjob]
  exact h

theorem RasterOk.of_raster (h : RasterOk s) (he : t.raster = s.raster) : RasterOk t :=
  h.of_same (by rw [he]) (by rw [he]) (by rw [he])

/-- A job that is gone leaves the planes and the write column to be checked. -/
theorem rasterOk_of_no_job (hplanes : ∀ n, PlaneOk (t.raster.planes.get n)) (hcol : t.raster.writeCol < 500)
    (hjob : t.raster.job = none) : RasterOk t :=
  ⟨hplanes, hcol, fun j hj => by rw [hjob] at hj; cases hj⟩

theorem planeOk_clearedPlanes {p : PerChan (List (Nat × Byte))} (set : PerChan Bool) (h : ∀ n, PlaneOk (p.get n)) (n : Chan) :
    PlaneOk ((clearedPlanes set p).get n) := by
  rw [clearedPlanes, get_ofFn]
  split
  · exact planeOk_nil
  · exact h n

theorem planeOk_set {p : PerChan (List (Nat × Byte))} {n : Chan} {q : List (Nat × Byte)} (h : ∀ m, PlaneOk (p.get m))
    (hq : PlaneOk q) (m : Chan) : PlaneOk ((p.set n q).get m) := by
  rw [perChan_get_set]
  split
  · exact hq
  · exact h m

variable (h : RasterOk s)
include h

/-- R109: a clear empties planes, and may end the job. -/
theorem rasterOk_clearPlanes (set : PerChan Bool) : RasterOk (clearPlanes set s) := by
  obtain ⟨hplanes, hcol, hjob⟩ := h
  refine ⟨planeOk_clearedPlanes set hplanes, hcol, fun j hj => hjob j ?_⟩
  simp only [clearPlanes] at hj
  split at hj
  · cases hj
  · exact hj

theorem rasterOk_mapChange (set : PerChan Bool) : RasterOk (mapChange set s) := by
  have hclear := rasterOk_clearPlanes h set
  simp only [mapChange]
  (repeat' split) <;> exact hclear.of_same (by simp) (by simp) (by simp)

/-- R106: a job starts at column 0, or completes at once. -/
theorem rasterOk_startJob (e : DrawEntry) (g : Geometry) : RasterOk (startJob e g s) := by
  obtain ⟨hplanes, hcol, -⟩ := h
  have hstart : ∀ n, PlaneOk ((if e.clearFirst then clearedPlanes (jobOf s e g).draws s.raster.planes
      else s.raster.planes).get n) := by
    split
    · exact planeOk_clearedPlanes _ hplanes
    · exact hplanes
  simp only [startJob]
  split
  · exact rasterOk_of_no_job hstart hcol rfl
  · refine ⟨hstart, hcol, ?_⟩
    rintro j ⟨⟩
    exact Nat.zero_lt_succ _

theorem rasterOk_takeHeadEntry : RasterOk (takeHeadEntry s) := by
  unfold takeHeadEntry
  split
  next e rest _ _ =>
    have hrest : RasterOk { s with raster := { s.raster with list := rest } } := h
    simp only
    split
    · split
      · exact rasterOk_startJob hrest e _
      · exact hrest
    · exact hrest
  next => exact h

/-- R101, R108: the column hit is the job's, and the job goes on at a column within the 500. -/
theorem rasterOk_hitJobColumn {j : DrawJob} (hj : s.raster.job = some j) (n : Chan) (g : Geometry) :
    RasterOk (hitJobColumn j n g s) := by
  obtain ⟨hplanes, hcol, hjob⟩ := h
  have hnext : j.advance.nextCol < 500 := by
    unfold DrawJob.advance
    split
    · simp only
      omega
    · exact Nat.zero_lt_succ _
  have hhit := planeOk_set hplanes (n := n) (planeOk_mapColumn
    (fun r i => if marked (columnSpans s g j.seg n j.style (j.scaling.get n) j.nextCol) r then hitValue j.hitw i else i)
    (hjob j hj) (hplanes n))
  simp only [hitJobColumn]
  split
  · exact rasterOk_of_no_job hhit hcol rfl
  · refine ⟨hhit, hcol, ?_⟩
    rintro j' ⟨⟩
    exact hnext

/-- R112: a column of a roll, at the write column. -/
theorem rasterOk_rasterRollColumn (g : Geometry) (col : PerChan (Byte × Byte)) : RasterOk (rasterRollColumn g col s) := by
  obtain ⟨hplanes, hcol, hjob⟩ := h
  refine ⟨fun n => ?_, Nat.mod_lt _ (by omega), hjob⟩
  have hn : PlaneOk ((rollPlanes s g col).get n) := by
    rw [rollPlanes, get_ofFn]
    exact planeOk_mapColumn _ hcol (hplanes n)
  exact hn

/-- R113: window order, with w 0. -/
theorem rasterOk_rasterLeaveRoll (view : Option (Nat × Serial)) : RasterOk (rasterLeaveRoll view s) := by
  obtain ⟨hplanes, hcol, hjob⟩ := h
  refine ⟨fun n => ?_, Nat.zero_lt_succ _, hjob⟩
  simp only [rasterLeaveRoll, takeStartCol]
  split
  · have hn := planeOk_rotatePlane hcol (hplanes n)
    cases n <;> exact hn
  · exact hplanes n

theorem rasterOk_rasterStandby : RasterOk (rasterStandby s) := rasterOk_of_no_job h.1 h.2.1 rfl

theorem rasterOk_frameDecay : RasterOk (frameDecay s) := by
  obtain ⟨hplanes, hcol, hjob⟩ := h
  unfold frameDecay
  split
  · refine ⟨fun n => ?_, hcol, hjob⟩
    have hn := planeOk_decayPlane s.setup.decay (hplanes n)
    cases n <;> exact hn
  · exact ⟨hplanes, hcol, hjob⟩

theorem rasterOk_frameEventAt (t0 : Tick) (k : Nat) : RasterOk (frameEventAt t0 k s) :=
  rasterOk_frameDecay (h.of_raster (t := takeFrameValues s) (by simp))

omit h in
theorem rasterOk_rasterEnterRoll (s : State) : RasterOk (rasterEnterRoll s) :=
  rasterOk_of_no_job (fun n => by cases n <;> exact planeOk_nil) (Nat.zero_lt_succ _) rfl

end

end Sys2Proof.Machine
end

section
/-! SUPPORT. What keeps the planes in their one form: the operations of ACQ, the changes of the record, the power moves, the
panel, the scans and the codes (O57). -/

namespace Sys2Proof.Machine

section
variable {s : State} (h : RasterOk s)
include h

/-! ## Runs and rolls -/

theorem rasterOk_writeColumn : RasterOk (writeColumn s) := by
  unfold writeColumn
  split
  · exact h
  next i _ => exact (rasterOk_rasterRollColumn (h.of_raster (t := storePoint s.acq.cur (s.acq.rollCount % 500) i s) (by simp))
      i.geo (columnCodes s)).of_raster rfl

theorem rasterOk_writeInterval : RasterOk (writeInterval s) := by
  unfold writeInterval
  split
  · exact rasterOk_writeColumn h
  · exact h.of_raster (by simp)

/-- R60, R111: the entry into ROLLING clears RASTER, or waits in HELD. -/
theorem rasterOk_enterRoll : RasterOk (enterRoll s) := by
  simp only [enterRoll]
  split
  · exact h.of_raster (by simp)
  · exact (rasterOk_rasterEnterRoll s).of_raster rfl

theorem rasterOk_armRepeatOrRoll : RasterOk (armRepeatOrRoll s) := by
  simp only [armRepeatOrRoll]
  split
  · exact rasterOk_enterRoll h
  · exact h.of_raster (by simp)

theorem rasterOk_launch : RasterOk (launch s) := by
  unfold launch
  split
  · exact rasterOk_armRepeatOrRoll h
  · exact h.of_raster (by simp)

theorem rasterOk_startRun (one : Bool) : RasterOk (startRun one s) := rasterOk_launch h

theorem rasterOk_armHeld : RasterOk (armHeld s) := by
  unfold armHeld
  split
  · exact h.of_raster (by simp)
  all_goals exact rasterOk_armRepeatOrRoll h

theorem rasterOk_runAcq : RasterOk (runAcq s) := by
  unfold runAcq
  split
  · exact rasterOk_startRun h false
  · exact h

theorem rasterOk_singleAcq : RasterOk (singleAcq s) := by
  unfold singleAcq
  split
  · exact rasterOk_startRun h true
  · split <;> exact h
  all_goals exact h

theorem rasterOk_enterStopped : RasterOk (enterStopped s) := h.of_raster (by simp)

/-- R113: the end of a roll brings its picture into window order. -/
theorem rasterOk_endRoll : RasterOk (endRoll s) := by
  cases hi : (curSeg s).info with
  | none =>
    simp only [endRoll, hi]
    exact rasterOk_enterStopped h
  | some i =>
    rw [endRoll_eq hi]
    exact rasterOk_enterStopped (rasterOk_rasterLeaveRoll (h.of_raster (by simp)) _)

theorem rasterOk_abandon : RasterOk (abandon s) := by
  simp only [abandon]
  split
  · exact rasterOk_rasterLeaveRoll (h.of_raster (by simp)) none
  · exact h.of_raster (by simp)

theorem rasterOk_stopAcq : RasterOk (stopAcq s) := by
  unfold stopAcq
  split
  · exact h
  · exact rasterOk_enterStopped (rasterOk_abandon h)
  · exact rasterOk_enterStopped (rasterOk_abandon h)
  · exact rasterOk_enterStopped (rasterOk_abandon h)
  · exact rasterOk_enterStopped h
  · exact rasterOk_endRoll (s := dropForce s) h

/-- R65: ACQ on entry into STANDBY. -/
theorem rasterOk_acqStandby : RasterOk (acqStandby s) := by
  have hwaves : RasterOk (endWaves .wrongState s) := h.of_raster (by simp)
  have hin : RasterOk (if inFlight (endWaves .wrongState s) then abandon (endWaves .wrongState s)
      else endWaves .wrongState s) := by
    split
    · exact rasterOk_abandon hwaves
    · exact hwaves
  exact hin

theorem rasterOk_forceAcq : RasterOk (forceAcq s) := h.of_same (by simp) (by simp) (by simp)

/-- Whatever comes before the next code. -/
theorem rasterOk_settle : RasterOk (settle s) := by
  have due : ∀ {d : State → Bool} {f : State → State} {u : State}, RasterOk u → (RasterOk u → RasterOk (f u)) →
      RasterOk (whenDue d f u) := fun hu hf => whenDue_keeps hu (hf hu)
  exact due (due (due (due (due (due h rasterOk_writeInterval) fun h => h.of_same (by simp) (by simp) (by simp))
    fun h => h.of_same (by simp) (by simp) (by simp)) rasterOk_endRoll) fun h => h.of_same (by simp) (by simp) (by simp))
    rasterOk_armHeld

theorem rasterOk_takeCode (x : Sample) : RasterOk (takeCode s x) :=
  (rasterOk_settle h).of_same (by simp [takeCode]) (by simp [takeCode]) (by simp [takeCode])

/-! ## Changes of the record -/

theorem rasterOk_acqChange : RasterOk (acqChange s) := by
  unfold acqChange
  split
  · exact h
  · exact rasterOk_launch h
  all_goals exact rasterOk_launch (rasterOk_abandon h)

/-- R11, R13: the blocks in turn. -/
theorem rasterOk_tellBlocks (a b : Setup) : RasterOk (tellBlocks a b s) := by
  have hacq : RasterOk (tellAcq a b (laneAfterChange a b s)) := by
    have hlane : RasterOk (laneAfterChange a b s) := h.of_raster (by simp)
    unfold tellAcq
    split
    · exact rasterOk_acqChange hlane
    · exact hlane
  have htrig : RasterOk (tellTrig a b (tellAcq a b (laneAfterChange a b s))) := hacq.of_same (by simp) (by simp) (by simp)
  have hmap : RasterOk (tellMap a b (tellTrig a b (tellAcq a b (laneAfterChange a b s)))) := by
    unfold tellMap
    split
    · exact rasterOk_mapChange htrig _
    · exact htrig
  exact hmap.of_raster (by rw [tellBlocks]; simp)

theorem rasterOk_adopt (u : Setup) : RasterOk (adopt u s) := by
  unfold adopt
  split
  · exact h
  · exact rasterOk_tellBlocks (s := { s with setup := u, gen := s.gen + 1 }) h _ _

/-! ## The power state -/

theorem rasterOk_startScanout : RasterOk (startScanout s) := rasterOk_frameEventAt h _ _

theorem rasterOk_wakeFromDark (c : MoveCause) : RasterOk (wakeFromDark c s) :=
  rasterOk_startScanout (h.of_raster (by simp))

theorem rasterOk_requestOn (c : MoveCause) : RasterOk (requestOn c s) := by
  have hwake : ∀ run u, RasterOk u → RasterOk (acqWake run u) := fun run u hu => by
    simp only [acqWake]
    split
    · exact rasterOk_startRun (s := { u with acq := { u.acq with selfRefresh := false } }) hu false
    · exact hu
  unfold requestOn
  split
  · exact h
  · exact rasterOk_wakeFromDark h c
  · exact rasterOk_startScanout (hwake _ _ (h.of_raster (by simp)))

/-- R116, R192: on entry into STANDBY RASTER drops its job once ACQ has stopped. -/
theorem rasterOk_requestStandby (c : MoveCause) : RasterOk (requestStandby c s) := by
  have hacq : RasterOk (acqStandby (setPower .standby c { s with power := { s.power with runAtWake := isRunning s } })) :=
    rasterOk_acqStandby (h.of_raster (by simp))
  have hmove : RasterOk (moveToStandby c s) := (rasterOk_rasterStandby hacq).of_raster (by simp [moveToStandby])
  unfold requestStandby
  split
  · exact hmove
  · exact hmove
  · exact h

theorem rasterOk_requestDark (c : MoveCause) : RasterOk (requestDark c s) := by
  unfold requestDark
  split
  · exact h.of_raster (by simp)
  all_goals exact h

theorem rasterOk_requestWaking : RasterOk (requestWaking s) := by
  unfold requestWaking
  split
  · exact rasterOk_wakeFromDark h _
  all_goals exact h

theorem rasterOk_requestWake (p : PowerState) : RasterOk (requestWake p s) := by
  cases p with
  | standby => exact rasterOk_requestOn h _
  | on | dark => exact rasterOk_requestStandby h _

/-! ## Keys and knobs -/

theorem rasterOk_runAction (a : KeyAction) : RasterOk (runAction a s).1 := by
  cases a with
  | nothing | wake => exact h
  | chan n => exact rasterOk_adopt h _
  | defaults => exact rasterOk_adopt h _
  | single => exact rasterOk_singleAcq h
  | force => exact rasterOk_forceAcq h
  | clear => exact rasterOk_clearPlanes h _
  | runstop =>
    simp only [runAction]
    split
    · exact rasterOk_runAcq h
    · exact rasterOk_stopAcq h
  | _ k => -- a save or a recall
    simp only [runAction, actJob]
    split
    · exact h.of_raster (by simp)
    · exact h

theorem rasterOk_pressInOn (k : Nat) : RasterOk (pressInOn k s) := by
  unfold pressInOn
  split
  next => exact h.of_raster (by simp)
  next b _ =>
    split
    · exact rasterOk_requestWake (h.of_raster (by simp)) _
    · split
      · exact h.of_raster (by simp)
      · exact (rasterOk_runAction h b.action).of_raster (by simp)

theorem rasterOk_pressInStandby (k : Nat) : RasterOk (pressInStandby k s) := by
  unfold pressInStandby
  split
  · split
    · exact rasterOk_requestWake (h.of_raster (by simp)) _
    · exact h
  · exact h

/-- R147, R159, R160: a press by the power state. -/
theorem rasterOk_pressKey (k : Nat) : RasterOk (pressKey k s) := by
  have hdown : RasterOk (activity (setKey k { keyAt s k with down := true, count := 0 } s)) := h.of_raster (by simp)
  simp only [pressKey]
  split
  · exact rasterOk_pressInOn hdown k
  · exact rasterOk_requestWaking (hdown.of_raster (by simp))
  · exact rasterOk_pressInStandby hdown k

theorem rasterOk_offerBatch (n : Nat) (b : KnobBinding) : RasterOk (offerBatch n b s) := by
  simp only [offerBatch]
  split
  · exact h
  · exact rasterOk_adopt (h.of_raster (by simp)) _

theorem rasterOk_countDetent (n : Nat) (d : Dir) : RasterOk (countDetent n d s) := by
  simp only [countDetent]
  split
  · exact h.of_raster (by simp)
  · exact rasterOk_offerBatch (h.of_raster (by simp)) _ _

theorem rasterOk_takeDetent (n : Nat) (d : Dir) : RasterOk (takeDetent n d s) := by
  have hactive : RasterOk (activity s) := h.of_raster (by simp)
  simp only [takeDetent]
  split
  · split
    · exact hactive
    · exact rasterOk_countDetent hactive n d
  · exact rasterOk_requestWaking hactive
  · exact hactive

theorem rasterOk_batchResult (n : Nat) : RasterOk (batchResult n s) := by
  simp only [batchResult]
  split
  · exact rasterOk_offerBatch (h.of_raster (by simp)) _ _
  · exact h.of_raster (by simp)

/-! ## The scans and the codes -/

theorem rasterOk_scanKey (k : Nat) : RasterOk (scanKey s k) := by
  simp only [scanKey]
  split
  · split
    · exact h
    · exact h.of_raster (by simp)
  · split
    · exact h.of_raster (by simp)
    · split
      · exact rasterOk_pressKey h k
      · exact h.of_raster (by simp)

theorem rasterOk_scanKnob (n : Nat) : RasterOk (scanKnob s n) := by
  have hsampled : ∀ x : Knob, RasterOk (if x = knobAt s n then s else setKnob n x s) := fun x => by
    split
    · exact h
    · exact h.of_raster (by simp)
  simp only [scanKnob]
  split
  · exact rasterOk_takeDetent (hsampled _) _ _
  · exact hsampled _

theorem rasterOk_scanKeys : RasterOk (scanKeys s) :=
  (foldl_keeps (P := RasterOk) (f := scanKey) (fun _ k hv => rasterOk_scanKey hv k) (List.range 64) s h).of_raster
    (by simp [scanKeys])

theorem rasterOk_scansAt : RasterOk (scansAt s) := by
  have hknobs : RasterOk (if ticksSinceReset s % 15625 = 0 then scanKnobs s else s) := by
    split
    · exact foldl_keeps (P := RasterOk) (fun _ n hu => rasterOk_scanKnob hu n) _ s h
    · exact h
  simp only [scansAt]
  by_cases hk : ticksSinceReset s % 125000 = 0
  · rw [if_pos hk]
    exact rasterOk_scanKeys hknobs
  · rw [if_neg hk]
    exact hknobs

theorem rasterOk_passCodes (xs : List Sample) : RasterOk (passCodes xs s) := by
  refine foldl_keeps (P := RasterOk) (fun u x hu => ?_) xs s h
  have htaken := rasterOk_takeCode hu x
  simp only [passCode, scanAtTick]
  split
  · exact rasterOk_scansAt htaken
  · exact htaken

end

end Sys2Proof.Machine
end

section
/-! SUPPORT. Every row keeps the planes in their one form and the columns RASTER counts within the 500; the statement of it
for a step (O57). -/

namespace Sys2Proof.Machine

/-! ## STORE and RESTART -/

section
variable {s : State} (h : RasterOk s)
include h

/-- R169, R176: only a recall that adopts its image reaches RASTER. -/
theorem rasterOk_classified (j : StoreJob) (r : Running) (why : ClassifyFor) (header body : List Byte) :
    RasterOk (classified j r why header body s) := by
  have hset : RasterOk (setDir j.slot (classifySlot j.slot header body) s) := h.of_raster (by simp)
  have hend : ∀ res, RasterOk (endJob res (setDir j.slot (classifySlot j.slot header body) s)) := fun _ =>
    hset.of_raster (by simp)
  have habandoned : RasterOk (finishAbandoned r (setDir j.slot (classifySlot j.slot header body) s)) :=
    hset.of_raster (by simp)
  unfold classified
  cases why with
  | refresh res => exact hend res
  | startCheck =>
    simp only
    split
    · exact habandoned
    · exact hset.of_raster (by simp)
  | protectOff =>
    simp only
    split
    · exact habandoned
    · split
      · exact hset.of_raster (by simp)
      all_goals exact hend _
  | _ => -- a recall
    simp only
    split
    · exact habandoned
    · split
      · split
        next u _ _ => exact (rasterOk_adopt hset u).of_raster (by simp)
        next => exact hend _
      all_goals exact hend _

theorem rasterOk_readDone (page : List Byte) : RasterOk (readDone page s) := by
  have hjob : ∀ j r, RasterOk (jobRead j r page s) := fun j r => by
    unfold jobRead
    split
    · split
      · exact rasterOk_classified h _ _ _ _ _
      · split <;> exact h.of_raster (by simp)
    · exact h
  unfold readDone
  split
  · exact hjob _ _
  · exact h.of_raster (by simp)
  · exact h

omit h in
theorem foldl_autosaveActs_raster (b : Bool) (js : List StoreJob) (s : State) :
    (js.foldl (autosaveActs b) s).raster = s.raster := by
  induction js generalizing s with
  | nil => rfl
  | cons j js ih => simpa using ih (autosaveActs b s j)

/-- R167: the end of a step with an effect. -/
theorem rasterOk_endStep {f : State → State} (hf : ∀ u, RasterOk u → RasterOk (f u)) : RasterOk (endStep f s) := by
  refine (hf { s with store := { s.store with step := none, autosaves := [] } } h).of_raster ?_
  rw [endStep, foldl_autosaveActs_raster]
  simp

theorem rasterOk_alteredThen {f : StoreJob → JobPhase → State → State} (hf : ∀ j p u, (f j p u).raster = u.raster) :
    RasterOk (alteredThen f s) := by
  unfold alteredThen
  split
  · simp only
    split
    · exact h.of_raster (by simp)
    · exact h.of_raster (by simp [hf])
  · exact h

end

/-- R116, R211: RASTER takes its cold values. -/
theorem rasterOk_cold {s : State} (h : s.raster = .cold) : RasterOk s := by
  refine rasterOk_of_no_job (fun n => ?_) (by rw [h]; exact Nat.zero_lt_succ _) (by rw [h]; rfl)
  rw [h]
  cases n <;> exact planeOk_nil

theorem rasterOk_restartPart (tag : Byte) (s : State) : RasterOk (restartPart tag s) :=
  rasterOk_cold (by simp [restartPart, clearLink, restartBlocks, powerRestart, rasterRestart])

theorem rasterOk_coldState (s : State) : RasterOk (coldState s) := by
  refine rasterOk_cold ?_
  rw [coldState, (laneFollowAll_frame _).2.2.2.1]
  rfl

/-! ## Orders -/

theorem atHead_raster (f : Frame) (s : State) : (atHead f s).raster = s.raster := by
  unfold atHead
  split
  · rfl
  · simp

section
variable {s : State}

theorem rasterOk_order {kind tag : Byte} {lenOk : Nat → Bool} {body : List Byte} {act : State → State} (h : RasterOk s)
    (hact : ∀ u, RasterOk u → RasterOk (act u)) : NextMeets RasterOk (order kind lenOk tag body act s) := by
  refine live_keeps h fun _ => ?_
  have hhead : RasterOk (atHead ⟨kind, tag, body⟩ s) := h.of_raster (atHead_raster _ s)
  simp only [dispatchOrder]
  split
  · split
    · exact hact _ (hhead.of_raster (by simp))
    · exact hhead.of_raster (by simp)
  · exact hhead

theorem rasterOk_answer {kind tag : Byte} {st : Status} {items : List Byte} (h : RasterOk s) :
    RasterOk (answer kind tag st items s) := h

theorem orderBadKind_keeps_raster {kind tag : Byte} {body : List Byte} (h : RasterOk s) :
    NextMeets RasterOk (execOrderBadKind kind tag body s) := by
  refine live_keeps h fun _ => ?_
  have hhead := h.of_raster (atHead_raster ⟨kind, tag, body⟩ s)
  simp only
  (repeat' split) <;> assumption

theorem fieldSet_keeps_raster {tag : Byte} {body : List Byte} (h : RasterOk s) :
    NextMeets RasterOk (execFieldSet tag body s) := by
  refine rasterOk_order h fun u hu => ?_
  simp only
  split
  · exact hu
  · split
    · exact hu
    · split
      · exact hu
      · exact rasterOk_answer (rasterOk_adopt hu _)

theorem setupWrite_keeps_raster {tag : Byte} {body : List Byte} (h : RasterOk s) :
    NextMeets RasterOk (execSetupWrite tag body s) := by
  refine rasterOk_order h fun u hu => ?_
  split
  · exact rasterOk_answer (rasterOk_adopt hu _)
  · exact hu

theorem power_keeps_raster {tag : Byte} {body : List Byte} (h : RasterOk s) : NextMeets RasterOk (execPower tag body s) := by
  refine rasterOk_order h fun u hu => ?_
  split
  · exact rasterOk_answer (rasterOk_requestOn hu _)
  · split
    · exact hu
    · exact rasterOk_answer (rasterOk_requestDark hu _)
  · exact rasterOk_answer (rasterOk_requestStandby hu _)
  · exact hu

/-- RUN, STOP, SINGLE and FORCE: refused, or an effect on ACQ. -/
theorem rasterOk_unlessBlocked {kind tag : Byte} {lenOk : Nat → Bool} {body : List Byte} {blocked : State → Prop}
    [DecidablePred blocked] {f : State → State} (h : RasterOk s) (hf : ∀ u, RasterOk u → RasterOk (f u)) :
    NextMeets RasterOk (order kind lenOk tag body
      (fun s => if blocked s then answer kind tag .wrongState [] s else answer kind tag .ok [] (f s)) s) := by
  refine rasterOk_order h fun u hu => ?_
  split
  · exact hu
  · exact rasterOk_answer (hf u hu)

theorem planesClear_keeps_raster {tag : Byte} {body : List Byte} (h : RasterOk s) :
    NextMeets RasterOk (execPlanesClear tag body s) := by
  refine rasterOk_order h fun u hu => ?_
  split
  · split
    · exact rasterOk_answer (rasterOk_clearPlanes hu _)
    · exact hu
  · exact hu

/-! ## Other rows -/

theorem selectPeriodStart_keeps_raster (h : RasterOk s) : NextMeets RasterOk (execSelectPeriodStart s) := by
  unfold execSelectPeriodStart
  (repeat' split) <;> exact nextMeets_next (h.of_raster (by simp))

theorem selectPeriodEnd_keeps_raster {bytes : List Byte} {stray : List Bool} (h : RasterOk s) :
    NextMeets RasterOk (execSelectPeriodEnd bytes stray s) := by
  unfold execSelectPeriodEnd
  split
  · exact nextMeets_next h
  · split
    · exact nextMeets_next (h.of_raster (by simp))
    · refine nextMeets_next (h.of_raster ?_)
      split <;> simp

theorem drawColumn_keeps_raster (h : RasterOk s) : NextMeets RasterOk (execDrawColumn s) := by
  unfold execDrawColumn
  split
  · exact nextMeets_next h
  · split
    · exact nextMeets_next h
    next j hj =>
      split
      · split
        · exact nextMeets_next (rasterOk_hitJobColumn h hj _ _)
        · rintro u ⟨⟩
      · exact nextMeets_next h

theorem waveReadDone_keeps_raster (h : RasterOk s) : NextMeets RasterOk (execWaveReadDone s) := by
  have htaken : ∀ waves, RasterOk { s with acq := { s.acq with waves := waves } } := fun _ => h
  unfold execWaveReadDone
  split
  · exact nextMeets_next h
  · split
    · exact nextMeets_next h
    · split
      · split
        · split
          · exact nextMeets_next (rasterOk_answer (htaken _))
          · rintro u ⟨⟩
        · exact nextMeets_next (rasterOk_answer (htaken _))
      · exact nextMeets_next (rasterOk_answer (htaken _))

theorem laneConditionChange_keeps_raster {n : Chan} {lock : Bool} (h : RasterOk s) :
    NextMeets RasterOk (execLaneConditionChange n lock s) := by
  simp only [execLaneConditionChange]
  split <;> exact nextMeets_next (h.of_raster (by simp))

theorem flashReadPageEnd_keeps_raster {page : Vector Byte 256} (h : RasterOk s) :
    NextMeets RasterOk (execFlashReadPageEnd page s) := by
  refine live_keeps h fun hs => ?_
  split
  · split
    · exact rasterOk_endStep hs fun _ hu => rasterOk_readDone hu _
    · exact hs
  · exact hs

theorem flashProgramPageEnd_keeps_raster (h : RasterOk s) : NextMeets RasterOk (execFlashProgramPageEnd s) := by
  refine live_keeps h fun hs => ?_
  split
  · split
    · split
      · exact rasterOk_endStep hs fun _ hu => rasterOk_alteredThen hu (by simp)
      · exact hs
    · exact hs
  · exact hs

theorem flashEraseSectorEnd_keeps_raster (h : RasterOk s) : NextMeets RasterOk (execFlashEraseSectorEnd s) := by
  refine live_keeps h fun hs => ?_
  split
  · split
    · exact rasterOk_endStep hs fun _ hu => rasterOk_alteredThen hu (by simp)
    · exact hs
  · exact hs

theorem flashStepTimeout_keeps_raster (h : RasterOk s) : NextMeets RasterOk (execFlashStepTimeout s) := by
  refine live_keeps h fun hs => ?_
  split
  · exact rasterOk_endStep hs fun _ hu => hu.of_raster (by simp)
  · exact hs

/-- The codes of a row, then the write of the interval they complete. -/
theorem rasterOk_codesRow {codes : List Sample} {f : State → State} (h : RasterOk s)
    (hf : ∀ u, RasterOk u → RasterOk (f u)) : NextMeets RasterOk (codesRow (fun s => f (passCodes codes s)) s) :=
  codesRow_keeps h fun hs => hf _ (rasterOk_passCodes hs codes)

theorem pointWritten_keeps_raster {codes : List Sample} (h : RasterOk s) :
    NextMeets RasterOk (execPointWritten codes s) := by
  refine rasterOk_codesRow (f := fun u => if intervalFull u ∧ u.acq.state ≠ .rolling then writePoint u else u) h fun u hu => ?_
  split
  · exact hu.of_raster (by simp)
  · exact hu

theorem rollColumn_keeps_raster {codes : List Sample} (h : RasterOk s) : NextMeets RasterOk (execRollColumn codes s) := by
  refine rasterOk_codesRow (f := fun u => if intervalFull u ∧ u.acq.state = .rolling then writeColumn u else u) h fun u hu => ?_
  split
  · exact rasterOk_writeColumn hu
  · exact hu

theorem keyPress_keeps_raster {key : Fin 64} (h : RasterOk s) : NextMeets RasterOk (execKeyPress key s) := by
  have hswitch : RasterOk (setSwitch key.val true s) := h
  refine live_keeps hswitch fun hs => ?_
  split
  · exact hs
  · exact rasterOk_pressKey hs _

theorem knobDetent_keeps_raster {knob : Fin 8} {dir : Dir} (h : RasterOk s) :
    NextMeets RasterOk (execKnobDetent knob dir s) := by
  have hlines : RasterOk (setLinesHigh knob.val s) := h
  refine live_keeps hlines fun hs => ?_
  exact rasterOk_takeDetent (s := setKnob knob.val (knobAt _ knob.val).atRest (setLinesHigh knob.val s)) hs _ _

theorem drawJobStart_keeps_raster (h : RasterOk s) : NextMeets RasterOk (execDrawJobStart s) :=
  live_keeps h fun hs => rasterOk_takeHeadEntry (whenDue_keeps hs (rasterOk_armHeld hs))

theorem frameEvent_keeps_raster (h : RasterOk s) : NextMeets RasterOk (execFrameEvent s) := by
  refine live_keeps h fun hs => ?_
  split
  · split
    · exact rasterOk_frameEventAt hs _ _
    · exact hs
  · exact hs

end

/-- R93, R101, R112: every row keeps the planes and the columns RASTER counts. -/
theorem exec_keeps_raster (i : Instr) {s : State} (h : RasterOk s) : NextMeets RasterOk (exec i s) := by
  cases i with
  | coldReset => exact nextMeets_next (rasterOk_coldState s)
  | resetNLow => exact nextMeets_next h
  | selectPeriodStart => exact selectPeriodStart_keeps_raster h
  | selectPeriodEnd bytes stray => exact selectPeriodEnd_keeps_raster (stray := stray) h
  | orderBadKind kind tag body => exact orderBadKind_keeps_raster h
  | drawColumn => exact drawColumn_keeps_raster h
  | waveReadDone => exact waveReadDone_keeps_raster h
  | laneConditionChange n lock => exact laneConditionChange_keeps_raster h
  | restart tag body => exact rasterOk_order h fun u _ => rasterOk_restartPart tag u
  | fieldSet tag body => exact fieldSet_keeps_raster h
  | setupWrite tag body => exact setupWrite_keeps_raster h
  | setupDefault tag body => exact rasterOk_order h fun _ hu => rasterOk_answer (rasterOk_adopt hu _)
  | power tag body => exact power_keeps_raster h
  | run tag body => exact rasterOk_unlessBlocked h fun _ => rasterOk_runAcq
  | stop tag body => exact rasterOk_unlessBlocked h fun _ => rasterOk_stopAcq
  | single tag body => exact rasterOk_unlessBlocked h fun _ => rasterOk_singleAcq
  | force tag body => exact rasterOk_unlessBlocked h fun _ => rasterOk_forceAcq
  | planesClear tag body => exact planesClear_keeps_raster h
  | flashReadPageEnd page => exact flashReadPageEnd_keeps_raster h
  | flashProgramPageEnd => exact flashProgramPageEnd_keeps_raster h
  | flashEraseSectorEnd => exact flashEraseSectorEnd_keeps_raster h
  | flashStepTimeout => exact flashStepTimeout_keeps_raster h
  | keyPress key => exact keyPress_keeps_raster h
  | knobDetent knob dir => exact knobDetent_keeps_raster h
  | knobBatchResult knob =>
    refine live_keeps h fun hs => ?_
    split
    · exact rasterOk_batchResult hs _
    · exact hs
  | edgeTrigger codes => exact rasterOk_codesRow (f := id) h fun _ => id
  | pointWritten codes => exact pointWritten_keeps_raster h
  | rollColumn codes => exact rollColumn_keeps_raster h
  | armAtRelease => exact live_keeps h fun hs => whenDue_keeps hs (rasterOk_armHeld hs)
  | columnsLeftZero => exact live_keeps h fun hs => whenDue_keeps hs (rasterOk_endRoll hs)
  | segmentReady | autoTrigger | captureEnd | storeJobStart =>
    exact live_keeps h fun hs => whenDue_keeps hs (hs.of_same (by simp) (by simp) (by simp))
  | drawJobStart => exact drawJobStart_keeps_raster h
  | frameEvent => exact frameEvent_keeps_raster h
  | idleTimerExpiry => exact live_keeps h fun hs => whenDue_keeps hs (rasterOk_requestDark hs _)
  | frameComplete bytes | lenAbove1024 bytes => exact live_keeps h fun hs => hs.of_raster (by simp)
  | frameSent | keyRepeat key | keyRelease key =>
    refine live_keeps h fun hs => ?_
    (repeat' split) <;> exact hs.of_raster (by simp)
  | _ tag body => -- the orders that leave the planes, the job and the write column as they are
    refine rasterOk_order h fun u hu => ?_
    simp only [RasterOk]
    (repeat' split) <;> simpa [RasterOk] using hu

/-- Settles O57: every row keeps the planes and the columns RASTER counts in bounds, and so does a tick that passes. -/
theorem everyStepKeepsThePlanesInBounds : Obligations.EveryStepKeepsThePlanesInBounds := by
  intro s t h ht
  have hstep : NextMeets RasterOk (step s) := by
    unfold step
    split
    next i rest _ => exact exec_keeps_raster i h
    next =>
      split
      next i _ => exact exec_keeps_raster i h
      next => exact codesRow_keeps h fun hs => rasterOk_passCodes hs _
  exact hstep t ht

end Sys2Proof.Machine
end

section
/-! SUPPORT. Draw jobs: what a start fixes and pins (O35), and what the hitting of a column changes (O36). -/

namespace Sys2Proof.Machine

/-! ## Channel sets -/

theorem perChan_ext {α : Type} {p q : PerChan α} (h : ∀ n, p.get n = q.get n) : p = q := by
  obtain ⟨p1, p2, p3, p4⟩ := p
  obtain ⟨q1, q2, q3, q4⟩ := q
  obtain ⟨h1, h2, h3, h4⟩ := And.intro (h .ch1) (And.intro (h .ch2) (And.intro (h .ch3) (h .ch4)))
  simp only [PerChan.get] at h1 h2 h3 h4
  rw [h1, h2, h3, h4]

theorem mem_members {p : PerChan Bool} {n : Chan} : n ∈ p.members ↔ p.get n = true := by
  have hall : n ∈ Chan.all := by cases n <;> decide
  simp [PerChan.members, hall]

theorem members_eq_nil {p : PerChan Bool} : p.members = [] ↔ ∀ n, p.get n = false := by
  simp only [List.eq_nil_iff_forall_not_mem, mem_members, Bool.not_eq_true]

theorem nonempty_iff {p : PerChan Bool} : p.nonempty = true ↔ ∃ n, p.get n = true := by
  simp only [PerChan.nonempty, Bool.or_eq_true]
  constructor
  · rintro (((h | h) | h) | h)
    exacts [⟨.ch1, h⟩, ⟨.ch2, h⟩, ⟨.ch3, h⟩, ⟨.ch4, h⟩]
  · rintro ⟨n, h⟩
    cases n
    exacts [.inl (.inl (.inl h)), .inl (.inl (.inr h)), .inl (.inr h), .inr h]

theorem nonempty_eq_false {p : PerChan Bool} : p.nonempty = false ↔ p = .const false := by
  rw [← Bool.not_eq_true, nonempty_iff, not_exists]
  exact ⟨fun h => perChan_ext fun n => by rw [get_const]; simpa using h n,
    fun h n => by rw [h, get_const]; exact Bool.false_ne_true⟩

theorem meets_iff {p q : PerChan Bool} : p.meets q = true ↔ ∃ n, p.get n = true ∧ q.get n = true := by
  simp only [PerChan.meets, Bool.or_eq_true, Bool.and_eq_true]
  constructor
  · rintro (((h | h) | h) | h)
    exacts [⟨.ch1, h⟩, ⟨.ch2, h⟩, ⟨.ch3, h⟩, ⟨.ch4, h⟩]
  · rintro ⟨n, h⟩
    cases n
    exacts [.inl (.inl (.inl h)), .inl (.inl (.inr h)), .inl (.inr h), .inr h]

/-! ## The start of a job -/

section
variable {s : State} {e : DrawEntry} {rest : List DrawEntry}

/-- R106: outside HELD no arm comes before the head entry is taken. -/
theorem exec_drawJobStart (hreset : s.pins.resetLow = false) (hheld : s.acq.state ≠ .held) :
    exec .drawJobStart s = .next (takeHeadEntry s) := by
  have hdue : releaseDue s = false := by simp only [releaseDue, hheld, decide_false, Bool.false_and]
  have harm : whenDue releaseDue armHeld s = s := by rw [whenDue, hdue, if_neg Bool.false_ne_true]
  change live (fun s => takeHeadEntry (whenDue releaseDue armHeld s)) s = _
  rw [live_high hreset, harm]

variable (hjob : s.raster.job = none) (hlist : s.raster.list = e :: rest)
include hjob hlist

/-- R106: a stale entry is dropped. -/
theorem takeHeadEntry_stale (h : doneWith s e.seg e.serial = false) :
    takeHeadEntry s = { s with raster := { s.raster with list := rest } } := by
  simp only [takeHeadEntry, hjob, hlist, h, Bool.false_eq_true, if_false]

theorem takeHeadEntry_starts {i : SegInfo} (h : doneWith s e.seg e.serial = true) (hi : (segAt s e.seg).info = some i) :
    takeHeadEntry s = startJob e i.geo { s with raster := { s.raster with list := rest } } := by
  simp only [takeHeadEntry, hjob, hlist, h, hi, if_true]

end

/-- R106: a job with a channel to draw. -/
theorem startJob_draws {e : DrawEntry} {g : Geometry} {s : State} (h : (jobOf s e g).draws.members ≠ []) :
    startJob e g s = { s with raster := { s.raster with
      planes := if e.clearFirst then clearedPlanes (jobOf s e g).draws s.raster.planes else s.raster.planes
      job := some (jobOf s e g) } } := by
  have htodo : (jobOf s e g).todo.isEmpty = false := by simpa [jobOf] using h
  simp only [startJob, htodo, Bool.false_eq_true, if_false]

/-- R106: a job with none completes at once, and clears nothing. -/
theorem startJob_empty {e : DrawEntry} {g : Geometry} {s : State} (h : (jobOf s e g).draws.members = []) :
    startJob e g s = { s with raster := { s.raster with job := none, view := some (e.seg, e.serial) } } := by
  have htodo : (jobOf s e g).todo.isEmpty = true := by simpa [jobOf] using h
  have hclear : clearedPlanes (jobOf s e g).draws s.raster.planes = s.raster.planes := perChan_ext fun n => by
    rw [clearedPlanes, get_ofFn, members_eq_nil.mp h n, if_neg Bool.false_ne_true]
  simp only [startJob, htodo, if_true, hclear, ite_self]
  rfl

/-- Settles O35: outside HELD the head entry is taken; stale, with nothing to draw, or as a job of the values it fixes. -/
theorem drawJobStartPinsAndFixesItsValues : Obligations.DrawJobStartPinsAndFixesItsValues := by
  intro s e rest hreset hheld hjob hlist
  rw [exec_drawJobStart hreset hheld]
  refine ⟨fun hstale => ?_, fun i draws hstate hserial hi hdraws => ?_⟩
  · have hnot : doneWith s e.seg e.serial = false := by
      rw [← Bool.not_eq_true, doneWith_iff, not_and_or]
      exact hstale
    rw [takeHeadEntry_stale hjob hlist hnot]
  · subst hdraws
    rw [takeHeadEntry_starts hjob hlist ((doneWith_iff _ _ _).mpr ⟨hstate, hserial⟩) hi]
    exact ⟨fun hnone => congrArg _ (startJob_empty hnone), fun hsome => congrArg _ (startJob_draws hsome)⟩

/-! ## The hitting of a column -/

/-- R101: one hit on the marked pixels of one column; no other pixel changes. -/
theorem intensity_hitColumn (w c : Nat) (spans : List (Nat × Nat)) (p : List (Nat × Byte)) (c' r : Nat) (hr : r < 400) :
    (intensity (hitColumn w c spans p) c' r).toNat = if c' = c ∧ marked spans r = true then
      Nat.min 255 ((intensity p c' r).toNat + w) else (intensity p c' r).toNat := by
  have hhit : ∀ i : Byte, (hitValue w i).toNat = Nat.min 255 (i.toNat + w) := fun i => by
    have hle : Nat.min 255 (i.toNat + w) ≤ 255 := Nat.min_le_left _ _
    rw [hitValue, BitVec.toNat_ofNat, Nat.mod_eq_of_lt (by omega)]
  rw [hitColumn, intensity_mapColumn _ _ _ _ _ hr]
  by_cases hc : c' = c
  · subst hc
    by_cases hm : marked spans r = true <;> simp [hm, hhit]
  · rw [if_neg hc, if_neg fun h => hc h.1]

/-- R108: the job after a column, none once its last channel is drawn. -/
theorem hitJobColumn_eq {j : DrawJob} {n : Chan} {todo : List Chan} (g : Geometry) (s : State) (htodo : j.todo = n :: todo) :
    hitJobColumn j n g s = { s with raster := { s.raster with
      planes := s.raster.planes.set n (hitColumn j.hitw j.nextCol
        (columnSpans s g j.seg n j.style (j.scaling.get n) j.nextCol) (s.raster.planes.get n))
      view := if 499 ≤ j.nextCol ∧ todo = [] then some (j.seg, j.serial) else s.raster.view
      job := if j.nextCol < 499 then some { j with nextCol := j.nextCol + 1 }
        else if todo = [] then none else some { j with nextCol := 0, todo := todo } } } := by
  by_cases hcol : j.nextCol < 499
  · have hadvance : j.advance = { j with nextCol := j.nextCol + 1 } := if_pos hcol
    have hview : ¬ (499 ≤ j.nextCol ∧ todo = []) := fun h => by omega
    simp only [hitJobColumn, hadvance, htodo, List.isEmpty_cons, Bool.false_eq_true, if_false, if_pos hcol, if_neg hview]
  · have hadvance : j.advance = { j with nextCol := 0, todo := todo } := by
      rw [DrawJob.advance, if_neg hcol, htodo, List.drop_one, List.tail_cons]
    cases todo with
    | nil =>
      have hlast : 499 ≤ j.nextCol := Nat.not_lt.mp hcol
      simp only [hitJobColumn, hadvance, List.isEmpty_nil, if_true, if_neg hcol, hlast, and_self]
      rfl
    | cons m ms =>
      simp only [hitJobColumn, hadvance, List.isEmpty_cons, Bool.false_eq_true, if_false, if_neg hcol, reduceCtorEq, and_false]

/-- R101: the row DRAW_COLUMN of a job whose region lies in the memory. -/
theorem exec_drawColumn {s : State} {j : DrawJob} {n : Chan} {todo : List Chan} {i : SegInfo} (hreset : s.pins.resetLow = false)
    (hjob : s.raster.job = some j) (htodo : j.todo = n :: todo) (hi : (segAt s j.seg).info = some i)
    (hregion : (j.seg + 1) * i.geo.size ≤ memSize) : exec .drawColumn s = .next (hitJobColumn j n i.geo s) := by
  have hexists : regionExists (regionOf j.seg i.geo) = true := decide_eq_true hregion
  change execDrawColumn s = _
  simp only [execDrawColumn, hreset, hjob, htodo, hi, hexists, Bool.false_eq_true, if_false, if_true]

/-- Settles O36: the column's plane is hit on its marked pixels; the job advances or ends. -/
theorem drawColumnHitsItsPixels : Obligations.DrawColumnHitsItsPixels := by
  intro s j n todo i hreset hjob htodo hi hregion
  refine ⟨_, (exec_drawColumn hreset hjob htodo hi hregion).trans (congrArg _ (hitJobColumn_eq i.geo s htodo)),
    fun m hm => ?_, fun c r hr => ?_⟩
  · rw [perChan_get_set, if_neg hm]
  · rw [perChan_get_set, if_pos rfl, intensity_hitColumn _ _ _ _ _ _ hr]
    refine ite_congr (propext (and_congr_right fun hc => ?_)) (fun _ => rfl) fun _ => rfl
    rw [hc]

end Sys2Proof.Machine
end

section
/-! SUPPORT. DRAW and PLANES.CLEAR: the checks of their bodies, and what an accepted one leaves (O34). -/

namespace Sys2Proof.Machine

/-! ## The set of a body's byte -/

theorem get_ofSetByte (b : Byte) (n : Chan) : (PerChan.ofSetByte b).get n = b.getLsbD (n.num - 1) := by cases n <;> rfl

/-- R213: of the bytes that name no fifth channel, 0 alone names none. -/
theorem ofSetByte_nonempty {b : Byte} (hlt : b.toNat < 16) (hne : b ≠ 0) : (PerChan.ofSetByte b).nonempty = true := by
  have hall : ∀ m < 16, m ≠ 0 → (PerChan.ofSetByte (BitVec.ofNat 8 m)).nonempty = true := by decide
  have hb := hall b.toNat hlt fun h => hne (BitVec.eq_of_toNat_eq h)
  rwa [BitVec.ofNat_toNat, BitVec.setWidth_eq] at hb

/-! ## DRAW -/

/-- R114: the checks of a DRAW outside STANDBY and ROLLING, of a set of channels there are. -/
theorem drawChecks_eq {s : State} {body : List Byte} (hpower : s.power.state ≠ .standby) (hstate : s.acq.state ≠ .rolling)
    (hne : byteAt body 5 ≠ 0) (hlt : (byteAt body 5).toNat < 16) : drawChecks s body =
      if (segAt s (byteAt body 0).toNat).state ≠ .done then .wrongState
      else if (segAt s (byteAt body 0).toNat).serial ≠ BitVec.ofNat 32 (natAt body 1 4) then .stale
      else if 8 ≤ s.raster.list.length then .busy else .ok := by
  have hbyte : ¬ ((byteAt body 5).toNat = 0 ∨ 15 < (byteAt body 5).toNat) := by
    rintro (h | h)
    · exact hne (BitVec.eq_of_toNat_eq h)
    · omega
  rw [drawChecks, if_neg hpower, if_neg hstate, if_neg hbyte]

theorem drawEntryOf_eq (body : List Byte) : drawEntryOf body = ⟨(byteAt body 0).toNat, BitVec.ofNat 32 (natAt body 1 4),
    ⟨(byteAt body 5).getLsbD 0, (byteAt body 5).getLsbD 1, (byteAt body 5).getLsbD 2, (byteAt body 5).getLsbD 3⟩,
    decide (byteAt body 6 ≠ 0), false⟩ := by
  have hclear : (byteAt body 6 != 0) = decide (byteAt body 6 ≠ 0) := by
    rw [Bool.eq_iff_iff, bne_iff_ne, decide_eq_true_iff]
  rw [drawEntryOf, hclear]
  rfl

theorem drawChecks_wrongState {s : State} {body : List Byte} (h : s.power.state = .standby ∨ s.acq.state = .rolling) :
    drawChecks s body = .wrongState := by
  unfold drawChecks
  split
  · rfl
  next hpower => rw [if_pos (h.resolve_left hpower)]

theorem drawChecks_badValue {s : State} {body : List Byte} (hpower : s.power.state ≠ .standby) (hstate : s.acq.state ≠ .rolling)
    (h : byteAt body 5 = 0 ∨ 16 ≤ (byteAt body 5).toNat) : drawChecks s body = .badValue := by
  have hbyte : (byteAt body 5).toNat = 0 ∨ 15 < (byteAt body 5).toNat := h.imp (fun h => by rw [h]; rfl) Nat.lt_of_succ_le
  rw [drawChecks, if_neg hpower, if_neg hstate, if_pos hbyte]

section
variable {tag : Byte} {body : List Byte} {s : State} (h : Ready 0x20 tag body s) (hlen : body.length = 7)
include h hlen

theorem exec_draw_refused {st : Status} (hst : drawChecks s body = st) (hne : st ≠ .ok) :
    exec (.draw tag body) s = .next (answered 0x20 tag st [] s) := by
  have hchecks : drawChecks (popInbound s) body = st := hst
  refine (order_ready h _ _ (by simp [lenIs, hlen])).trans (congrArg _ ?_)
  simp only [hchecks]
  cases st with
  | ok => exact absurd rfl hne
  | _ => exact answer_popInbound _ _ _ _ s

theorem exec_draw_ok (hst : drawChecks s body = .ok) : exec (.draw tag body) s =
    .next (answered 0x20 tag .ok [] { s with raster := { s.raster with list := s.raster.list ++ [drawEntryOf body] } }) := by
  have hchecks : drawChecks (popInbound s) body = .ok := hst
  refine (order_ready h _ _ (by simp [lenIs, hlen])).trans (congrArg _ ?_)
  simp only [hchecks]
  exact answer_popInbound _ _ _ _ { s with raster := { s.raster with list := s.raster.list ++ [drawEntryOf body] } }

end

/-! ## PLANES.CLEAR -/

theorem clearMeetsJob_eq (set : PerChan Bool) (s : State) :
    clearMeetsJob set s = s.raster.job.any (fun j => j.draws.meets set) := by
  unfold clearMeetsJob
  cases s.raster.job <;> rfl

theorem get_clearedPlanes (set : PerChan Bool) (p : PerChan (List (Nat × Byte))) (n : Chan) :
    (clearedPlanes set p).get n = if set.get n then [] else p.get n := get_ofFn _ n

section
variable {tag b : Byte} {s : State} (h : Ready 0x21 tag [b] s)
include h

theorem exec_planesClear_refused (hb : b = 0 ∨ 16 ≤ b.toNat) :
    exec (.planesClear tag [b]) s = .next (answered 0x21 tag .badValue [] s) := by
  refine (order_ready h _ _ rfl).trans (congrArg _ ?_)
  by_cases hlt : b.toNat < 16
  · obtain rfl : b = 0 := hb.resolve_right (by omega)
    exact answer_popInbound _ _ _ _ s
  · have hset : chanSetOf (byteAt [b] 0) = none := if_neg hlt
    simp only [hset]
    exact answer_popInbound _ _ _ _ s

theorem exec_planesClear (hne : b ≠ 0) (hlt : b.toNat < 16) : exec (.planesClear tag [b]) s =
    .next (answered 0x21 tag .ok [] (clearPlanes (.ofSetByte b) s)) := by
  have hset : chanSetOf (byteAt [b] 0) = some (.ofSetByte b) := if_pos hlt
  refine (order_ready h _ _ rfl).trans (congrArg _ ?_)
  simp only [hset, ofSetByte_nonempty hlt hne, if_true]
  exact answer_popInbound _ _ _ _ (clearPlanes (.ofSetByte b) s)

end

end Sys2Proof.Machine
end

section
/-! SUPPORT. A change of MAP class: the planes it clears, the job it cancels and the redraw it arranges; O34 put together. -/

namespace Sys2Proof.Machine

/-! ## The redraw -/

/-- R110: the job that a change affecting a set of channels cancels. -/
def cancelledJob (set : PerChan Bool) (s : State) : Option DrawJob := if clearMeetsJob set s then s.raster.job else none

theorem cancelledJob_eq_some {set : PerChan Bool} {s : State} {j : DrawJob} :
    cancelledJob set s = some j ↔ s.raster.job = some j ∧ ∃ n, j.draws.get n = true ∧ set.get n = true := by
  rw [cancelledJob, clearMeetsJob_eq, ← meets_iff]
  cases hjob : s.raster.job with
  | none => simp
  | some k =>
    simp only [Option.any_some, Option.ite_none_right_eq_some, Option.some.injEq]
    exact ⟨fun h => ⟨h.2, h.2 ▸ h.1⟩, fun h => ⟨h.1 ▸ h.2, h.1⟩⟩

/-- R109: a clear leaves no job where it cancels one. -/
theorem clearPlanes_job (set : PerChan Bool) (s : State) :
    (clearPlanes set s).raster.job = if (cancelledJob set s).isSome then none else s.raster.job := by
  by_cases hmeets : clearMeetsJob set s = true
  · simp only [clearPlanes, cancelledJob, if_pos hmeets]
    cases s.raster.job <;> rfl
  · simp only [clearPlanes, cancelledJob, if_neg hmeets]
    rfl

theorem autoEntry_eq_none {s : State} : autoEntry s = none ↔ ∀ e ∈ s.raster.list, e.automatic = false := by
  simp [autoEntry]

/-- R104, R110: a redraw joins a list that holds no automatic entry. -/
theorem enterRedraw_list {k : Nat} {ser : Serial} {s : State} {entry : DrawEntry}
    (hentry : entry = ⟨k, ser, redrawSet s k, decide (s.setup.persist = .off), true⟩) (hpower : s.power.state ≠ .standby)
    (hauto : ∀ e ∈ s.raster.list, e.automatic = false) : (enterRedraw k ser s).raster.list =
      if redrawSet s k = .const false then s.raster.list
      else if s.raster.list.length < 8 then s.raster.list ++ [entry] else s.raster.list := by
  have hnone : ¬ ∃ e ∈ s.raster.list, e.automatic = true := fun ⟨e, he, ha⟩ => by simp [hauto e he] at ha
  simp only [enterRedraw]
  cases hset : (redrawSet s k).nonempty with
  | false => rw [if_pos (nonempty_eq_false.mp hset), if_neg Bool.false_ne_true]
  | true =>
    have hne : redrawSet s k ≠ .const false := fun h => by simp [nonempty_eq_false.mpr h] at hset
    rw [if_pos rfl, if_neg hne, enterAutomatic, if_neg hpower, hentry]
    simp only [listWithAuto_eq, if_neg hnone]

section
variable {s : State} {set : PerChan Bool}

/-- R110: what a change that affects a set of channels makes of the planes and the job. -/
theorem mapChange_planes_job : (mapChange set s).raster.planes = clearedPlanes set s.raster.planes ∧
    (mapChange set s).raster.job = if (cancelledJob set s).isSome then none else s.raster.job := by
  rw [← clearPlanes_job]
  simp only [mapChange]
  (repeat' split) <;> exact ⟨by simp [clearPlanes], by simp⟩

/-- R110: no redraw while ACQ runs, in STANDBY, or where an automatic entry stands in the list. -/
theorem mapChange_list_kept (h : s.acq.state ≠ .stopped ∨ s.power.state = .standby ∨ ∃ e ∈ s.raster.list, e.automatic = true) :
    (mapChange set s).raster.list = s.raster.list := by
  have hkept : ¬ (s.acq.state = .stopped ∧ s.power.state ≠ .standby) ∨ (autoEntry (clearPlanes set s)).isSome = true := by
    rcases h with h | h | ⟨e, he, ha⟩
    · exact .inl fun hs => h hs.1
    · exact .inl fun hs => hs.2 h
    · refine .inr (Option.isSome_iff_ne_none.mpr fun hnone => ?_)
      have := autoEntry_eq_none.mp hnone e he
      simp [this] at ha
  have hstate : (clearPlanes set s).acq.state = s.acq.state ∧ (clearPlanes set s).power.state = s.power.state := by simp
  simp only [mapChange, hstate]
  rcases hkept with h | h
  · rw [if_neg h]
    rfl
  · rw [if_pos h, ite_self]
    rfl

variable (hstopped : s.acq.state = .stopped) (hpower : s.power.state ≠ .standby)
  (hauto : ∀ e ∈ s.raster.list, e.automatic = false)
include hstopped hpower hauto

/-- R110: while ACQ is STOPPED the job cancelled is drawn again, else the view segment. -/
theorem mapChange_redraws : mapChange set s = match cancelledJob set s, s.raster.view with
    | some j, _ => enterRedraw j.seg j.serial (clearPlanes set s)
    | none, some v => enterRedraw v.1 v.2 (clearPlanes set s)
    | none, none => clearPlanes set s := by
  have hstate : (clearPlanes set s).acq.state = .stopped ∧ (clearPlanes set s).power.state ≠ .standby := ⟨hstopped, hpower⟩
  have hnone : autoEntry (clearPlanes set s) = none := autoEntry_eq_none.mpr hauto
  simp only [mapChange, if_pos hstate, hnone, Option.isSome_none, Bool.false_eq_true, if_false]
  rfl

theorem mapChange_list_none (hcancelled : cancelledJob set s = none) (hview : s.raster.view = none) :
    (mapChange set s).raster.list = s.raster.list := by
  rw [mapChange_redraws hstopped hpower hauto, hcancelled, hview]
  rfl

theorem mapChange_list {k : Nat} {ser : Serial} (hdrawn : (∃ j, cancelledJob set s = some j ∧ k = j.seg ∧ ser = j.serial) ∨
    cancelledJob set s = none ∧ s.raster.view = some (k, ser)) : (mapChange set s).raster.list =
      if redrawSet s k = .const false then s.raster.list else if s.raster.list.length < 8 then
        s.raster.list ++ [⟨k, ser, redrawSet s k, decide (s.setup.persist = .off), true⟩] else s.raster.list := by
  have hredraw : mapChange set s = enterRedraw k ser (clearPlanes set s) := by
    rw [mapChange_redraws hstopped hpower hauto]
    rcases hdrawn with ⟨j, hj, rfl, rfl⟩ | ⟨hnone, hview⟩
    · rw [hj]
    · rw [hnone, hview]
  rw [hredraw]
  exact enterRedraw_list (s := clearPlanes set s) rfl hpower hauto

end

/-! ## The change of the record -/

theorem get_mapChannels {a b : Setup} {n : Chan} : (mapChannels a b).get n = true ↔ a.persist ≠ b.persist ∨ a.style ≠ b.style ∨
    (a.ch.get n).scale ≠ (b.ch.get n).scale ∨ (a.ch.get n).pos ≠ (b.ch.get n).pos := by
  simp only [mapChannels, get_ofFn, Bool.or_eq_true, decide_eq_true_eq, or_assoc]

/-- R13, R110: a change that carries MAP, and neither ACQ nor TRIG, reaches RASTER and the annotation. -/
theorem adopt_mapChange {u : Setup} {s : State} (hacq : carriesAcq s.setup u = false) (htrig : carriesTrig s.setup u = false)
    (hmap : (mapChannels s.setup u).nonempty = true) :
    adopt u s = tellAnnotation s.setup u (mapChange (mapChannels s.setup u) (stored u s)) := by
  have hu : u ≠ s.setup := by
    rintro rfl
    obtain ⟨n, hn⟩ := nonempty_iff.mp hmap
    simp [get_mapChannels] at hn
  rw [adopt, if_neg hu, tellBlocks, laneAfterChange_of_not_carriesAcq hacq, tellAcq, hacq, if_neg Bool.false_ne_true, tellTrig,
    htrig, if_neg Bool.false_ne_true, tellMap, if_pos hmap]
  rfl

/-- R110: what a change that carries MAP, and neither ACQ nor TRIG, leaves of ACQ and RASTER. -/
theorem adopt_mapChange_frame {u : Setup} {s : State} (hacq : carriesAcq s.setup u = false)
    (htrig : carriesTrig s.setup u = false) (hmap : (mapChannels s.setup u).nonempty = true) : (adopt u s).acq = s.acq ∧
    (adopt u s).raster = (mapChange (mapChannels s.setup u) (stored u s)).raster := by
  rw [adopt_mapChange hacq htrig hmap]
  simp [stored]

/-- Settles O34: the checks of DRAW in their order, the clear of PLANES.CLEAR, the clear and the redraw of a change of MAP class. -/
theorem drawAndPlanesClearOrders : Obligations.DrawAndPlanesClearOrders := by
  refine ⟨fun tag body s r ser h hlen hr hser => ?_, fun tag b s h => ⟨exec_planesClear_refused h, fun hne hlt => ?_⟩,
    fun u s d hacq htrig hd hsome => ?_⟩
  · subst hr hser
    refine ⟨fun hw => exec_draw_refused h hlen (drawChecks_wrongState hw) (by simp), fun hpower hstate =>
      ⟨fun hset => exec_draw_refused h hlen (drawChecks_badValue hpower hstate hset) (by simp), fun hne hlt => ?_⟩⟩
    have hchecks := drawChecks_eq hpower hstate hne hlt
    refine ⟨fun hdone => exec_draw_refused h hlen (hchecks.trans (if_pos hdone)) (by simp), fun hdone hser => ?_,
      fun hdone hser hfull => ?_, fun hdone hser hroom => ?_⟩
    · exact exec_draw_refused h hlen (by rw [hchecks, if_neg (not_not.mpr hdone), if_pos hser]) (by simp)
    · exact exec_draw_refused h hlen
        (by rw [hchecks, if_neg (not_not.mpr hdone), if_neg (not_not.mpr hser), if_pos hfull]) (by simp)
    · rw [exec_draw_ok h hlen
        (by rw [hchecks, if_neg (not_not.mpr hdone), if_neg (not_not.mpr hser), if_neg (Nat.not_le.mpr hroom)])]
      rw [drawEntryOf_eq]
  · refine ⟨clearedPlanes (.ofSetByte b) s.raster.planes, (exec_planesClear h hne hlt).trans ?_, fun n => ?_⟩
    · rw [clearPlanes, clearMeetsJob_eq]
    · rw [get_clearedPlanes, get_ofSetByte]
      exact ⟨fun hin => if_pos hin, fun hout => by rw [hout, if_neg Bool.false_ne_true]⟩
  · have hset : d = mapChannels s.setup u := perChan_ext fun n => by rw [Bool.eq_iff_iff, hd, get_mapChannels]
    subst hset
    obtain ⟨hsame, hraster⟩ := adopt_mapChange_frame hacq htrig (nonempty_iff.mpr hsome)
    obtain ⟨hplanes, hjob⟩ := mapChange_planes_job (s := stored u s) (set := mapChannels s.setup u)
    rw [hraster]
    refine ⟨hsame, fun n => ?_, by simp [stored], by simp [stored], cancelledJob (mapChannels s.setup u) (stored u s),
      fun j => cancelledJob_eq_some, hjob, mapChange_list_kept (s := stored u s), fun hstopped hpower hauto =>
      ⟨mapChange_list_none (s := stored u s) hstopped hpower hauto, fun k ser set hdrawn hk => ?_⟩⟩
    · rw [hplanes, get_clearedPlanes]
      rfl
    · subst hk
      exact mapChange_list (s := stored u s) hstopped hpower hauto hdrawn

end Sys2Proof.Machine
end

section
/-! SUPPORT. The rows of a record point, the points of a column and the rows that a column's spans mark (O37). -/

namespace Sys2Proof.Machine

/-! ## The rows of a point (R96, R97) -/

theorem rowOf_eq (sc : ChanScaling) (c : Byte) {t : Int} (ht : t = 2 * ((c.toNat : Int) - 128) * sc.k + 512 * sc.pos) :
    (rowOf sc c : Int) = max 0 (min 399 ((204800 - t + 512) / 1024)) := by
  simp only [rowOf, clampInt, ← ht]
  split
  · omega
  · split <;> omega

theorem chanIndex_eq (enabled : PerChan Bool) (n : Chan) : chanIndex enabled n =
    (([Chan.ch1, .ch2, .ch3, .ch4].filter (fun m => enabled.get m && decide (m.num < n.num))).length) := by
  rw [chanIndex, PerChan.members, List.filter_filter, Chan.all]
  simp only [Bool.and_comm]

/-- R33: the codes of a point stand in one byte, or in two with the smallest first. -/
theorem codesAt_eq {s : State} {g : Geometry} {k i a b : Nat} {n : Chan} (hb : b = pointBytes g.mode)
    (ha : a = g.addr k (g.position i) n) : codesAt s g k i n =
      (memByte s.acq.memEpoch s.acq.mem a, memByte s.acq.memEpoch s.acq.mem (a + b - 1)) := by
  subst ha hb
  unfold codesAt pointBytesAt
  cases g.mode <;> rfl

/-! ## The points of a column (R97) -/

section
variable {len i c : Nat}

theorem firstPoint_le (hlen : 0 < len) : firstPoint len c ≤ i ↔ c ≤ columnOf len i := by
  rw [columnOf, Nat.le_div_iff_mul_le hlen, firstPoint]
  omega

theorem lt_firstPoint (hlen : 0 < len) : i < firstPoint len c ↔ columnOf len i < c := by
  rw [← not_le, firstPoint_le hlen, not_le]

theorem columnOf_zero : columnOf len 0 = 0 := by simp [columnOf]

theorem mem_pointsIn (hlen : 0 < len) : i ∈ pointsIn len c ↔ columnOf len i = c := by
  have hfrom := firstPoint_le (i := i) (c := c) hlen
  have hto := lt_firstPoint (i := i) (c := c + 1) hlen
  simp only [pointsIn, List.mem_map, List.mem_range]
  constructor
  · rintro ⟨d, hd, rfl⟩
    have := hfrom.mp (by omega)
    have := hto.mp (by omega)
    omega
  · intro hc
    have := hfrom.mpr (by omega)
    have := hto.mpr (by omega)
    exact ⟨i - firstPoint len c, by omega, by omega⟩

theorem lt_len_of_columnOf (hlen : 0 < len) (h : columnOf len i < 500) : i < len := by
  have := (Nat.div_lt_iff_lt_mul hlen).mp h
  omega

/-- With 500 points or more no column is left out. -/
theorem columnOf_succ_le (hlen : 500 ≤ len) : columnOf len (i + 1) ≤ columnOf len i + 1 := by
  have hstep : (i + 1) * 500 ≤ i * 500 + len := by omega
  calc (i + 1) * 500 / len ≤ (i * 500 + len) / len := Nat.div_le_div_right hstep
    _ = i * 500 / len + 1 := Nat.add_div_right _ (by omega)

/-- With 500 points or fewer no two share a column. -/
theorem columnOf_lt_succ (hlen : 0 < len) (hle : len ≤ 500) : columnOf len i < columnOf len (i + 1) := by
  have hstep : i * 500 + len ≤ (i + 1) * 500 := by omega
  calc i * 500 / len < i * 500 / len + 1 := Nat.lt_succ_self _
    _ = (i * 500 + len) / len := (Nat.add_div_right _ hlen).symm
    _ ≤ (i + 1) * 500 / len := Nat.div_le_div_right hstep

/-- R99: the points of a column and the last one of the column before. -/
theorem mem_vectorPoints (hlen : 500 ≤ len) :
    i ∈ vectorPoints len c ↔ columnOf len i = c ∨ columnOf len i + 1 = c ∧ columnOf len (i + 1) = c := by
  have hpos : 0 < len := by omega
  unfold vectorPoints
  split
  next hc =>
    rw [mem_pointsIn hpos]
    omega
  next hc =>
    have hfirst := (lt_firstPoint (len := len) (i := 0) (c := c) hpos).mpr (by rw [columnOf_zero]; omega)
    have hbefore := lt_firstPoint (len := len) (i := i) (c := c) hpos
    have hfrom := firstPoint_le (len := len) (i := i + 1) (c := c) hpos
    have hstep := columnOf_succ_le (i := i) hlen
    rw [List.mem_cons, mem_pointsIn hpos, or_comm]
    omega

/-- The point whose column is c or, with none there, the last one before. -/
theorem firstPoint_succ_of_between (hlen : 0 < len) (hfrom : columnOf len i ≤ c) (hto : c < columnOf len (i + 1)) :
    firstPoint len (c + 1) = i + 1 := by
  have := (firstPoint_le (i := i + 1) (c := c + 1) hlen).mpr hto
  have := (lt_firstPoint (i := i) (c := c + 1) hlen).mpr (by omega)
  omega

theorem exists_between (hlen : 0 < len) (hc : c < columnOf len (len - 1)) :
    ∃ i, i + 1 < len ∧ columnOf len i ≤ c ∧ c < columnOf len (i + 1) := by
  have hfirst := (lt_firstPoint (len := len) (i := 0) (c := c + 1) hlen).mpr (by rw [columnOf_zero]; omega)
  have hlast := (firstPoint_le (len := len) (i := len - 1) (c := c + 1) hlen).mpr hc
  obtain ⟨i, hi⟩ : ∃ i, firstPoint len (c + 1) = i + 1 := ⟨firstPoint len (c + 1) - 1, by omega⟩
  have := (lt_firstPoint (len := len) (i := i) (c := c + 1) hlen).mp (by omega)
  exact ⟨i, by omega, by omega, (firstPoint_le hlen).mp (le_of_eq hi)⟩

end

/-! ## Spans -/

theorem marked_iff {spans : List (Nat × Nat)} {r : Nat} : marked spans r = true ↔ ∃ x ∈ spans, x.1 ≤ r ∧ r ≤ x.2 := by
  simp only [marked, List.any_eq_true, Bool.and_eq_true, decide_eq_true_eq]

theorem marked_single {lo hi r : Nat} : marked [(lo, hi)] r = true ↔ lo ≤ r ∧ r ≤ hi := by simp [marked_iff]

/-- The ends of a span over some rows. -/
theorem foldl_minMax (xs : List (Nat × Nat)) (acc : Nat × Nat) (r : Nat) :
    ((xs.foldl (fun acc x => (Nat.min acc.1 x.1, Nat.max acc.2 x.2)) acc).1 ≤ r ↔ ∃ x ∈ acc :: xs, x.1 ≤ r) ∧
    (r ≤ (xs.foldl (fun acc x => (Nat.min acc.1 x.1, Nat.max acc.2 x.2)) acc).2 ↔ ∃ x ∈ acc :: xs, r ≤ x.2) := by
  induction xs generalizing acc with
  | nil => simp
  | cons x xs ih =>
    obtain ⟨hmin, hmax⟩ := ih (Nat.min acc.1 x.1, Nat.max acc.2 x.2)
    have hlo : Nat.min acc.1 x.1 ≤ r ↔ acc.1 ≤ r ∨ x.1 ≤ r := min_le_iff
    have hhi : r ≤ Nat.max acc.2 x.2 ↔ r ≤ acc.2 ∨ r ≤ x.2 := le_max_iff
    rw [List.foldl_cons, hmin, hmax]
    simp only [List.mem_cons, exists_eq_or_imp, hlo, hhi, or_assoc, and_self]

theorem marked_spanOver {rows : List (Nat × Nat)} {r : Nat} :
    marked (spanOver rows) r = true ↔ ∃ x ∈ rows, ∃ y ∈ rows, x.1 ≤ r ∧ r ≤ y.2 := by
  cases rows with
  | nil => simp [spanOver, marked]
  | cons x xs =>
    obtain ⟨hmin, hmax⟩ := foldl_minMax xs x r
    rw [spanOver, marked_single, hmin, hmax]
    exact ⟨fun ⟨⟨a, ha, hr⟩, b, hb, hr'⟩ => ⟨a, ha, b, hb, hr, hr'⟩,
      fun ⟨a, ha, b, hb, hr, hr'⟩ => ⟨⟨a, ha, hr⟩, b, hb, hr'⟩⟩

section
variable {s : State} {g : Geometry} {k : Nat} {n : Chan} {sc : ChanScaling} {c r : Nat}

/-- R98: DOTS. -/
theorem marked_dots (hlen : 0 < g.len) (hc : c < 500) : marked (columnSpans s g k n .dots sc c) r = true ↔
    ∃ i, i < g.len ∧ columnOf g.len i = c ∧ (rowsAt s g k n sc i).1 ≤ r ∧ r ≤ (rowsAt s g k n sc i).2 := by
  simp only [columnSpans, dotSpans, marked_iff, List.mem_map, exists_exists_and_eq_and, mem_pointsIn hlen]
  exact exists_congr fun i => ⟨fun ⟨hcol, hrows⟩ => ⟨lt_len_of_columnOf hlen (by omega), hcol, hrows⟩, fun ⟨_, h⟩ => h⟩

/-- R99: VECTORS with 500 points or more. -/
theorem marked_vectors (hlen : 500 ≤ g.len) : marked (columnSpans s g k n .vectors sc c) r = true ↔
    ∃ i ∈ vectorPoints g.len c, ∃ j ∈ vectorPoints g.len c,
      (rowsAt s g k n sc i).1 ≤ r ∧ r ≤ (rowsAt s g k n sc j).2 := by
  simp only [columnSpans, if_pos hlen, vectorSpans, marked_spanOver, List.mem_map, exists_exists_and_eq_and]

end

/-! ## Interpolation (R100) -/

section
variable {s : State} {g : Geometry} {k : Nat} {n : Chan} {sc : ChanScaling} {y yc : Nat → Nat}
  (hlen : 0 < g.len) (hlt : g.len < 500) (hy : y = fun i => (rowsAt s g k n sc i).1)
include hlen hy

/-- R100: between the columns of two points the row lies on the line that joins theirs. -/
theorem interpolated_between {i c : Nat} (hi : i + 1 < g.len) (hfrom : columnOf g.len i ≤ c) (hto : c < columnOf g.len (i + 1)) :
    interpolated s g k n sc c = ((y i : Int) + roundHalfAway (((y (i + 1) : Int) - y i) * ((c : Int) - columnOf g.len i))
      (columnOf g.len (i + 1) - columnOf g.len i)).toNat := by
  subst hy
  simp only [interpolated, firstPoint_succ_of_between hlen hfrom hto, Nat.add_sub_cancel, if_neg (Nat.not_le.mpr hi)]

include hlt

theorem interpolated_last : interpolated s g k n sc (columnOf g.len (g.len - 1)) = y (g.len - 1) := by
  have hnext := columnOf_lt_succ (i := g.len - 1) hlen (by omega)
  have hpoint := firstPoint_succ_of_between hlen le_rfl hnext
  subst hy
  simp only [interpolated, hpoint, Nat.add_sub_cancel]
  rw [if_pos (by omega)]

variable (hline : ∀ i c, i + 1 < g.len → columnOf g.len i ≤ c → c < columnOf g.len (i + 1) → (yc c : Int) =
    y i + roundHalfAway (((y (i + 1) : Int) - y i) * ((c : Int) - columnOf g.len i)) (columnOf g.len (i + 1) - columnOf g.len i))
  (hlast : yc (columnOf g.len (g.len - 1)) = y (g.len - 1))
include hline hlast

/-- R100: the row y(c) of a column up to the last point's. -/
theorem interpolated_eq {c : Nat} (hc : c ≤ columnOf g.len (g.len - 1)) : interpolated s g k n sc c = yc c := by
  rcases Nat.lt_or_eq_of_le hc with hc | rfl
  · obtain ⟨i, hi, hfrom, hto⟩ := exists_between hlen hc
    rw [interpolated_between hlen hy hi hfrom hto, ← hline i c hi hfrom hto, Int.toNat_natCast]
  · rw [interpolated_last hlen hlt hy, hlast]

/-- R100: VECTORS with fewer than 500 points. -/
theorem marked_interpolated (c r : Nat) :
    (c < columnOf g.len (g.len - 1) → (marked (columnSpans s g k n .vectors sc c) r = true ↔
      min (yc c) (yc (c + 1)) ≤ r ∧ r ≤ max (yc c) (yc (c + 1)))) ∧
    (c = columnOf g.len (g.len - 1) → (marked (columnSpans s g k n .vectors sc c) r = true ↔ r = y (g.len - 1))) ∧
    (columnOf g.len (g.len - 1) < c → marked (columnSpans s g k n .vectors sc c) r = false) := by
  have hrow := fun c hc => interpolated_eq hlen hlt hy hline hlast (c := c) hc
  have hspans : columnSpans s g k n .vectors sc c = interpolatedSpans s g k n sc c := if_neg (Nat.not_le.mpr hlt)
  rw [hspans]
  refine ⟨fun hc => ?_, fun hc => ?_, fun hc => ?_⟩
  · simp only [interpolatedSpans, if_neg (Nat.not_lt.mpr hc.le), if_neg hc.ne, hrow c hc.le, hrow (c + 1) hc]
    exact marked_single
  · subst hc
    simp only [interpolatedSpans, lt_irrefl, if_false, if_true, interpolated_last hlen hlt hy, marked_single]
    omega
  · simp only [interpolatedSpans, if_pos hc]
    rfl

end

/-- Settles O37: the row of a code, the rows of a point, and the rows that each style marks. -/
theorem rowsAndSpansOfARecord : Obligations.RowsAndSpansOfARecord := by
  refine ⟨fun sc c t ht => rowOf_eq sc c ht, fun s g k n sc i b q a hb hq ha => ?_,
    fun s g k n sc c r hlen hc => ⟨fun hlong => ?_, marked_dots hlen hc⟩,
    fun s g k n sc y yc last hlen hlt hy hlast hline hend c r => ?_⟩
  · have hbytes : b = pointBytes g.mode := hb
    have haddr : a = g.addr k (g.position i) n := by
      rw [ha, hq, hbytes, Geometry.addr, chanIndex_eq]
      rfl
    rw [rowsAt, codesAt_eq hbytes haddr]
  · rw [marked_vectors hlong]
    simp only [mem_vectorPoints hlong]
    exact ⟨fun ⟨i, hi, j, hj, h⟩ => ⟨i, j, hi, hj, h⟩, fun ⟨i, j, hi, hj, h⟩ => ⟨i, hi, j, hj, h⟩⟩
  · subst hlast
    exact marked_interpolated hlen hlt hy hline hend c r

end Sys2Proof.Machine
end

section
/-! SUPPORT. The cells that a run and an erased rectangle leave, the entries that a palette write leaves, and that each keeps its
form (O58, O39, O40). -/

namespace Sys2Proof.Machine

/-! ## Tables refilled entry by entry -/

section
variable {α : Type} {g : Nat × α → Option (Nat × α)} (hkey : ∀ e e', g e = some e' → e'.1 = e.1)
include hkey

/-- Entries that keep their keys rise as they rose. -/
theorem tabRising_filterMap {t : List (Nat × α)} (h : tabRising t = true) : tabRising (t.filterMap g) = true := by
  refine (tabRising_iff_pairwise _).mpr (List.Pairwise.filterMap _ ?_ ((tabRising_iff_pairwise t).mp h))
  intro a a' ha b hb b' hb'
  rwa [hkey a b hb, hkey a' b' hb']

/-- What a key holds follows from what it held. -/
theorem tabGet?_filterMap {t : List (Nat × α)} (k : Nat) (h : tabRising t = true) :
    tabGet? (t.filterMap g) k = (tabGet? t k).bind (fun x => (g (k, x)).map Prod.snd) := by
  induction t with
  | nil => rfl
  | cons e r ih =>
    obtain ⟨a, x⟩ := e
    obtain ⟨habove, hrest⟩ := (tabRising_cons a x r).mp h
    have hgone : tabGet? r a = none := tabGet?_none r a fun e he => Nat.ne_of_gt (habove e he)
    cases hg : g (a, x) with
    | none =>
      rw [List.filterMap_cons_none hg, ih hrest]
      by_cases hak : a = k
      · subst hak
        simp [tabGet?, hgone, hg]
      · simp [tabGet?, hak]
    | some e' =>
      obtain ⟨a', y⟩ := e'
      obtain rfl : a' = a := hkey _ _ hg
      rw [List.filterMap_cons_some hg]
      by_cases hak : a' = k
      · subst hak
        simp [tabGet?, hg]
      · simp only [tabGet?, if_neg hak]
        exact ih hrest

end

/-! ## Runs of characters (R132) -/

theorem putRun_rising (attr : Nat) (cs : List Byte) (k : Nat) (text : List (Nat × Cell)) (h : tabRising text = true) :
    tabRising (putRun attr cs k text) = true := by
  induction cs generalizing k text with
  | nil => exact h
  | cons c cs ih => exact ih _ _ (tabRising_tabSet _ _ _ _ h)

/-- A cell that the run does not meet is as it was. -/
theorem cellAt_putRun_other (attr : Nat) {cs : List Byte} {k x : Nat} (text : List (Nat × Cell)) (hk : k < 3000)
    (hx : ∀ i, i < cs.length → x ≠ (k + i) % 3000) : cellAt (putRun attr cs k text) x = cellAt text x := by
  induction cs generalizing k text with
  | nil => rfl
  | cons c cs ih =>
    have hfirst : x ≠ k := by simpa [Nat.mod_eq_of_lt hk] using hx 0 (by simp)
    have hrest : ∀ i, i < cs.length → x ≠ ((k + 1) % 3000 + i) % 3000 := fun i hi => by
      have := hx (i + 1) (by simpa using hi)
      omega
    rw [putRun, ih _ (Nat.mod_lt _ (by omega)) hrest]
    exact tabGet_tabSet_other _ _ _ _ _ hfirst

/-- A cell of the run holds its character, in the run's colour. -/
theorem cellAt_putRun (attr : Nat) {cs : List Byte} {k i : Nat} (text : List (Nat × Cell)) (hk : k < 3000)
    (hlen : cs.length ≤ 3000) (hi : i < cs.length) :
    cellAt (putRun attr cs k text) ((k + i) % 3000) = ⟨cs.getD i 0, attr⟩ := by
  induction cs generalizing k i text with
  | nil => cases hi
  | cons c cs ih =>
    rw [List.length_cons] at hlen hi
    rw [putRun]
    cases i with
    | zero =>
      rw [show (k + 0) % 3000 = k from Nat.mod_eq_of_lt hk, cellAt_putRun_other attr _ (Nat.mod_lt _ (by omega)) (fun j hj => by omega)]
      exact tabGet_tabSet_same _ _ _ _
    | succ i =>
      rw [show (k + (i + 1)) % 3000 = ((k + 1) % 3000 + i) % 3000 by omega]
      exact ih _ (Nat.mod_lt _ (by omega)) (by omega) (by omega)

/-- R132, R134: a run meets an owned row when one of its cells lies in row 0 or 29. -/
theorem runOwned_iff (owned : Bool) (k len : Nat) : runOwned owned k len = true ↔
    owned = true ∧ ∃ i, i < len ∧ ((k + i) % 3000 < 100 ∨ 2900 ≤ (k + i) % 3000) := by
  simp only [runOwned, ownedCell, List.any_eq_true, List.mem_range, Bool.and_eq_true, Bool.or_eq_true, decide_eq_true_eq]
  exact ⟨fun ⟨i, hi, howned, hrow⟩ => ⟨howned, i, hi, hrow⟩, fun ⟨howned, i, hi, hrow⟩ => ⟨i, hi, howned, hrow⟩⟩

/-! ## Rectangles (R133) -/

theorem erased_key (col row w h : Nat) (e e' : Nat × Cell) (he : (if inRect col row w h e.1 then
    (if e.2.attr = 5 then none else some (e.1, (⟨0x20, e.2.attr⟩ : Cell))) else some e) = some e') : e'.1 = e.1 := by
  split at he
  · split at he
    · cases he
    · rw [← Option.some.inj he]
  · rw [← Option.some.inj he]

theorem eraseRect_rising {col row w h : Nat} {text : List (Nat × Cell)} (ht : tabRising text = true) :
    tabRising (eraseRect col row w h text) = true := tabRising_filterMap (erased_key col row w h) ht

theorem cellAt_eraseRect {col row w h : Nat} {text : List (Nat × Cell)} (k : Nat) (ht : tabRising text = true) :
    cellAt (eraseRect col row w h text) k =
      if inRect col row w h k then ⟨0x20, (cellAt text k).attr⟩ else cellAt text k := by
  rw [cellAt, tabGet, eraseRect, tabGet?_filterMap (erased_key col row w h) k ht]
  cases hlisted : tabGet? text k with
  | none => simp [cellAt, tabGet, hlisted, blankCell]
  | some x =>
    by_cases hin : inRect col row w h k = true
    · by_cases hattr : x.attr = 5 <;> simp [cellAt, tabGet, hlisted, hin, hattr, blankCell]
    · simp [cellAt, tabGet, hlisted, hin]

/-! ## The palette (R124) -/

theorem coloursOf_length {cs : List Byte} {n : Nat} (h : 3 * n = cs.length) : (coloursOf cs).length = n := by
  induction n generalizing cs with
  | zero => rw [List.eq_nil_of_length_eq_zero h.symm]; rfl
  | succ n ih =>
    match cs, h with
    | r :: g :: b :: rest, h =>
      simp only [List.length_cons] at h
      simp only [coloursOf, List.length_cons, ih (cs := rest) (by omega)]

theorem coloursOf_getD {cs : List Byte} {n i : Nat} (h : 3 * n = cs.length) (hi : i < n) :
    (coloursOf cs).getD i ⟨0, 0, 0⟩ = ⟨cs.getD (3 * i) 0, cs.getD (3 * i + 1) 0, cs.getD (3 * i + 2) 0⟩ := by
  induction n generalizing cs i with
  | zero => cases hi
  | succ n ih =>
    match cs, h with
    | r :: g :: b :: rest, h =>
      simp only [List.length_cons] at h
      cases i with
      | zero => rfl
      | succ i =>
        rw [coloursOf, List.getD_cons_succ, ih (cs := rest) (by omega) (by omega)]
        rfl

theorem writePalette_length {first : Nat} {cs p : List Rgb} (h : first + cs.length ≤ p.length) :
    (writePalette first cs p).length = p.length := by
  simp only [writePalette, List.length_append, List.length_take, List.length_drop]
  omega

theorem writePalette_getD {first : Nat} {cs p : List Rgb} (d : Rgb) (i : Nat) (h : first + cs.length ≤ p.length) :
    (writePalette first cs p).getD i d =
      if first ≤ i ∧ i < first + cs.length then cs.getD (i - first) d else p.getD i d := by
  have htake : (p.take first).length = first := by rw [List.length_take]; omega
  simp only [writePalette, List.getD_eq_getElem?_getD, List.append_assoc]
  by_cases hbefore : i < first
  · rw [if_neg (by omega), List.getElem?_append_left (by omega), List.getElem?_take_of_lt hbefore]
  · rw [List.getElem?_append_right (by omega), htake]
    by_cases hin : i < first + cs.length
    · rw [if_pos (by omega), List.getElem?_append_left (by omega)]
    · rw [if_neg (by omega), List.getElem?_append_right (by omega), List.getElem?_drop]
      congr 2
      omega

end Sys2Proof.Machine
end

section
/-! SUPPORT. The screen as steps move it: bounds are kept, and the annotation stands as rebuilt whenever ACQ has taken another
state (O58, O40); COMPOSE, ACQ and the changes of the record. -/

namespace Sys2Proof.Machine

/-! ## What is followed -/

/-- R135: the annotation stands as a rebuild under the present record and acquisition state would leave it, and owned rows show it. -/
def AnnotShown (s : State) : Prop :=
  s.compose.annot0 = annotRow0 s.setup s.acq.state ∧ s.compose.annot29 = annotRow29 s.setup ∧
  (s.compose.owned = true → ∀ k,
    (k < 100 → cellAt s.compose.text k = ⟨s.compose.annot0.getD k 0x20, 5⟩) ∧
    (2900 ≤ k → k < 3000 → cellAt s.compose.text k = ⟨s.compose.annot29.getD (k - 2900) 0x20, 5⟩))

/-- What the screen is made from and what its bounds speak of is as it was. -/
def SameScreen (s t : State) : Prop :=
  t.setup = s.setup ∧ t.acq.state = s.acq.state ∧ t.compose.cursor = s.compose.cursor ∧ t.compose.mark = s.compose.mark ∧
  t.compose.palette = s.compose.palette ∧ t.compose.annot0 = s.compose.annot0 ∧ t.compose.annot29 = s.compose.annot29 ∧
  t.compose.text = s.compose.text ∧ t.compose.owned = s.compose.owned

/-- R43, R135: the bounds and the annotation are kept, and ACQ is in the state it was in or the annotation stands rebuilt. -/
def ScreenMoves (s t : State) : Prop :=
  (ScreenOk s → ScreenOk t) ∧ (AnnotShown s → AnnotShown t) ∧ (t.acq.state = s.acq.state ∨ AnnotShown t)

theorem SameScreen.moves {s t : State} (h : SameScreen s t) : ScreenMoves s t := by
  obtain ⟨hsetup, hstate, hcursor, hmark, hpalette, h0, h29, htext, howned⟩ := h
  refine ⟨fun hok => ?_, fun hshown => ?_, .inl hstate⟩
  · rwa [ScreenOk, hcursor, hmark, hpalette, h0, h29, htext]
  · rwa [AnnotShown, hsetup, hstate, h0, h29, htext, howned]

theorem ScreenMoves.refl (s : State) : ScreenMoves s s := ⟨id, id, .inl rfl⟩

theorem ScreenMoves.trans {s t u : State} (h : ScreenMoves s t) (h' : ScreenMoves t u) : ScreenMoves s u := by
  obtain ⟨hok, hshown, hstate⟩ := h
  obtain ⟨hok', hshown', hstate'⟩ := h'
  refine ⟨hok' ∘ hok, hshown' ∘ hshown, ?_⟩
  rcases hstate' with hsame | hrebuilt
  · exact hstate.imp hsame.trans hshown'
  · exact .inr hrebuilt

theorem ScreenMoves.same {s t u : State} (h : ScreenMoves s t) (h' : SameScreen t u) : ScreenMoves s u := h.trans h'.moves

theorem SameScreen.then {s t u : State} (h : SameScreen s t) (h' : ScreenMoves t u) : ScreenMoves s u := h.moves.trans h'

theorem screenMoves_of_shown {s t : State} (hok : ScreenOk s → ScreenOk t) (h : AnnotShown t) : ScreenMoves s t :=
  ⟨hok, fun _ => h, .inr h⟩

theorem screenMoves_whenDue {due : State → Bool} {f : State → State} (hf : ∀ s, ScreenMoves s (f s)) (s : State) :
    ScreenMoves s (whenDue due f s) := whenDue_keeps (.refl s) (hf s)

/-- A thing done in each of a list of places. -/
theorem screenMoves_foldl {α : Type} {f : State → α → State} (hf : ∀ s x, ScreenMoves s (f s x)) (xs : List α) (s : State) :
    ScreenMoves s (xs.foldl f s) :=
  foldl_keeps (P := ScreenMoves s) (fun u x hu => hu.trans (hf u x)) xs s (.refl s)

/-! ## The rows of the annotation -/

/-- The listed cells of a row rise within the row. -/
theorem rowCells_rising (base : Nat) (row : List Byte) (n : Nat) (h : row.length ≤ n) :
    tabRising (rowCells base row) = true ∧ ∀ e ∈ rowCells base row, base ≤ e.1 ∧ e.1 < base + n := by
  have hcell : ∀ (p : Byte × Nat) (e : Nat × Cell),
      (if p.1 = 0x20 then none else some (base + p.2, (⟨p.1, 5⟩ : Cell))) = some e → e.1 = base + p.2 := fun p e he => by
    split at he
    · cases he
    · rw [← Option.some.inj he]
  have hindex : (row.zipIdx).Pairwise (fun p q => p.2 < q.2) := by
    rw [← List.pairwise_map (f := Prod.snd), List.zipIdx_map_snd, ← List.range_eq_range']
    exact List.pairwise_lt_range
  refine ⟨(tabRising_iff_pairwise _).mpr (List.Pairwise.filterMap _ ?_ hindex), fun e he => ?_⟩
  · intro p q hpq e he e' he'
    rw [hcell p e he, hcell q e' he']
    omega
  · obtain ⟨p, hp, he⟩ := List.mem_filterMap.mp he
    rw [hcell p e he]
    have := List.snd_lt_of_mem_zipIdx hp
    omega

/-- R135: the writing of the two rows keeps the one form of the text plane. -/
theorem writeAnnotRows_rising {r0 r29 : List Byte} {text : List (Nat × Cell)} (h0 : r0.length = 100) (h29 : r29.length = 100)
    (h : tabRising text = true) : tabRising (writeAnnotRows r0 r29 text) = true := by
  obtain ⟨hrise0, hin0⟩ := rowCells_rising 0 r0 100 h0.le
  obtain ⟨hrise29, hin29⟩ := rowCells_rising 2900 r29 100 h29.le
  exact tabRising_tabSplice _ _ _ _ (tabRising_tabSplice _ _ _ _ h hrise0 hin0 (by omega)) hrise29 hin29 (by omega)

/-- R135: rows that have been written show what was written, every cell in colour 5. -/
theorem cellAt_annotRows {r0 r29 : List Byte} (h0 : r0.length = 100) (h29 : r29.length = 100) (text : List (Nat × Cell))
    (k : Nat) :
    (k < 100 → cellAt (writeAnnotRows r0 r29 text) k = ⟨r0.getD k 0x20, 5⟩) ∧
    (2900 ≤ k → k < 3000 → cellAt (writeAnnotRows r0 r29 text) k = ⟨r29.getD (k - 2900) 0x20, 5⟩) := by
  rw [cellAt_writeAnnotRows r0 r29 text k h0 h29]
  refine ⟨fun h => if_pos h, fun h h' => ?_⟩
  rw [if_neg (by omega), if_pos ⟨h, h'⟩]

theorem annotShown_rebuildAnnotation (s : State) : AnnotShown (rebuildAnnotation s) := by
  obtain ⟨h0, h29⟩ := annotRows_length s.setup s.acq.state
  refine ⟨rfl, rfl, fun howned k => ?_⟩
  have howned' : s.compose.owned = true := howned
  simp only [rebuildAnnotation, if_pos howned']
  exact cellAt_annotRows h0 h29 _ k

theorem screenOk_rebuildAnnotation {s : State} (h : ScreenOk s) : ScreenOk (rebuildAnnotation s) := by
  obtain ⟨hcol, hrow, hmcol, hmrow, hpalette, -, -, htext⟩ := h
  obtain ⟨h0, h29⟩ := annotRows_length s.setup s.acq.state
  refine ⟨hcol, hrow, hmcol, hmrow, hpalette, h0, h29, ?_⟩
  simp only [rebuildAnnotation]
  split
  · exact writeAnnotRows_rising h0 h29 htext
  · exact htext

theorem screenMoves_rebuildAnnotation (s : State) : ScreenMoves s (rebuildAnnotation s) :=
  screenMoves_of_shown screenOk_rebuildAnnotation (annotShown_rebuildAnnotation s)

/-- R43: ACQ tells COMPOSE of each state it takes. -/
theorem screenMoves_setAcqState (a : AcqState) (s : State) : ScreenMoves s (setAcqState a s) :=
  screenMoves_of_shown (fun h => screenOk_rebuildAnnotation (s := { s with acq := { s.acq with state := a } }) h)
    (annotShown_rebuildAnnotation _)

/-! ## Frames -/

/-- R134: a frame event may take the ownership of the two rows, and then shows the annotation in them. -/
theorem screenMoves_takeFrameValues (s : State) : ScreenMoves s (takeFrameValues s) := by
  refine ⟨fun ⟨hcol, hrow, hmcol, hmrow, hpalette, h0, h29, htext⟩ => ⟨hcol, hrow, hmcol, hmrow, hpalette, h0, h29, ?_⟩,
    fun ⟨h0, h29, hcells⟩ => ⟨h0, h29, fun hannot k => ?_⟩, .inl rfl⟩
  · simp only [takeFrameValues]
    split
    · exact writeAnnotRows_rising h0 h29 htext
    · exact htext
  · have hannot' : s.setup.annot = true := hannot
    obtain ⟨hlen0, hlen29⟩ := annotRows_length s.setup s.acq.state
    simp only [takeFrameValues, hannot', Bool.true_and]
    cases howned : s.compose.owned with
    | true => exact hcells howned k
    | false => exact cellAt_annotRows (h0 ▸ hlen0) (h29 ▸ hlen29) _ k

theorem screenMoves_frameEventAt (t0 : Tick) (k : Nat) (s : State) : ScreenMoves s (frameEventAt t0 k s) :=
  (screenMoves_takeFrameValues s).same (by simp [SameScreen, frameEventAt])

theorem screenMoves_startScanout (s : State) : ScreenMoves s (startScanout s) := screenMoves_frameEventAt _ _ s

/-! ## Arms and runs -/

theorem ScreenMoves.noted {s t : State} (h : ScreenMoves s t) (src : NoteSource) : ScreenMoves s (enterNote src t) :=
  h.same (by simp [SameScreen])

theorem screenMoves_enterHeld (s : State) : ScreenMoves s (enterHeld s) :=
  (screenMoves_setAcqState .held { s with acq := { s.acq with cur := 0 } }).noted .acq

theorem screenMoves_enterStopped (s : State) : ScreenMoves s (enterStopped s) :=
  (screenMoves_setAcqState .stopped { s with acq := { s.acq with cur := 0, runKind := .idle, single := false } }).noted .acq

theorem screenMoves_enterCapturing (s : State) : ScreenMoves s (enterCapturing s) :=
  screenMoves_setAcqState .capturing (setSeg s.acq.cur { curSeg s with state := .filling } s)

theorem screenMoves_beginCapture (k : Nat) (i : SegInfo) (s : State) : ScreenMoves s (beginCapture k i s) := by
  have hready : ∀ t u, ScreenMoves u (readyAtOnce t u) := fun t u => by
    simp only [readyAtOnce]
    split
    · exact SameScreen.then (by simp [SameScreen]) (screenMoves_enterCapturing _)
    · exact .refl u
  simp only [beginCapture]
  split
  · exact SameScreen.then (by simp [SameScreen]) ((screenMoves_setAcqState .waiting _).trans (hready _ _))
  · exact SameScreen.then (by simp [SameScreen]) (screenMoves_setAcqState .arming _)

theorem screenMoves_arm (k : Nat) (s : State) : ScreenMoves s (arm k s) := by
  have hfreed : SameScreen s (freeForArm k s.setup.geometry s) := by simp [SameScreen]
  simp only [arm]
  split
  · exact hfreed.then (screenMoves_enterHeld _)
  · exact hfreed.then (SameScreen.then (by simp [SameScreen]) (screenMoves_beginCapture _ _ _))

/-- R60: the entry into ROLLING, or the wait for the pin. -/
theorem screenMoves_enterRoll (s : State) : ScreenMoves s (enterRoll s) := by
  have hroll : ∀ g u, ScreenMoves u (beginRoll g u) := fun g u => by
    simp only [beginRoll]
    exact (SameScreen.then (by simp [SameScreen]) (screenMoves_setAcqState .rolling _)).noted .acq
  simp only [enterRoll]
  split
  · exact SameScreen.then (by simp [SameScreen]) (screenMoves_enterHeld _)
  · exact SameScreen.then (by simp [SameScreen]) (hroll _ _)

theorem screenMoves_armRepeatOrRoll (s : State) : ScreenMoves s (armRepeatOrRoll s) := by
  simp only [armRepeatOrRoll]
  split
  · exact SameScreen.then (by simp [SameScreen]) (screenMoves_enterRoll _)
  · exact SameScreen.then (by simp [SameScreen]) (screenMoves_arm _ _)

/-- R57: a start under the run mode. -/
theorem screenMoves_launch (s : State) : ScreenMoves s (launch s) := by
  unfold launch
  split
  · exact screenMoves_armRepeatOrRoll s
  · exact SameScreen.then (by simp [SameScreen]) (screenMoves_arm 0 _)

theorem screenMoves_startRun (one : Bool) (s : State) : ScreenMoves s (startRun one s) :=
  SameScreen.then (by simp [SameScreen]) (screenMoves_launch _)

theorem screenMoves_armHeld (s : State) : ScreenMoves s (armHeld s) := by
  unfold armHeld
  split
  · exact screenMoves_arm _ s
  all_goals exact screenMoves_armRepeatOrRoll s

/-! ## Triggers and ends -/

/-- R51: the run ends or goes on with its next arm. -/
theorem screenMoves_finishSegment (k : Nat) (i : SegInfo) (f : PerChan FlagSet) (m : PerChan Meas) (o : SegOutcome)
    (s : State) : ScreenMoves s (finishSegment k i f m o s) := by
  have hnext : ∀ u, ScreenMoves u (nextArm u) := fun u => by
    unfold nextArm
    split
    · exact SameScreen.then (by simp [SameScreen]) (screenMoves_arm _ _)
    all_goals exact screenMoves_arm _ u
  have hafter : ∀ u, ScreenMoves u (afterDone k i.geo o u) := fun u => by
    have hdrawn : ∀ c : Bool, SameScreen u
        (enterNote .acq (if c then enterAutomatic k (segAt u k).serial i.geo.enabled u else u)) := fun c => by
      cases c <;> simp [SameScreen]
    simp only [afterDone]
    split
    · exact (hdrawn _).then (screenMoves_enterStopped _)
    · exact (hdrawn _).then (hnext _)
  exact SameScreen.then (by simp [SameScreen]) (hafter _)

theorem screenMoves_captureEnd (s : State) : ScreenMoves s (captureEnd s) := by
  unfold captureEnd
  split
  · exact .refl s
  · simp only
    split
    · exact SameScreen.then (by simp [SameScreen]) (screenMoves_beginCapture _ _ _)
    · exact SameScreen.then (by simp [SameScreen]) (screenMoves_finishSegment _ _ _ _ _ _)

theorem screenMoves_acceptTrigger (kind : TrigKind) (tag : Tick) (s : State) : ScreenMoves s (acceptTrigger kind tag s) := by
  have hmarked : SameScreen s (markTrigger kind tag s) := by simp [SameScreen]
  simp only [acceptTrigger]
  split
  · split
    · exact hmarked.then (screenMoves_enterCapturing _)
    · exact hmarked.then (screenMoves_captureEnd _)
  · exact hmarked.moves

theorem screenMoves_fireAuto (s : State) : ScreenMoves s (fireAuto s) := screenMoves_acceptTrigger _ _ s

theorem screenMoves_becomeReady (s : State) : ScreenMoves s (becomeReady s) := by
  simp only [becomeReady]
  split
  · exact SameScreen.then (by simp [SameScreen]) ((screenMoves_setAcqState .waiting _).trans (screenMoves_acceptTrigger _ _ _))
  · exact SameScreen.then (by simp [SameScreen]) (screenMoves_setAcqState .waiting _)

/-- R61: the end of a roll. -/
theorem screenMoves_endRoll (s : State) : ScreenMoves s (endRoll s) := by
  cases hi : (curSeg s).info with
  | none =>
    simp only [endRoll, hi]
    exact screenMoves_enterStopped s
  | some i =>
    rw [endRoll_eq hi]
    exact SameScreen.then (by simp [SameScreen]) (screenMoves_enterStopped _)

theorem sameScreen_abandon (s : State) : SameScreen s (abandon s) := by simp [SameScreen]

theorem screenMoves_stopAcq (s : State) : ScreenMoves s (stopAcq s) := by
  unfold stopAcq
  split
  · exact .refl s
  · exact (sameScreen_abandon s).then (screenMoves_enterStopped _)
  · exact (sameScreen_abandon s).then (screenMoves_enterStopped _)
  · exact (sameScreen_abandon s).then (screenMoves_enterStopped _)
  · exact SameScreen.then (by simp [SameScreen]) (screenMoves_enterStopped _)
  · exact SameScreen.then (by simp [SameScreen]) (screenMoves_endRoll _)

theorem screenMoves_runAcq (s : State) : ScreenMoves s (runAcq s) := by
  unfold runAcq
  split
  · exact screenMoves_startRun _ s
  · exact SameScreen.moves (by simp [SameScreen])

theorem screenMoves_singleAcq (s : State) : ScreenMoves s (singleAcq s) := by
  unfold singleAcq
  split
  · exact screenMoves_startRun _ s
  · split <;> exact SameScreen.moves (by simp [SameScreen])
  all_goals exact SameScreen.moves (by simp [SameScreen])

theorem screenMoves_forceAcq (s : State) : ScreenMoves s (forceAcq s) := by
  unfold forceAcq
  split
  case h_3 => exact screenMoves_acceptTrigger _ _ s
  all_goals exact SameScreen.moves (by simp [SameScreen])

/-- R65: ACQ on entry into STANDBY. -/
theorem screenMoves_acqStandby (s : State) : ScreenMoves s (acqStandby s) := by
  have hin : SameScreen s (if inFlight (endWaves .wrongState s) then abandon (endWaves .wrongState s)
      else endWaves .wrongState s) := by
    split <;> simp [SameScreen]
  have hstop : ∀ u : State, ScreenMoves u { enterStopped u with
      acq := { (enterStopped u).acq with selfRefresh := true } } := fun u =>
    (screenMoves_enterStopped u).same (by simp [SameScreen])
  exact hin.then (SameScreen.then (by simp [SameScreen]) (hstop _))

/-! ## Codes -/

theorem screenMoves_detect (code : PerChan Byte) (ext : Bool) (tick : Tick) (s : State) :
    ScreenMoves s (detect code ext tick s) := by
  unfold detect
  simp only
  split
  case h_3 => exact .refl s
  all_goals
    split
    · exact SameScreen.then (by simp [SameScreen]) (screenMoves_acceptTrigger _ _ _)
    · exact SameScreen.moves (by simp [SameScreen])

/-- Whatever comes before the next code. -/
theorem screenMoves_settle (s : State) : ScreenMoves s (settle s) := by
  have hwrite : ∀ u, ScreenMoves u (writeInterval u) := fun u => SameScreen.moves (by simp [SameScreen])
  exact (screenMoves_whenDue hwrite s).trans ((screenMoves_whenDue screenMoves_becomeReady _).trans
    ((screenMoves_whenDue screenMoves_captureEnd _).trans ((screenMoves_whenDue screenMoves_endRoll _).trans
      ((screenMoves_whenDue screenMoves_fireAuto _).trans (screenMoves_whenDue screenMoves_armHeld _)))))

theorem screenMoves_takeCode (s : State) (x : Sample) : ScreenMoves s (takeCode s x) :=
  (screenMoves_settle s).trans (SameScreen.then (by simp [SameScreen]) (screenMoves_detect _ _ _ _))

/-! ## Changes of the record -/

theorem screenMoves_acqChange (s : State) : ScreenMoves s (acqChange s) := by
  unfold acqChange
  split
  · exact .refl s
  · exact screenMoves_launch s
  all_goals exact (sameScreen_abandon s).then (screenMoves_launch _)

theorem screenMoves_trigChange (old : Setup) (s : State) : ScreenMoves s (trigChange old s) := by
  have hprimed : SameScreen s (primed old s) := by
    unfold primed
    split <;> simp [SameScreen]
  rw [trigChange_eq]
  split
  · exact hprimed.then (screenMoves_acceptTrigger _ _ _)
  · exact hprimed.moves

/-- R13: the blocks that are told before COMPOSE. -/
theorem screenMoves_tellMap (a b : Setup) (s : State) :
    ScreenMoves s (tellMap a b (tellTrig a b (tellAcq a b (laneAfterChange a b s)))) := by
  have hacq : ∀ u, ScreenMoves u (tellAcq a b u) := fun u => by
    unfold tellAcq
    split
    · exact screenMoves_acqChange u
    · exact .refl u
  have htrig : ∀ u, ScreenMoves u (tellTrig a b u) := fun u => by
    unfold tellTrig
    split
    · exact screenMoves_trigChange a u
    · exact .refl u
  have hmap : ∀ u, SameScreen u (tellMap a b u) := fun u => by simp [SameScreen]
  exact SameScreen.then (t := laneAfterChange a b s) (by simp [SameScreen]) ((hacq _).trans ((htrig _).same (hmap _)))

/-- R15: a change that refreshes no annotation alters nothing that the two rows are made from. -/
theorem annotRows_of_not_refreshes {a b : Setup} (h : refreshesAnnotation a b = false) (state : AcqState) :
    annotRow0 b state = annotRow0 a state ∧ annotRow29 b = annotRow29 a := by
  simp only [refreshesAnnotation, Bool.or_eq_false_iff, decide_eq_false_iff_not, not_not, Chan.all, List.any_cons,
    List.any_nil] at h
  obtain ⟨⟨⟨⟨⟨⟨⟨⟨⟨hon1, hscale1⟩, ⟨hon2, hscale2⟩, ⟨hon3, hscale3⟩, ⟨hon4, hscale4⟩, -⟩, htbase⟩, htsrc⟩, htslope⟩, htlevel⟩,
    htmode⟩, -⟩, -⟩ := h
  refine ⟨?_, ?_⟩
  · simp only [annotRow0, levelText, htbase, htsrc, htslope, htlevel, htmode]
  · simp only [annotRow29, slotText, hon1, hscale1, hon2, hscale2, hon3, hscale3, hon4, hscale4]

/-- R11, R15: a change of the record rebuilds the annotation, or alters nothing that it shows. -/
theorem screenMoves_adopt (u : Setup) (s : State) : ScreenMoves s (adopt u s) := by
  unfold adopt
  split
  · exact .refl s
  · have htold := screenMoves_tellMap s.setup u (stored u s)
    rw [show { s with setup := u, gen := s.gen + 1 } = stored u s from rfl, tellBlocks, tellAnnotation]
    split
    · exact screenMoves_of_shown (fun h => screenOk_rebuildAnnotation (htold.1 h)) (annotShown_rebuildAnnotation _)
    next hkept =>
      obtain ⟨h0, h29⟩ := annotRows_of_not_refreshes (Bool.eq_false_iff.mpr hkept) s.acq.state
      have hstored : ScreenMoves s (stored u s) :=
        ⟨id, fun ⟨hrow0, hrow29, hcells⟩ => ⟨hrow0.trans h0.symm, hrow29.trans h29.symm, hcells⟩, .inl rfl⟩
      exact hstored.trans htold

end Sys2Proof.Machine
end

section
/-! SUPPORT. The screen as steps move it: the power moves, the panel, the scans, STORE and the rows; the bounds of the screen for a
step (O58). -/

namespace Sys2Proof.Machine

/-! ## The power state -/

theorem screenMoves_wakeFromDark (c : MoveCause) (s : State) : ScreenMoves s (wakeFromDark c s) :=
  SameScreen.then (t := setPower .on c s) (by simp [SameScreen])
    ((screenMoves_startScanout _).same (by simp [SameScreen, wakeFromDark]))

/-- R193: at the wake from STANDBY a run may start, and scanout does. -/
theorem screenMoves_requestOn (c : MoveCause) (s : State) : ScreenMoves s (requestOn c s) := by
  have hwake : ∀ run u, ScreenMoves u (acqWake run u) := fun run u => by
    simp only [acqWake]
    split
    · exact (SameScreen.then (by simp [SameScreen]) (screenMoves_startRun false _)).noted .acq
    · exact SameScreen.moves (by simp [SameScreen])
  have hscan : ∀ u, ScreenMoves u (restartIdle (startScanout u)) := fun u =>
    (screenMoves_startScanout u).same (by simp [SameScreen])
  unfold requestOn
  split
  · exact .refl s
  · exact screenMoves_wakeFromDark c s
  · exact SameScreen.then (by simp [SameScreen]) ((hwake _ _).trans (hscan _))

/-- R65, R192: ACQ stops on entry into STANDBY. -/
theorem screenMoves_requestStandby (c : MoveCause) (s : State) : ScreenMoves s (requestStandby c s) := by
  have hrest : ∀ u, SameScreen u (autosave (panelStandby (stopScanout (rasterStandby u)))) := fun u => by simp [SameScreen]
  have hmove : ScreenMoves s (moveToStandby c s) :=
    SameScreen.then (by simp [SameScreen]) ((screenMoves_acqStandby _).same (hrest _))
  unfold requestStandby
  split
  · exact hmove
  · exact hmove
  · exact .refl s

theorem sameScreen_requestDark (c : MoveCause) (s : State) : SameScreen s (requestDark c s) := by
  unfold requestDark
  split <;> simp [SameScreen]

theorem screenMoves_requestWaking (s : State) : ScreenMoves s (requestWaking s) := by
  unfold requestWaking
  split
  · exact screenMoves_wakeFromDark _ s
  all_goals exact .refl s

theorem screenMoves_requestWake (p : PowerState) (s : State) : ScreenMoves s (requestWake p s) := by
  cases p with
  | standby => exact screenMoves_requestOn _ s
  | on | dark => exact screenMoves_requestStandby _ s

/-! ## Keys and knobs -/

theorem screenMoves_runAction (a : KeyAction) (s : State) : ScreenMoves s (runAction a s).1 := by
  cases a with
  | nothing | wake => exact .refl s
  | chan n => exact screenMoves_adopt _ s
  | defaults => exact screenMoves_adopt _ s
  | single => exact screenMoves_singleAcq s
  | force => exact screenMoves_forceAcq s
  | clear => exact SameScreen.moves (by simp [SameScreen, runAction])
  | runstop =>
    simp only [runAction]
    split
    · exact screenMoves_runAcq s
    · exact screenMoves_stopAcq s
  | _ k => -- a save or a recall
    simp only [runAction, actJob]
    split <;> exact SameScreen.moves (by simp [SameScreen])

/-- R147, R159, R160: a press by the power state. -/
theorem screenMoves_pressKey (k : Nat) (s : State) : ScreenMoves s (pressKey k s) := by
  have hon : ∀ u, ScreenMoves u (pressInOn k u) := fun u => by
    unfold pressInOn
    split
    next => exact SameScreen.moves (by simp [SameScreen])
    next b _ =>
      split
      · exact SameScreen.then (by simp [SameScreen]) (screenMoves_requestWake _ _)
      · split
        · exact SameScreen.moves (by simp [SameScreen])
        · exact (screenMoves_runAction b.action u).same (by simp [SameScreen])
  have hdark : ∀ u, ScreenMoves u (pressInDark k u) := fun u =>
    SameScreen.then (by simp [SameScreen]) (screenMoves_requestWaking _)
  have hstandby : ∀ u, ScreenMoves u (pressInStandby k u) := fun u => by
    unfold pressInStandby
    split
    · split
      · exact SameScreen.then (by simp [SameScreen]) (screenMoves_requestWake _ _)
      · exact .refl u
    · exact .refl u
  have hdown : SameScreen s (activity (setKey k { keyAt s k with down := true, count := 0 } s)) := by simp [SameScreen]
  simp only [pressKey]
  split
  · exact hdown.then (hon _)
  · exact hdown.then (hdark _)
  · exact hdown.then (hstandby _)

theorem screenMoves_offerBatch (n : Nat) (b : KnobBinding) (s : State) : ScreenMoves s (offerBatch n b s) := by
  simp only [offerBatch]
  split
  · exact .refl s
  · exact SameScreen.then (by simp [SameScreen]) (screenMoves_adopt _ _)

theorem screenMoves_takeDetent (n : Nat) (d : Dir) (s : State) : ScreenMoves s (takeDetent n d s) := by
  have hcount : ∀ u, ScreenMoves u (countDetent n d u) := fun u => by
    simp only [countDetent]
    split
    · exact SameScreen.moves (by simp [SameScreen])
    · exact SameScreen.then (by simp [SameScreen]) (screenMoves_offerBatch _ _ _)
  have hactive : SameScreen s (activity s) := by simp [SameScreen]
  simp only [takeDetent]
  split
  · split
    · exact hactive.moves
    · exact hactive.then (hcount _)
  · exact hactive.then (screenMoves_requestWaking _)
  · exact hactive.moves

theorem screenMoves_batchResult (n : Nat) (s : State) : ScreenMoves s (batchResult n s) := by
  simp only [batchResult]
  split
  · exact SameScreen.then (by simp [SameScreen]) (screenMoves_offerBatch _ _ _)
  · exact SameScreen.moves (by simp [SameScreen])

/-! ## The scans and the codes -/

theorem screenMoves_scanKey (s : State) (k : Nat) : ScreenMoves s (scanKey s k) := by
  simp only [scanKey]
  split
  · split <;> exact SameScreen.moves (by simp [SameScreen])
  · split
    · exact SameScreen.moves (by simp [SameScreen])
    · split
      · exact screenMoves_pressKey k s
      · exact SameScreen.moves (by simp [SameScreen])

theorem screenMoves_scanKnob (s : State) (n : Nat) : ScreenMoves s (scanKnob s n) := by
  have hsampled : ∀ x : Knob, SameScreen s (if x = knobAt s n then s else setKnob n x s) := fun x => by
    split <;> simp [SameScreen]
  simp only [scanKnob]
  split
  · exact (hsampled _).then (screenMoves_takeDetent _ _ _)
  · exact (hsampled _).moves

theorem screenMoves_scansAt (s : State) : ScreenMoves s (scansAt s) := by
  have hknobs : ScreenMoves s (if ticksSinceReset s % 15625 = 0 then scanKnobs s else s) := by
    split
    · exact screenMoves_foldl screenMoves_scanKnob _ s
    · exact .refl s
  have hkeys : ∀ u, ScreenMoves u (scanKeys u) := fun u =>
    (screenMoves_foldl screenMoves_scanKey (List.range 64) u).same (by simp [SameScreen, scanKeys])
  simp only [scansAt]
  by_cases hk : ticksSinceReset s % 125000 = 0
  · rw [if_pos hk]
    exact hknobs.trans (hkeys _)
  · rwa [if_neg hk]

theorem screenMoves_passCodes (xs : List Sample) (s : State) : ScreenMoves s (passCodes xs s) := by
  have hscan : ∀ u, ScreenMoves u (scanAtTick u) := fun u => by
    unfold scanAtTick
    split
    · exact screenMoves_scansAt u
    · exact .refl u
  exact screenMoves_foldl (fun u x => (screenMoves_takeCode u x).trans (hscan _)) xs s

/-! ## STORE -/

/-- R169, R176: only a recall that adopts its image reaches the screen. -/
theorem screenMoves_classified (j : StoreJob) (r : Running) (why : ClassifyFor) (header body : List Byte) (s : State) :
    ScreenMoves s (classified j r why header body s) := by
  have hset : SameScreen s (setDir j.slot (classifySlot j.slot header body) s) := by simp [SameScreen]
  have hend : ∀ res, ScreenMoves s (endJob res (setDir j.slot (classifySlot j.slot header body) s)) := fun _ =>
    SameScreen.moves (by simp [SameScreen])
  have habandoned : ScreenMoves s (finishAbandoned r (setDir j.slot (classifySlot j.slot header body) s)) :=
    SameScreen.moves (by simp [SameScreen])
  unfold classified
  cases why with
  | refresh res => exact hend res
  | startCheck =>
    simp only
    split
    · exact habandoned
    · exact SameScreen.moves (by simp [SameScreen])
  | protectOff =>
    simp only
    split
    · exact habandoned
    · split
      · exact SameScreen.moves (by simp [SameScreen])
      all_goals exact hend _
  | _ => -- a recall
    simp only
    split
    · exact habandoned
    · split
      · split
        next u _ _ => exact hset.then ((screenMoves_adopt u _).same (by simp [SameScreen]))
        next => exact hend _
      all_goals exact hend _

theorem screenMoves_readDone (page : List Byte) (s : State) : ScreenMoves s (readDone page s) := by
  have hjob : ∀ j r, ScreenMoves s (jobRead j r page s) := fun j r => by
    unfold jobRead
    split
    · split
      · exact screenMoves_classified _ _ _ _ _ s
      · split <;> exact SameScreen.moves (by simp [SameScreen])
    · exact .refl s
  unfold readDone
  split
  · exact hjob _ _
  · exact SameScreen.moves (by simp [SameScreen])
  · exact .refl s

/-- R167: the end of a step with an effect. -/
theorem screenMoves_endStep {f : State → State} (hf : ∀ u, ScreenMoves u (f u)) (s : State) :
    ScreenMoves s (endStep f s) := by
  have hsaves : ∀ b (js : List StoreJob) u, ScreenMoves u (js.foldl (autosaveActs b) u) := fun b =>
    screenMoves_foldl fun u j => SameScreen.moves (by simp [SameScreen])
  have hnext : ∀ u, SameScreen u (startStep (lendIfAsked u)) := fun u => by simp [SameScreen]
  exact SameScreen.then (t := { s with store := { s.store with step := none, autosaves := [] } }) (by simp [SameScreen])
    ((hf _).trans ((hnext _).then (hsaves _ _ _)))

theorem screenMoves_alteredThen {f : StoreJob → JobPhase → State → State} (hf : ∀ j p u, SameScreen u (f j p u)) (s : State) :
    ScreenMoves s (alteredThen f s) := by
  unfold alteredThen
  split
  · simp only
    split
    · exact SameScreen.moves (by simp [SameScreen])
    · exact SameScreen.then (by simp [SameScreen]) (hf _ _ _).moves
  · exact .refl s

end Sys2Proof.Machine
end


section
/-! SUPPORT. Every row keeps the screen in bounds, and rebuilds the annotation where it takes ACQ into another state; the statement
of the bounds for a step (O58). -/

namespace Sys2Proof.Machine

/-! ## RESTART and cold reset -/

/-- R135, R211: a RESTART ends in a rebuild, the text plane blank before it and both positions at cell (0, 0). -/
theorem screenMoves_restartPart (tag : Byte) (s : State) : ScreenMoves s (restartPart tag s) := by
  refine screenMoves_of_shown (fun ⟨_, _, _, _, hpalette, h0, h29, _⟩ => screenOk_rebuildAnnotation ?_)
    (annotShown_rebuildAnnotation _)
  have hzero : (0 : Nat) < 100 ∧ 0 < 30 := by omega
  simpa [ScreenOk, clearLink, restartBlocks, powerRestart, composeRestart, acqRestart, tabRising, hpalette] using ⟨h0, h29⟩

/-- R139: the cells at cold reset are those of the default annotation. -/
theorem coldText_eq : Compose.cold.text = writeAnnotRows coldRow0 coldRow29 [] := by decide +kernel

/-- R137, R138, R139: the annotation at cold reset is that of the default record in STOPPED. -/
theorem coldRows_eq : coldRow0 = annotRow0 .default .stopped ∧ coldRow29 = annotRow29 .default := by decide +kernel

/-- R139: the screen at cold reset. -/
theorem coldScreen (s : State) : ScreenOk (coldState s) ∧ AnnotShown (coldState s) := by
  obtain ⟨hsetup, -, hacq, -, hcompose, -⟩ := laneFollowAll_frame { State.reset with
    acq := { Acq.cold with memEpoch := s.acq.memEpoch + 1, fresh := s.acq.fresh }
    panel := { Panel.cold with knobs := coldKnobs s.pins }
    pins := { s.pins with resetLow := false }
    pending := s.pending }
  obtain ⟨hrow0, hrow29⟩ := coldRows_eq
  obtain ⟨h0, h29⟩ := annotRows_length .default .stopped
  rw [← hrow0] at h0
  rw [← hrow29] at h29
  have hrising : tabRising Compose.cold.text = true := coldText_eq ▸ writeAnnotRows_rising h0 h29 rfl
  have hcells := cellAt_annotRows h0 h29 []
  rw [← coldText_eq] at hcells
  rw [ScreenOk, AnnotShown, coldState, hsetup, hacq, hcompose]
  exact ⟨⟨Nat.zero_lt_succ _, Nat.zero_lt_succ _, Nat.zero_lt_succ _, Nat.zero_lt_succ _, rfl, h0, h29, hrising⟩,
    hrow0, hrow29, fun _ => hcells⟩

/-! ## Orders -/

/-- What a row does to the screen: the bounds are kept, and a row that takes ACQ into another state leaves the annotation rebuilt. -/
def ScreenFollows (s t : State) : Prop := (ScreenOk s → ScreenOk t) ∧ (t.acq.state = s.acq.state ∨ AnnotShown t)

theorem ScreenMoves.follows {s t : State} (h : ScreenMoves s t) : ScreenFollows s t := ⟨h.1, h.2.2⟩

theorem NextMeets.follows {s : State} {o : Host.Outcome State Fault Refusal} (h : NextMeets (ScreenMoves s) o) :
    NextMeets (ScreenFollows s) o := fun t ht => (h t ht).follows

theorem sameScreen_atHead (f : Frame) (s : State) : SameScreen s (atHead f s) := by
  unfold atHead
  split <;> simp [SameScreen]

section
variable {s : State}

/-- R202: the screen hears of an order through its block alone. -/
theorem order_followsScreen {kind tag : Byte} {lenOk : Nat → Bool} {body : List Byte} {act : State → State}
    (hact : lenOk body.length = true → ∀ u, ScreenFollows u (act u)) :
    NextMeets (ScreenFollows s) (order kind lenOk tag body act s) := by
  refine live_keeps (ScreenMoves.refl s).follows fun _ => ?_
  have hhead := sameScreen_atHead ⟨kind, tag, body⟩ s
  have hpopped : SameScreen s (popInbound (atHead ⟨kind, tag, body⟩ s)) := hhead
  simp only [dispatchOrder]
  split
  · split
    next hlen =>
      obtain ⟨hok, hstate⟩ := hact hlen (popInbound (atHead ⟨kind, tag, body⟩ s))
      exact ⟨fun h => hok (hpopped.moves.1 h), hstate.imp_left fun h => h.trans hpopped.2.1⟩
    · exact (hpopped.moves.same (by simp [SameScreen])).follows
  · exact hhead.moves.follows

theorem order_movesScreen {kind tag : Byte} {lenOk : Nat → Bool} {body : List Byte} {act : State → State}
    (hact : ∀ u, ScreenMoves u (act u)) : NextMeets (ScreenFollows s) (order kind lenOk tag body act s) :=
  order_followsScreen fun _ u => (hact u).follows

theorem ScreenMoves.answered {t : State} (h : ScreenMoves s t) (kind tag : Byte) (st : Status) (items : List Byte) :
    ScreenMoves s (answer kind tag st items t) := h.same (by simp [SameScreen])

theorem fieldSet_movesScreen (tag : Byte) (body : List Byte) : NextMeets (ScreenFollows s) (execFieldSet tag body s) := by
  refine order_movesScreen fun u => ?_
  simp only
  split
  · exact (ScreenMoves.refl u).answered _ _ _ _
  · split
    · exact (ScreenMoves.refl u).answered _ _ _ _
    · split
      · exact (ScreenMoves.refl u).answered _ _ _ _
      · exact (screenMoves_adopt _ u).answered _ _ _ _

theorem setupWrite_movesScreen (tag : Byte) (body : List Byte) :
    NextMeets (ScreenFollows s) (execSetupWrite tag body s) := by
  refine order_movesScreen fun u => ?_
  split
  · exact (screenMoves_adopt _ u).answered _ _ _ _
  · exact (ScreenMoves.refl u).answered _ _ _ _

theorem power_movesScreen (tag : Byte) (body : List Byte) : NextMeets (ScreenFollows s) (execPower tag body s) := by
  refine order_movesScreen fun u => ?_
  split
  · exact (screenMoves_requestOn _ u).answered _ _ _ _
  · split
    · exact (ScreenMoves.refl u).answered _ _ _ _
    · exact (sameScreen_requestDark _ u).moves.answered _ _ _ _
  · exact (screenMoves_requestStandby _ u).answered _ _ _ _
  · exact (ScreenMoves.refl u).answered _ _ _ _

/-- RUN, STOP, SINGLE and FORCE: refused, or an effect on ACQ. -/
theorem unlessBlocked_movesScreen {kind tag : Byte} {lenOk : Nat → Bool} {body : List Byte} {blocked : State → Prop}
    [DecidablePred blocked] {f : State → State} (hf : ∀ u, ScreenMoves u (f u)) :
    NextMeets (ScreenFollows s) (order kind lenOk tag body
      (fun s => if blocked s then answer kind tag .wrongState [] s else answer kind tag .ok [] (f s)) s) := by
  refine order_movesScreen fun u => ?_
  split
  · exact (ScreenMoves.refl u).answered _ _ _ _
  · exact (hf u).answered _ _ _ _

/-! ## Orders of COMPOSE -/

/-- An order refused or taken that leaves ACQ as it was. -/
theorem ScreenFollows.of_ok {t : State} (hok : ScreenOk s → ScreenOk t) (hstate : t.acq.state = s.acq.state) :
    ScreenFollows s t := ⟨hok, .inl hstate⟩

theorem follows_answer (kind tag : Byte) (st : Status) (items : List Byte) (u : State) :
    ScreenFollows u (answer kind tag st items u) := ((ScreenMoves.refl u).answered kind tag st items).follows

theorem cellPos_ofIndex_bounds (n : Nat) : (CellPos.ofIndex (n % 3000)).col < 100 ∧ (CellPos.ofIndex (n % 3000)).row < 30 := by
  simp only [CellPos.ofIndex]
  omega

theorem textPut_followsScreen (tag : Byte) (body : List Byte) : NextMeets (ScreenFollows s) (execTextPut tag body s) := by
  refine order_followsScreen fun _ u => ?_
  simp only
  split
  · exact follows_answer _ _ _ _ u
  · split
    · exact follows_answer _ _ _ _ u
    · refine .of_ok (fun ⟨_, _, hmcol, hmrow, hpalette, h0, h29, htext⟩ => ?_) rfl
      obtain ⟨hcol, hrow⟩ := cellPos_ofIndex_bounds (u.compose.cursor.index + (body.drop 1).length)
      exact ⟨hcol, hrow, hmcol, hmrow, hpalette, h0, h29, putRun_rising _ _ _ _ htext⟩

theorem textMove_followsScreen (tag : Byte) (body : List Byte) : NextMeets (ScreenFollows s) (execTextMove tag body s) := by
  refine order_followsScreen fun _ u => ?_
  simp only
  split
  · exact follows_answer _ _ _ _ u
  next hin =>
    obtain ⟨hcol, hrow⟩ := not_or.mp hin
    exact .of_ok (fun ⟨_, _, hrest⟩ => ⟨Nat.lt_succ_of_le (not_lt.mp hcol), Nat.lt_succ_of_le (not_lt.mp hrow), hrest⟩) rfl

theorem textMark_followsScreen (tag : Byte) (body : List Byte) : NextMeets (ScreenFollows s) (execTextMark tag body s) :=
  order_followsScreen fun _ _ => .of_ok (fun ⟨hcol, hrow, _, _, hrest⟩ => ⟨hcol, hrow, hcol, hrow, hrest⟩) rfl

theorem textReturn_followsScreen (tag : Byte) (body : List Byte) : NextMeets (ScreenFollows s) (execTextReturn tag body s) :=
  order_followsScreen fun _ _ => .of_ok (fun ⟨_, _, hmcol, hmrow, hrest⟩ => ⟨hmcol, hmrow, hmcol, hmrow, hrest⟩) rfl

theorem textErase_followsScreen (tag : Byte) (body : List Byte) : NextMeets (ScreenFollows s) (execTextErase tag body s) := by
  refine order_followsScreen fun _ u => ?_
  simp only
  split
  · exact follows_answer _ _ _ _ u
  · split
    · exact follows_answer _ _ _ _ u
    · exact .of_ok (fun ⟨hcol, hrow, hmcol, hmrow, hpalette, h0, h29, htext⟩ =>
        ⟨hcol, hrow, hmcol, hmrow, hpalette, h0, h29, eraseRect_rising htext⟩) rfl

/-- R124: a palette write that is taken writes as many entries as it carries colours, within the 16. -/
theorem paletteSet_followsScreen (tag : Byte) (body : List Byte) :
    NextMeets (ScreenFollows s) (execPaletteSet tag body s) := by
  refine order_followsScreen fun _ u => ?_
  simp only
  split
  · exact follows_answer _ _ _ _ u
  next hin =>
    refine .of_ok (fun ⟨hcol, hrow, hmcol, hmrow, hpalette, h0, h29, htext⟩ =>
      ⟨hcol, hrow, hmcol, hmrow, ?_, h0, h29, htext⟩) rfl
    have hlen : (coloursOf (body.drop 2)).length = (byteAt body 1).toNat := coloursOf_length (by rw [List.length_drop]; omega)
    exact (writePalette_length (by omega)).trans hpalette

theorem screen_followsScreen (tag : Byte) (body : List Byte) : NextMeets (ScreenFollows s) (execScreen tag body s) := by
  refine order_followsScreen fun _ u => ?_
  simp only
  split <;> exact .of_ok id rfl

/-! ## Other rows -/

theorem orderBadKind_movesScreen (kind tag : Byte) (body : List Byte) :
    NextMeets (ScreenMoves s) (execOrderBadKind kind tag body s) := by
  refine live_keeps (.refl s) fun _ => ?_
  have hhead := sameScreen_atHead ⟨kind, tag, body⟩ s
  simp only
  split
  · exact .refl s
  · split
    · exact hhead.moves.same (by simp [SameScreen])
    · exact hhead.moves

theorem selectPeriodStart_movesScreen : NextMeets (ScreenMoves s) (execSelectPeriodStart s) := by
  unfold execSelectPeriodStart
  (repeat' split) <;> exact nextMeets_next (SameScreen.moves (by simp [SameScreen]))

theorem selectPeriodEnd_movesScreen (bytes : List Byte) (stray : List Bool) :
    NextMeets (ScreenMoves s) (execSelectPeriodEnd bytes stray s) := by
  unfold execSelectPeriodEnd
  split
  · exact nextMeets_next (SameScreen.moves (by simp [SameScreen]))
  · split
    · exact nextMeets_next (SameScreen.moves (by simp [SameScreen]))
    · refine nextMeets_next (SameScreen.moves ?_)
      split <;> simp [SameScreen]

theorem drawColumn_movesScreen : NextMeets (ScreenMoves s) (execDrawColumn s) := by
  unfold execDrawColumn
  split
  · exact nextMeets_next (.refl s)
  · split
    · exact nextMeets_next (.refl s)
    · split
      · split
        · exact nextMeets_next (SameScreen.moves (by simp [SameScreen]))
        · rintro u ⟨⟩
      · exact nextMeets_next (.refl s)

theorem waveReadDone_movesScreen : NextMeets (ScreenMoves s) (execWaveReadDone s) := by
  have htaken : ∀ waves, ScreenMoves s { s with acq := { s.acq with waves := waves } } := fun _ =>
    SameScreen.moves (by simp [SameScreen])
  unfold execWaveReadDone
  split
  · exact nextMeets_next (.refl s)
  · split
    · exact nextMeets_next (.refl s)
    · split
      · split
        · split
          · exact nextMeets_next ((htaken _).answered _ _ _ _)
          · rintro u ⟨⟩
        · exact nextMeets_next ((htaken _).answered _ _ _ _)
      · exact nextMeets_next ((htaken _).answered _ _ _ _)

theorem laneConditionChange_movesScreen (n : Chan) (lock : Bool) :
    NextMeets (ScreenMoves s) (execLaneConditionChange n lock s) := by
  simp only [execLaneConditionChange]
  split <;> exact nextMeets_next (SameScreen.moves (by simp [SameScreen]))

theorem flashReadPageEnd_movesScreen (page : Vector Byte 256) : NextMeets (ScreenMoves s) (execFlashReadPageEnd page s) := by
  refine live_keeps (.refl s) fun _ => ?_
  split
  · split
    · exact screenMoves_endStep (screenMoves_readDone _) s
    · exact .refl s
  · exact .refl s

theorem flashProgramPageEnd_movesScreen : NextMeets (ScreenMoves s) (execFlashProgramPageEnd s) := by
  refine live_keeps (.refl s) fun _ => ?_
  split
  · split
    · split
      · exact screenMoves_endStep (screenMoves_alteredThen fun _ _ _ => by simp [SameScreen]) s
      · exact .refl s
    · exact .refl s
  · exact .refl s

theorem flashEraseSectorEnd_movesScreen : NextMeets (ScreenMoves s) (execFlashEraseSectorEnd s) := by
  refine live_keeps (.refl s) fun _ => ?_
  split
  · split
    · exact screenMoves_endStep (screenMoves_alteredThen fun _ _ _ => by simp [SameScreen]) s
    · exact .refl s
  · exact .refl s

theorem flashStepTimeout_movesScreen : NextMeets (ScreenMoves s) (execFlashStepTimeout s) := by
  refine live_keeps (.refl s) fun _ => ?_
  split
  · exact screenMoves_endStep (fun u => SameScreen.moves (by simp [SameScreen])) s
  · exact .refl s

/-- The codes of a row, then the write of the interval they complete. -/
theorem codesRow_movesScreen {codes : List Sample} {f : State → State} (hf : ∀ u, SameScreen u (f u)) :
    NextMeets (ScreenMoves s) (codesRow (fun s => f (passCodes codes s)) s) :=
  codesRow_keeps (.refl s) fun _ => (screenMoves_passCodes codes s).same (hf _)

theorem pointWritten_movesScreen (codes : List Sample) : NextMeets (ScreenMoves s) (execPointWritten codes s) := by
  refine codesRow_movesScreen (f := fun u => if intervalFull u ∧ u.acq.state ≠ .rolling then writePoint u else u) fun u => ?_
  split <;> simp [SameScreen]

theorem rollColumn_movesScreen (codes : List Sample) : NextMeets (ScreenMoves s) (execRollColumn codes s) := by
  refine codesRow_movesScreen (f := fun u => if intervalFull u ∧ u.acq.state = .rolling then writeColumn u else u) fun u => ?_
  split <;> simp [SameScreen]

theorem keyPress_movesScreen (key : Fin 64) : NextMeets (ScreenMoves s) (execKeyPress key s) := by
  have hswitch : ScreenMoves s (setSwitch key.val true s) := SameScreen.moves (by simp [SameScreen])
  refine live_keeps hswitch fun hs => ?_
  split
  · exact hs
  · exact hs.trans (screenMoves_pressKey _ _)

theorem knobDetent_movesScreen (knob : Fin 8) (dir : Dir) : NextMeets (ScreenMoves s) (execKnobDetent knob dir s) := by
  have hlines : ScreenMoves s (setLinesHigh knob.val s) := SameScreen.moves (by simp [SameScreen])
  exact live_keeps hlines fun hs => hs.trans (SameScreen.then (by simp [SameScreen]) (screenMoves_takeDetent _ _ _))

theorem drawJobStart_movesScreen : NextMeets (ScreenMoves s) (execDrawJobStart s) := by
  have htaken : ∀ u, SameScreen u (takeHeadEntry u) := fun u => by simp [SameScreen]
  exact live_keeps (.refl s) fun _ => (screenMoves_whenDue screenMoves_armHeld s).same (htaken _)

theorem frameEvent_movesScreen : NextMeets (ScreenMoves s) (execFrameEvent s) := by
  refine live_keeps (.refl s) fun _ => ?_
  split
  · split
    · exact screenMoves_frameEventAt _ _ s
    · exact .refl s
  · exact .refl s

/-- A row that does a thing if it is due. -/
theorem whenDue_movesScreen {due : State → Bool} {f : State → State} (hf : ∀ u, ScreenMoves u (f u)) :
    NextMeets (ScreenMoves s) (live (fun s => whenDue due f s) s) :=
  live_keeps (.refl s) fun _ => screenMoves_whenDue hf s

end

/-- R43, R124, R131, R135: every row. -/
theorem exec_followsScreen (i : Instr) (s : State) : NextMeets (ScreenFollows s) (exec i s) := by
  cases i with
  | coldReset => exact nextMeets_next ⟨fun _ => (coldScreen s).1, .inr (coldScreen s).2⟩
  | resetNLow => exact nextMeets_next (SameScreen.moves (by simp [SameScreen])).follows
  | selectPeriodStart => exact selectPeriodStart_movesScreen.follows
  | selectPeriodEnd bytes stray => exact (selectPeriodEnd_movesScreen bytes stray).follows
  | orderBadKind kind tag body => exact (orderBadKind_movesScreen kind tag body).follows
  | drawColumn => exact drawColumn_movesScreen.follows
  | waveReadDone => exact waveReadDone_movesScreen.follows
  | laneConditionChange n lock => exact (laneConditionChange_movesScreen n lock).follows
  | restart tag body => exact order_movesScreen (screenMoves_restartPart tag)
  | fieldSet tag body => exact fieldSet_movesScreen tag body
  | setupWrite tag body => exact setupWrite_movesScreen tag body
  | setupDefault tag body => exact order_movesScreen fun u => (screenMoves_adopt _ u).answered _ _ _ _
  | power tag body => exact power_movesScreen tag body
  | run tag body => exact unlessBlocked_movesScreen screenMoves_runAcq
  | stop tag body => exact unlessBlocked_movesScreen screenMoves_stopAcq
  | single tag body => exact unlessBlocked_movesScreen screenMoves_singleAcq
  | force tag body => exact unlessBlocked_movesScreen screenMoves_forceAcq
  | textPut tag body => exact textPut_followsScreen tag body
  | textMove tag body => exact textMove_followsScreen tag body
  | textMark tag body => exact textMark_followsScreen tag body
  | textReturn tag body => exact textReturn_followsScreen tag body
  | textErase tag body => exact textErase_followsScreen tag body
  | paletteSet tag body => exact paletteSet_followsScreen tag body
  | screen tag body => exact screen_followsScreen tag body
  | flashReadPageEnd page => exact (flashReadPageEnd_movesScreen page).follows
  | flashProgramPageEnd => exact flashProgramPageEnd_movesScreen.follows
  | flashEraseSectorEnd => exact flashEraseSectorEnd_movesScreen.follows
  | flashStepTimeout => exact flashStepTimeout_movesScreen.follows
  | keyPress key => exact (keyPress_movesScreen key).follows
  | knobDetent knob dir => exact (knobDetent_movesScreen knob dir).follows
  | knobBatchResult knob =>
    refine NextMeets.follows (live_keeps (.refl s) fun _ => ?_)
    split
    · exact screenMoves_batchResult _ s
    · exact .refl s
  | edgeTrigger codes => exact (codesRow_movesScreen (f := id) fun u => by simp [SameScreen]).follows
  | pointWritten codes => exact (pointWritten_movesScreen codes).follows
  | rollColumn codes => exact (rollColumn_movesScreen codes).follows
  | armAtRelease => exact (whenDue_movesScreen screenMoves_armHeld).follows
  | columnsLeftZero => exact (whenDue_movesScreen screenMoves_endRoll).follows
  | segmentReady => exact (whenDue_movesScreen screenMoves_becomeReady).follows
  | autoTrigger => exact (whenDue_movesScreen screenMoves_fireAuto).follows
  | captureEnd => exact (whenDue_movesScreen screenMoves_captureEnd).follows
  | storeJobStart => exact (whenDue_movesScreen fun u => SameScreen.moves (by simp [SameScreen])).follows
  | idleTimerExpiry => exact (whenDue_movesScreen fun u => (sameScreen_requestDark _ u).moves).follows
  | drawJobStart => exact drawJobStart_movesScreen.follows
  | frameEvent => exact frameEvent_movesScreen.follows
  | frameComplete bytes | lenAbove1024 bytes =>
    exact NextMeets.follows (live_keeps (.refl s) fun _ => SameScreen.moves (by simp [SameScreen]))
  | frameSent | keyRepeat key =>
    refine NextMeets.follows (live_keeps (.refl s) fun _ => SameScreen.moves ?_)
    (repeat' split) <;> simp [SameScreen]
  | keyRelease key =>
    have hswitch : SameScreen s (setSwitch key.val false s) := by simp [SameScreen]
    refine NextMeets.follows (live_keeps hswitch.moves fun hs => hs.same ?_)
    split <;> simp [SameScreen]
  | _ tag body => -- the orders that reach neither COMPOSE nor ACQ's state
    refine order_movesScreen fun u => SameScreen.moves ?_
    simp only [SameScreen]
    (repeat' split) <;> simp

/-- Settles O58: every row keeps the screen in bounds, and so does a tick that passes. -/
theorem everyStepKeepsTheScreenInBounds : Obligations.EveryStepKeepsTheScreenInBounds := by
  intro s t h ht
  have hstep : NextMeets (ScreenFollows s) (step s) := by
    unfold step
    split
    next i rest _ => exact exec_followsScreen i { s with pending := rest }
    next =>
      split
      next i _ => exact exec_followsScreen i s
      next => exact NextMeets.follows (codesRow_keeps (.refl s) fun _ => screenMoves_passCodes _ s)
  exact (hstep t ht).1 h

end Sys2Proof.Machine
end

section
/-! SUPPORT. A frame event, the decay of a plane, and the pixels that scanout sends (O38). -/

namespace Sys2Proof.Machine

/-! ## The frame event -/

/-- R118: a frame event at its tick. -/
theorem exec_frameEvent {s : State} {t0 : Tick} {k : Nat} (hreset : s.pins.resetLow = false)
    (htimer : s.compose.frameTimer = some (t0, k)) (htick : s.acq.timeTag = frameTick t0 (k + 1)) :
    exec .frameEvent s = .next (frameEventAt t0 (k + 1) s) := by
  have hreached : reached s.acq.timeTag (frameTick t0 (k + 1)) = true := by simp [reached, htick]
  rw [show exec .frameEvent s = execFrameEvent s from rfl, execFrameEvent, live_high hreset]
  simp only [htimer, hreached, if_true]

/-- The text plane once a frame event has taken or ended the ownership of the two rows (R134). -/
def frameText (s : State) : List (Nat × Cell) :=
  if s.setup.annot && !s.compose.owned then writeAnnotRows s.compose.annot0 s.compose.annot29 s.compose.text
  else s.compose.text

/-- R103, R118, R128, R134: what a frame event leaves. -/
theorem frameEventAt_eq (t0 : Tick) (k : Nat) (s : State) : frameEventAt t0 k s = { s with
    compose := { s.compose with
      frame := frameValues s
      duty := dutyOf s.setup.blratio s.setup.bllevel
      owned := s.setup.annot
      text := frameText s
      frameTimer := some (t0, k) }
    raster := if s.setup.persist = .finite then { s.raster with planes :=
        ⟨decayPlane s.setup.decay s.raster.planes.c1, decayPlane s.setup.decay s.raster.planes.c2,
         decayPlane s.setup.decay s.raster.planes.c3, decayPlane s.setup.decay s.raster.planes.c4⟩ } else s.raster } := by
  by_cases hfinite : s.setup.persist = .finite
  · simp only [frameEventAt, frameDecay, if_pos (show (takeFrameValues s).setup.persist = .finite from hfinite), if_pos hfinite]
    rfl
  · simp only [frameEventAt, frameDecay, if_neg (show ¬ (takeFrameValues s).setup.persist = .finite from hfinite),
      if_neg hfinite]
    rfl

/-- R134: a row newly owned shows its annotation, and every other cell stays. -/
theorem cellAt_frameText {s : State} (h0 : s.compose.annot0.length = 100) (h29 : s.compose.annot29.length = 100) {k : Nat}
    (hk : k < 3000) : cellAt (frameText s) k =
      (if s.setup.annot = true ∧ s.compose.owned = false ∧ k < 100 then ⟨s.compose.annot0.getD k 0x20, 5⟩
      else if s.setup.annot = true ∧ s.compose.owned = false ∧ 2900 ≤ k then ⟨s.compose.annot29.getD (k - 2900) 0x20, 5⟩
      else cellAt s.compose.text k) := by
  unfold frameText
  cases s.setup.annot <;> cases s.compose.owned
  case true.false => simp [cellAt_writeAnnotRows _ _ _ _ h0 h29, hk]
  all_goals simp

/-! ## Decay -/

/-- R103: the decayed intensity is a byte. -/
theorem decayed_toNat {d : Nat} (i : Byte) (hd : 1 ≤ d) : (decayed d i).toNat = i.toNat * (256 - d) / 256 := by
  have hlt : i.toNat * (256 - d) / 256 < 256 := by
    have hi := i.isLt
    have hmul : i.toNat * (256 - d) ≤ i.toNat * 255 := Nat.mul_le_mul_left _ (by omega)
    omega
  rw [decayed, BitVec.toNat_ofNat, Nat.mod_eq_of_lt hlt]

theorem intensity_decayPlane {d : Nat} {p : List (Nat × Byte)} (c r : Nat) (hd : 1 ≤ d) (hp : tabRising p = true) :
    (intensity (decayPlane d p) c r).toNat = (intensity p c r).toNat * (256 - d) / 256 := by
  rw [intensity, decayPlane, tabGet_refilled 0 (fun e => decayed d e.2) p _ hp, intensity, tabGet]
  cases tabGet? p (400 * c + r) with
  | none => simp
  | some i => exact decayed_toNat i hd

/-! ## Scanout -/

theorem framePixel_eq (s : State) {x : Nat} (y : Nat) (hx : x < 800) : framePixel s (800 * y + x) = pixelSent s x y := by
  have hcol : (800 * y + x) % 800 = x := by omega
  have hrow : (800 * y + x) / 800 = y := by omega
  simp only [framePixel, outputPosition, hcol, hrow]

theorem scanning_iff (s : State) : scanning s = true ↔ s.compose.frameTimer ≠ none := by
  rw [scanning, Option.isSome_iff_ne_none]

theorem pixEn_iff (s : State) (i : Nat) : pixEn s i = true ↔ s.compose.frameTimer ≠ none ∧ i < 384000 := by
  rw [pixEn, Bool.and_eq_true, scanning_iff, decide_eq_true_eq, framePixels]

/-- R127: the composed pixel that goes to an output position. -/
def orientedPixel (s : State) (x y : Nat) : Rgb :=
  match s.compose.frame.orient with
  | .normal => composedPixel s x y
  | .rotated => composedPixel s (799 - x) (479 - y)

theorem pixelSent_running {s : State} (x y : Nat) (h : s.compose.frameTimer ≠ none) :
    pixelSent s x y = applyMode s.compose.frame.mode (orientedPixel s x y) := if_pos ((scanning_iff s).mpr h)

/-- R129: while scanout is stopped the lines are 0 and PIX_EN is inactive. -/
theorem stopped_sends_nothing {s : State} (h : s.compose.frameTimer = none) :
    (∀ i, pixEn s i = false) ∧ ∀ x y, pixelSent s x y = ⟨0, 0, 0⟩ := by
  have hstopped : scanning s = false := by rw [scanning, h]; rfl
  exact ⟨fun i => by simp [pixEn, hstopped], fun x y => by simp [pixelSent, hstopped]⟩

theorem requestDark_stops {s : State} (c : MoveCause) (h : s.power.state = .on) :
    (requestDark c s).compose.frameTimer = none := by
  simp only [requestDark, h]
  rfl

theorem requestStandby_stops {s : State} (c : MoveCause) (h : s.power.state = .on) :
    (requestStandby c s).compose.frameTimer = none := by
  simp only [requestStandby, h, moveToStandby, autosave_frame, panelStandby_frame]
  rfl

/-- R129, R191, R192: a POWER order to DARK or STANDBY stops scanout. -/
theorem exec_power_stops {tag b : Byte} {s : State} (h : Ready 0x3F tag [b] s) (hpower : s.power.state = .on)
    (hb : b = 1 ∨ b = 2) : ∃ t, exec (.power tag [b]) s = .next t ∧ t.compose.frameTimer = none := by
  rcases hb with rfl | rfl
  · exact ⟨answerPower tag (requestDark .order (popInbound s)),
      (order_ready h _ _ rfl).trans (congrArg _ (if_neg (by simp [hpower]))), requestDark_stops .order hpower⟩
  · exact ⟨answerPower tag (requestStandby .order (popInbound s)), order_ready h _ _ rfl,
      requestStandby_stops .order hpower⟩

/-- Settles O38: the frame event, the decay of an intensity, the pixels in send order, and the stop of scanout. -/
theorem frameEventTakesValuesAndDecays : Obligations.FrameEventTakesValuesAndDecays := by
  refine ⟨fun s t0 k hreset htimer htick => ⟨frameText s, ?_, fun h0 h29 k hk => cellAt_frameText h0 h29 hk⟩,
    fun d p c r hd _ hp _ => intensity_decayPlane c r hd hp,
    fun s x y hx _ => framePixel_eq s y hx,
    fun i hi => ⟨i % 800, i / 800, by omega, by omega, by omega⟩,
    pixEn_iff, fun s x y p hscan hp => ?_,
    fun s x y h => (stopped_sends_nothing h).2 x y,
    fun tag b s h hpower hb => ?_⟩
  · exact (exec_frameEvent hreset htimer htick).trans (congrArg _ (frameEventAt_eq t0 (k + 1) s))
  · have hp : p = orientedPixel s x y := hp
    rw [pixelSent_running x y hscan, ← hp]
    exact ⟨fun hmode => congrArg (applyMode · p) hmode, fun hmode => congrArg (applyMode · p) hmode,
      fun hmode => congrArg (applyMode · p) hmode⟩
  · obtain ⟨t, ht, hstopped⟩ := exec_power_stops h hpower hb
    exact ⟨t, ht, stopped_sends_nothing hstopped⟩

end Sys2Proof.Machine
end

section
/-! SUPPORT. The orders of the cursor, the palette and the screen mode, and the layers that form a pixel (O39). -/

namespace Sys2Proof.Machine

/-! ## TEXT.MOVE, TEXT.MARK and TEXT.RETURN (R131) -/

theorem be_one (v : Nat) : be 1 v = [BitVec.ofNat 8 v] := by simp [be]

section
variable {tag a b : Byte} {s : State}

theorem exec_textMove_refused (h : Ready 0x23 tag [a, b] s) (hout : 99 < a.toNat ∨ 29 < b.toNat) :
    exec (.textMove tag [a, b]) s = .next (answered 0x23 tag .badValue [] s) :=
  (order_ready h _ _ rfl).trans (congrArg _ ((if_pos hout).trans (answer_popInbound _ _ _ _ s)))

theorem exec_textMove (h : Ready 0x23 tag [a, b] s) (hcol : a.toNat ≤ 99) (hrow : b.toNat ≤ 29) :
    exec (.textMove tag [a, b]) s = .next (answered 0x23 tag .ok
      ([a, b] ++ be 1 s.compose.mark.col ++ be 1 s.compose.mark.row)
      { s with compose := { s.compose with cursor := ⟨a.toNat, b.toNat⟩ } }) := by
  have hin : ¬ (99 < a.toNat ∨ 29 < b.toNat) := by omega
  have hitems : cursorItems { s.compose with cursor := ⟨a.toNat, b.toNat⟩ } =
      [a, b] ++ be 1 s.compose.mark.col ++ be 1 s.compose.mark.row := by
    simp [cursorItems, be_one]
  rw [← hitems]
  exact (order_ready h _ _ rfl).trans (congrArg _ ((if_neg hin).trans
    (answer_popInbound _ _ _ _ { s with compose := { s.compose with cursor := ⟨a.toNat, b.toNat⟩ } })))

theorem exec_textMark (h : Ready 0x24 tag [] s) : exec (.textMark tag []) s = .next (answered 0x24 tag .ok
    (cursorItems { s.compose with mark := s.compose.cursor })
    { s with compose := { s.compose with mark := s.compose.cursor } }) :=
  (order_ready h _ _ rfl).trans (congrArg _
    (answer_popInbound _ _ _ _ { s with compose := { s.compose with mark := s.compose.cursor } }))

theorem exec_textReturn (h : Ready 0x25 tag [] s) : exec (.textReturn tag []) s = .next (answered 0x25 tag .ok
    (cursorItems { s.compose with cursor := s.compose.mark })
    { s with compose := { s.compose with cursor := s.compose.mark } }) :=
  (order_ready h _ _ rfl).trans (congrArg _
    (answer_popInbound _ _ _ _ { s with compose := { s.compose with cursor := s.compose.mark } }))

end

/-! ## PALETTE.SET and SCREEN (R124, R126) -/

section
variable {tag f c : Byte} {cols : List Byte} {s : State} (h : Ready 0x27 tag (f :: c :: cols) s)
  (hmod : cols.length % 3 = 0) (hmin : 3 ≤ cols.length) (hmax : cols.length ≤ 48)
include hmod hmin hmax

theorem paletteSet_lengthOk :
    (decide (5 ≤ (f :: c :: cols).length) && decide ((f :: c :: cols).length ≤ 50) && (f :: c :: cols).length % 3 == 2) = true := by
  simp only [List.length_cons, Bool.and_eq_true, decide_eq_true_eq, beq_iff_eq]
  omega

include h

theorem exec_paletteSet_refused
    (hout : 15 < f.toNat ∨ c = 0 ∨ 16 < f.toNat + c.toNat ∨ 3 * c.toNat ≠ cols.length) :
    exec (.paletteSet tag (f :: c :: cols)) s = .next (answered 0x27 tag .badValue [] s) := by
  have hrefused : 15 < f.toNat ∨ c.toNat = 0 ∨ 16 < c.toNat ∨ 16 < f.toNat + c.toNat ∨
      3 * c.toNat + 2 ≠ (f :: c :: cols).length := by
    rcases hout with hf | rfl | hpast | hcount
    · exact .inl hf
    · exact .inr (.inl rfl)
    · exact .inr (.inr (.inr (.inl hpast)))
    · exact .inr (.inr (.inr (.inr (by simpa using hcount))))
  exact (order_ready h _ _ (paletteSet_lengthOk hmod hmin hmax)).trans
    (congrArg _ ((if_pos hrefused).trans (answer_popInbound _ _ _ _ s)))

theorem exec_paletteSet (hc : c ≠ 0) (hin : f.toNat + c.toNat ≤ 16) (hcount : 3 * c.toNat = cols.length) :
    exec (.paletteSet tag (f :: c :: cols)) s = .next (answered 0x27 tag .ok [] { s with
      compose := { s.compose with palette := writePalette f.toNat (coloursOf cols) s.compose.palette } }) := by
  have hc0 : c.toNat ≠ 0 := fun h0 => hc (BitVec.eq_of_toNat_eq h0)
  have htaken : ¬ (15 < f.toNat ∨ c.toNat = 0 ∨ 16 < c.toNat ∨ 16 < f.toNat + c.toNat ∨
      3 * c.toNat + 2 ≠ (f :: c :: cols).length) := by
    simp only [List.length_cons]
    omega
  exact (order_ready h _ _ (paletteSet_lengthOk hmod hmin hmax)).trans (congrArg _ ((if_neg htaken).trans
    (answer_popInbound _ _ _ _ { s with
      compose := { s.compose with palette := writePalette f.toNat (coloursOf cols) s.compose.palette } })))

end

theorem exec_screen_refused {tag m : Byte} {s : State} (h : Ready 0x28 tag [m] s) (hm : 3 ≤ m.toNat) :
    exec (.screen tag [m]) s = .next (answered 0x28 tag .badValue [] s) := by
  refine (order_ready h _ _ rfl).trans (congrArg _ ?_)
  have hbyte : (byteAt [m] 0).toNat = m.toNat := rfl
  simp only [hbyte]
  split
  · omega
  · omega
  · omega
  · exact answer_popInbound _ _ _ _ s

theorem exec_screen {tag m : Byte} {s : State} {x : ScreenMode} (h : Ready 0x28 tag [m] s)
    (hx : m = 0 ∧ x = .normal ∨ m = 1 ∧ x = .invert ∨ m = 2 ∧ x = .test) :
    exec (.screen tag [m]) s = .next (answered 0x28 tag .ok [] { s with compose := { s.compose with mode := x } }) := by
  have hput := answer_popInbound 0x28 tag .ok [] { s with compose := { s.compose with mode := x } }
  rcases hx with ⟨rfl, rfl⟩ | ⟨rfl, rfl⟩ | ⟨rfl, rfl⟩ <;> exact (order_ready h _ _ rfl).trans (congrArg _ hput)

/-! ## The layers of a pixel (R120 to R123, R125) -/

theorem cursorLit_iff (f : FrameValues) (c r : Nat) : cursorLit f c r = true ↔
    (f.curShow = .vertical ∨ f.curShow = .both) ∧ (c = f.curV1 ∨ c = f.curV2) ∧ r % 2 = 0 ∨
    (f.curShow = .horizontal ∨ f.curShow = .both) ∧ (r = f.curH1 ∨ r = f.curH2) ∧ c % 2 = 0 := by
  unfold cursorLit
  cases f.curShow <;> simp

theorem gratLit_iff (g : Graticule) {c r : Nat} (hc : c < 500) (hr : r < 400) : gratLit g c r = true ↔
    g ≠ .blank ∧ (c = 0 ∨ c = 499 ∨ r = 0 ∨ r = 399 ∨ r % 10 = 0 ∧ 248 ≤ c ∧ c ≤ 252 ∨ c % 10 = 0 ∧ 198 ≤ r ∧ r ≤ 202) ∨
    g = .full ∧ ((∃ k, 1 ≤ k ∧ k ≤ 9 ∧ c = 50 * k ∧ r % 5 = 0) ∨ ∃ k, 1 ≤ k ∧ k ≤ 7 ∧ r = 50 * k ∧ c % 5 = 0) := by
  have hvertical : (∃ k, 1 ≤ k ∧ k ≤ 9 ∧ c = 50 * k ∧ r % 5 = 0) ↔ c % 50 = 0 ∧ 50 ≤ c ∧ c ≤ 450 ∧ r % 5 = 0 :=
    ⟨fun ⟨k, _, _, _, _⟩ => by omega, fun _ => ⟨c / 50, by omega, by omega, by omega, by omega⟩⟩
  have hhorizontal : (∃ k, 1 ≤ k ∧ k ≤ 7 ∧ r = 50 * k ∧ c % 5 = 0) ↔ r % 50 = 0 ∧ 50 ≤ r ∧ r ≤ 350 ∧ c % 5 = 0 :=
    ⟨fun ⟨k, _, _, _, _⟩ => by omega, fun _ => ⟨r / 50, by omega, by omega, by omega, by omega⟩⟩
  rw [hvertical, hhorizontal]
  unfold gratLit
  cases g <;> simp only [Bool.or_eq_true, Bool.and_eq_true, decide_eq_true_eq, beq_iff_eq, ne_eq, reduceCtorEq,
    not_false_eq_true, not_true_eq_false, true_and, false_and, or_false, Bool.false_eq_true]
  · omega
  · omega

/-- R120, R125: the trace of the first channel with an intensity. -/
theorem tracePixel_first {s : State} {c r : Nat} {n : Chan} {hit : Chan → Nat}
    (hhit : ∀ m, hit m = (intensity (s.raster.planes.get m) ((s.compose.startCol + c) % 500) r).toNat)
    (hn : hit n ≠ 0) (hfirst : ∀ m : Chan, m.num < n.num → hit m = 0) : tracePixel s c r =
      some (shade (paletteAt s.compose.frame.palette (s.compose.frame.color.get n)) (levelOf (hit n) s.compose.frame.tbright)) := by
  have hzero : ∀ m, (intensity (s.raster.planes.get m) ((s.compose.startCol + c) % 500) r != 0) = decide (hit m ≠ 0) := fun m => by
    rw [Bool.eq_iff_iff, bne_iff_ne, decide_eq_true_iff, hhit m, ne_eq, ne_eq, ← BitVec.toNat_inj]
    rfl
  have hfind : Chan.all.find? (fun m => decide (hit m ≠ 0)) = some n := by
    cases n <;> simp_all [Chan.all, Chan.num]
  simp only [tracePixel, hzero, hfind, Option.map_some, hhit n]

theorem tracePixel_none {s : State} {c r : Nat}
    (h : ∀ m, (intensity (s.raster.planes.get m) ((s.compose.startCol + c) % 500) r).toNat = 0) : tracePixel s c r = none := by
  have hzero : ∀ m, intensity (s.raster.planes.get m) ((s.compose.startCol + c) % 500) r = 0 := fun m =>
    BitVec.eq_of_toNat_eq (h m)
  simp [tracePixel, hzero]

theorem textPixel_eq (s : State) (x y : Nat) (cell : Cell) (hcell : cell = cellAt s.compose.text (100 * (y / 16) + x / 8)) :
    textPixel s x y = if (decide (cell.code ≠ 0x20) && Config.glyph cell.code (x % 8) (y % 16)) = true then
      some (paletteAt s.compose.frame.palette cell.attr) else none := by
  subst hcell
  simp [textPixel]

section
variable {s : State} {x y : Nat}

theorem composedPixel_cursor (h : (inWindow x y && cursorLit s.compose.frame (x - 40) (y - 40)) = true) :
    composedPixel s x y = paletteAt s.compose.frame.palette 9 := if_pos h

variable (hcursor : (inWindow x y && cursorLit s.compose.frame (x - 40) (y - 40)) = false)
include hcursor

theorem composedPixel_text {c : Rgb} (htext : textPixel s x y = some c) : composedPixel s x y = c := by
  simp only [composedPixel, hcursor, htext, Bool.false_eq_true, if_false]

theorem composedPixel_trace {c : Rgb} (htext : textPixel s x y = none) (hwindow : inWindow x y = true)
    (htrace : tracePixel s (x - 40) (y - 40) = some c) : composedPixel s x y = c := by
  rw [hwindow, Bool.true_and] at hcursor
  simp only [composedPixel, hcursor, htext, hwindow, htrace, Bool.true_and, Bool.false_eq_true, if_true, if_false]

theorem composedPixel_ground (htext : textPixel s x y = none)
    (htrace : inWindow x y = true → tracePixel s (x - 40) (y - 40) = none) :
    composedPixel s x y = if inWindow x y && gratLit s.compose.frame.grat (x - 40) (y - 40) then
      shade (paletteAt s.compose.frame.palette 6) (levelOf 255 s.compose.frame.gbright)
      else paletteAt s.compose.frame.palette 0 := by
  have hnone : (if inWindow x y then tracePixel s (x - 40) (y - 40) else none) = none := by
    split
    · next hw => exact htrace hw
    · rfl
  simp only [composedPixel, hcursor, htext, hnone, Bool.false_eq_true, if_false]

end

theorem inWindow_eq (x y : Nat) : inWindow x y = decide (40 ≤ x ∧ x < 540 ∧ 40 ≤ y ∧ y < 440) := by
  simp [inWindow, Bool.and_assoc]

/-! ## O39 -/

/-- Settles O39: each order's table row with its effect (`order_ready`), and the layers of a pixel in their order, the first
that claims it giving the colour. -/
theorem cursorPaletteAndScreenOrders : Obligations.CursorPaletteAndScreenOrders := by
  refine ⟨fun tag a b s => ⟨fun h => ⟨exec_textMove_refused h, exec_textMove h⟩, exec_textMark, exec_textReturn⟩,
    ⟨fun tag f c cols s h hmod hmin hmax => ⟨exec_paletteSet_refused h hmod hmin hmax, fun hc hin hcount hlen => ?palette⟩,
      fun tag m s h => ⟨exec_screen_refused h, fun x => exec_screen h⟩⟩,
    cursorLit_iff, fun g c r => gratLit_iff g, ?pixel⟩
  case palette =>
    have hwritten : (coloursOf cols).length = c.toNat := coloursOf_length hcount
    have hfit : f.toNat + (coloursOf cols).length ≤ s.compose.palette.length := by omega
    refine ⟨_, exec_paletteSet h hmod hmin hmax hc hin hcount, (writePalette_length hfit).trans hlen, fun i _ => ?_⟩
    rw [writePalette_getD _ i hfit, hwritten]
    split
    · exact coloursOf_getD hcount (by omega)
    · rfl
  case pixel =>
    rintro s x y f window cursor text cell hit shown rfl rfl rfl hcell rfl hhit rfl
    rw [← inWindow_eq]
    have htextPixel := textPixel_eq s x y cell hcell
    refine ⟨composedPixel_cursor, fun hcursor htext => ?_, fun n hcursor htext hwindow hn hfirst => ?_,
      fun hcursor htext hdark => ?_⟩
    · exact composedPixel_text hcursor (htextPixel.trans (if_pos htext))
    · exact composedPixel_trace hcursor (htextPixel.trans (if_neg (ne_true_of_eq_false htext))) hwindow
        (tracePixel_first (fun m => congrFun hhit m) hn hfirst)
    · exact composedPixel_ground hcursor (htextPixel.trans (if_neg (ne_true_of_eq_false htext)))
        fun hwindow => tracePixel_none fun m => (congrFun hhit m).symm.trans (hdark hwindow m)

end Sys2Proof.Machine
end

section
/-! SUPPORT. The text orders, the characters of the annotation, and the rebuild that a change of the record brings (O40). -/

namespace Sys2Proof.Machine

/-! ## TEXT.PUT and TEXT.ERASE (R132, R133) -/

/-- R130: the codes that have a character. -/
theorem textCode_iff (c : Byte) :
    textCode c = true ↔ 0x20 ≤ c.toNat ∧ c.toNat ≤ 0x7E ∨ 0x80 ≤ c.toNat ∧ c.toNat ≤ 0x8F := by
  simp [textCode, printable]

/-- R132: the colour or a code that TEXT.PUT refuses. -/
theorem textPut_badValue_iff (attr : Nat) (cs : List Byte) : (15 < attr ∨ cs.any (fun c => !textCode c) = true) ↔
    15 < attr ∨ ∃ c ∈ cs, ¬ (0x20 ≤ c.toNat ∧ c.toNat ≤ 0x7E ∨ 0x80 ≤ c.toNat ∧ c.toNat ≤ 0x8F) := by
  simp only [List.any_eq_true, Bool.not_eq_true', ← Bool.not_eq_true, textCode_iff]

section
variable {tag a : Byte} {cs : List Byte} {s : State} {k : Nat} (h : Ready 0x22 tag (a :: cs) s) (hmin : 1 ≤ cs.length)
  (hmax : cs.length ≤ 1000)
include hmin hmax

theorem textPut_lengthOk : (decide (2 ≤ (a :: cs).length) && decide ((a :: cs).length ≤ 1001)) = true := by
  simp only [List.length_cons, Bool.and_eq_true, decide_eq_true_eq]
  omega

include h

theorem exec_textPut_refused
    (hbad : 15 < a.toNat ∨ ∃ c ∈ cs, ¬ (0x20 ≤ c.toNat ∧ c.toNat ≤ 0x7E ∨ 0x80 ≤ c.toNat ∧ c.toNat ≤ 0x8F)) :
    exec (.textPut tag (a :: cs)) s = .next (answered 0x22 tag .badValue [] s) :=
  (order_ready h _ _ (textPut_lengthOk hmin hmax)).trans (congrArg _
    ((if_pos ((textPut_badValue_iff _ _).mpr hbad)).trans (answer_popInbound _ _ _ _ s)))

variable (hok : ¬ (15 < a.toNat ∨ ∃ c ∈ cs, ¬ (0x20 ≤ c.toNat ∧ c.toNat ≤ 0x7E ∨ 0x80 ≤ c.toNat ∧ c.toNat ≤ 0x8F)))
include hok

theorem exec_textPut_owned (howned : runOwned s.compose.owned s.compose.cursor.index cs.length = true) :
    exec (.textPut tag (a :: cs)) s = .next (answered 0x22 tag .owned [] s) :=
  (order_ready h _ _ (textPut_lengthOk hmin hmax)).trans (congrArg _
    ((if_neg (mt (textPut_badValue_iff _ _).mp hok)).trans ((if_pos howned).trans (answer_popInbound _ _ _ _ s))))

theorem exec_textPut (hfree : ¬ runOwned s.compose.owned s.compose.cursor.index cs.length = true) :
    exec (.textPut tag (a :: cs)) s = .next (answered 0x22 tag .ok
      (be 1 (CellPos.ofIndex ((s.compose.cursor.index + cs.length) % 3000)).col ++
        be 1 (CellPos.ofIndex ((s.compose.cursor.index + cs.length) % 3000)).row)
      { s with compose := { s.compose with
        text := putRun a.toNat cs s.compose.cursor.index s.compose.text
        cursor := CellPos.ofIndex ((s.compose.cursor.index + cs.length) % 3000) } }) :=
  (order_ready h _ _ (textPut_lengthOk hmin hmax)).trans (congrArg _
    ((if_neg (mt (textPut_badValue_iff _ _).mp hok)).trans ((if_neg hfree).trans
      (answer_popInbound _ _ _ _ { s with compose := { s.compose with
        text := putRun a.toNat cs s.compose.cursor.index s.compose.text
        cursor := CellPos.ofIndex ((s.compose.cursor.index + cs.length) % 3000) } }))))

end

section
variable {tag c r w h : Byte} {s : State} (hready : Ready 0x26 tag [c, r, w, h] s)
include hready

theorem exec_textErase_refused
    (hout : 99 < c.toNat ∨ 29 < r.toNat ∨ w = 0 ∨ h = 0 ∨ 100 < c.toNat + w.toNat ∨ 30 < r.toNat + h.toNat) :
    exec (.textErase tag [c, r, w, h]) s = .next (answered 0x26 tag .badValue [] s) := by
  rw [← BitVec.toNat_inj (x := w), ← BitVec.toNat_inj (x := h)] at hout
  exact (order_ready hready _ _ rfl).trans (congrArg _ ((if_pos hout).trans (answer_popInbound _ _ _ _ s)))

variable (hw : w ≠ 0) (hh : h ≠ 0) (hcols : c.toNat + w.toNat ≤ 100) (hrows : r.toNat + h.toNat ≤ 30)
include hw hh hcols hrows

/-- R133: the rectangle lies in the plane; the order then turns on the ownership of rows 0 and 29. -/
theorem exec_textErase_inPlane : exec (.textErase tag [c, r, w, h]) s = .next
    (if (s.compose.owned && (decide (r.toNat = 0) || decide (r.toNat + h.toNat = 30))) = true then
      answered 0x26 tag .owned [] s
    else answered 0x26 tag .ok [] { s with compose := { s.compose with
      text := eraseRect c.toNat r.toNat w.toNat h.toNat s.compose.text } }) := by
  have hin : ¬ (99 < c.toNat ∨ 29 < r.toNat ∨ w.toNat = 0 ∨ h.toNat = 0 ∨ 100 < c.toNat + w.toNat ∨
      30 < r.toNat + h.toNat) := by
    have hw0 : w.toNat ≠ 0 := fun h0 => hw (BitVec.eq_of_toNat_eq h0)
    have hh0 : h.toNat ≠ 0 := fun h0 => hh (BitVec.eq_of_toNat_eq h0)
    omega
  refine (order_ready hready _ _ rfl).trans (congrArg _ ((if_neg hin).trans ?_))
  exact if_congr Iff.rfl (answer_popInbound _ _ _ _ s) (answer_popInbound _ _ _ _ { s with compose := { s.compose with
    text := eraseRect c.toNat r.toNat w.toNat h.toNat s.compose.text } })

end

theorem inRect_cell (col row w h v : Nat) {u : Nat} (hu : u < 100) :
    inRect col row w h (100 * v + u) = true ↔ col ≤ u ∧ u < col + w ∧ row ≤ v ∧ v < row + h := by
  have hcol : (100 * v + u) % 100 = u := by omega
  have hrow : (100 * v + u) / 100 = v := by omega
  simp [inRect, hcol, hrow, and_assoc]

/-! ## The characters of the annotation (R136 to R138) -/

theorem voltText_length (m : Nat) : (voltText m).length = 6 := by
  unfold voltText
  (repeat' split) <;> rfl

theorem voltText_eq (m : Nat) (d : Nat → Byte) (hd : d = fun p => BitVec.ofNat 8 (0x30 + m / p % 10)) : voltText m =
    if m < 10000 then [d 1000, 0x2E, d 100, d 10, 0x6D, 0x56]
    else if m < 100000 then [d 10000, d 1000, 0x2E, d 100, 0x6D, 0x56]
    else if m < 1000000 then [d 100000, d 10000, d 1000, 0x6D, 0x56, 0x20]
    else if m < 10000000 then [d 1000000, 0x2E, d 100000, d 10000, 0x56, 0x20]
    else [d 10000000, d 1000000, 0x2E, d 100000, 0x56, 0x20] := by
  subst hd
  rfl

/-- R137: the names of the times per division. -/
def timeNames : List String :=
  ["10ns  ", "20ns  ", "50ns  ", "100ns ", "200ns ", "500ns ", "1us   ", "2us   ", "5us   ", "10us  ", "20us  ", "50us  ",
    "100us ", "200us ", "500us ", "1ms   ", "2ms   ", "5ms   ", "10ms  ", "20ms  ", "50ms  ", "100ms ", "200ms ", "500ms ",
    "1s    ", "2s    ", "5s    ", "10s   ", "20s   ", "50s   "]

theorem timeText_timeNames : (List.range 30).map timeText = timeNames.map ascii := by decide

theorem timeText_of_name {tbase : Nat} {time : String} (h : timeNames[tbase]? = some time) : timeText tbase = ascii time := by
  have hlt : tbase < 30 := (List.getElem?_eq_some_iff.mp h).1
  have hentry := congrArg (·[tbase]?) timeText_timeNames
  simpa [List.getElem?_map, h, List.getElem?_range hlt] using hentry

theorem timeText_length (tbase : Nat) : (timeText tbase).length = 6 := by
  simp [timeText, padText]

theorem padText_of_le {w : Nat} {t : List Byte} (h : t.length ≤ w) : padText w t = t ++ List.replicate (w - t.length) 0x20 := by
  simp [padText, List.take_append, List.take_of_length_le h, List.take_replicate]

theorem wordText_length (a : AcqState) (m : TrigMode) : (wordText a m).length = 4 := by
  cases a
  case waiting => cases m <;> rfl
  all_goals rfl

theorem levelText_length (u : Setup) : (levelText u).length = 7 := by
  unfold levelText
  split
  · rfl
  · rw [List.length_cons, voltText_length]

theorem sourceText_chan (n : Chan) : sourceText (.chan n) = [0x43, 0x48, BitVec.ofNat 8 (0x30 + n.num)] := by
  cases n <;> rfl

theorem sourceText_length (src : TrigSource) : (sourceText src).length = 3 := by cases src <;> rfl

/-- R137: row 0 has 23 cells of text. -/
theorem annotRow0_eq (u : Setup) (a : AcqState) : annotRow0 u a =
    wordText a u.tmode ++ [0x20] ++ timeText u.tbase ++ [0x20] ++ sourceText u.tsrc ++ [slopeGlyph u.tslope] ++ levelText u ++
      List.replicate 77 0x20 := by
  have hlen : (wordText a u.tmode ++ [0x20] ++ timeText u.tbase ++ [0x20] ++ sourceText u.tsrc ++ [slopeGlyph u.tslope] ++
      levelText u).length = 23 := by
    simp only [List.length_append, wordText_length, timeText_length, sourceText_length, levelText_length, List.length_cons,
      List.length_nil]
  rw [annotRow0, padText_of_le (by omega), hlen]

theorem slotText_length (u : Setup) (n : Chan) : (slotText u n).length = 10 := by
  unfold slotText
  split
  · rw [List.length_append, voltText_length]
    rfl
  · rfl

/-- R138: row 29 has 46 cells of slots. -/
theorem annotRow29_eq (u : Setup) : annotRow29 u =
    slotText u .ch1 ++ [0x20, 0x20] ++ slotText u .ch2 ++ [0x20, 0x20] ++ slotText u .ch3 ++ [0x20, 0x20] ++ slotText u .ch4 ++
      List.replicate 54 0x20 := by
  have hlen : (slotText u .ch1 ++ [0x20, 0x20] ++ slotText u .ch2 ++ [0x20, 0x20] ++ slotText u .ch3 ++ [0x20, 0x20] ++
      slotText u .ch4).length = 46 := by
    simp only [List.length_append, slotText_length, List.length_cons, List.length_nil]
  rw [annotRow29, padText_of_le (by omega), hlen]

/-! ## The rebuild of the annotation (R15, R135) -/

theorem refreshesAnnotation_iff (a b : Setup) : refreshesAnnotation a b = true ↔
    (∃ n, (a.ch.get n).on ≠ (b.ch.get n).on ∨ (a.ch.get n).scale ≠ (b.ch.get n).scale) ∨ a.tbase ≠ b.tbase ∨ a.tsrc ≠ b.tsrc ∨
      a.tslope ≠ b.tslope ∨ a.tlevel ≠ b.tlevel ∨ a.tmode ≠ b.tmode ∨ a.runmode ≠ b.runmode ∨ a.roll ≠ b.roll := by
  simp only [refreshesAnnotation, Bool.or_eq_true, List.any_eq_true, mem_chanAll, true_and, decide_eq_true_eq, or_assoc]

theorem not_refreshesAnnotation_self (a : Setup) : refreshesAnnotation a a = false := by simp [refreshesAnnotation]

/-- R13: the blocks but the annotation, told of a stored change. -/
def toldBlocks (u : Setup) (s : State) : State :=
  tellMap s.setup u (tellTrig s.setup u (tellAcq s.setup u (laneAfterChange s.setup u (stored u s))))

theorem adopt_of_refreshes {u : Setup} {s : State} (h : refreshesAnnotation s.setup u = true) :
    adopt u s = rebuildAnnotation (toldBlocks u s) := by
  have hne : u ≠ s.setup := fun hu => by
    rw [hu, not_refreshesAnnotation_self] at h
    cases h
  exact (if_neg hne).trans (if_pos h)

/-- R13: while ACQ is STOPPED the blocks write no cell. -/
theorem toldBlocks_text_of_stopped (u : Setup) {s : State} (h : s.acq.state = .stopped) :
    (toldBlocks u s).compose.text = s.compose.text := by
  have hlane : (laneAfterChange s.setup u (stored u s)).acq.state = .stopped := by simpa [stored] using h
  have hacq : tellAcq s.setup u (laneAfterChange s.setup u (stored u s)) = laneAfterChange s.setup u (stored u s) := by
    unfold tellAcq acqChange
    rw [hlane]
    exact ite_self _
  have hquiet := tellTrig_quiet (a := s.setup) (b := u) (autoDue_of_ne_waiting (s := laneAfterChange s.setup u (stored u s))
    (by rw [hlane]; simp))
  have hmap : ∀ t, (tellMap s.setup u t).compose = t.compose := fun t => by simp
  have hcompose : (laneAfterChange s.setup u (stored u s)).compose = s.compose := by simp [stored]
  rw [toldBlocks, hacq, hmap]
  rcases hquiet with ht | ht
  · rw [ht, hcompose]
  · rw [ht, clearPrimes, hcompose]

/-- R15: while ACQ is STOPPED a rebuild writes the two rows when they are owned, and no other cell. -/
theorem adopt_text_of_stopped {u : Setup} {s : State} (hadopt : adopt u s = rebuildAnnotation (toldBlocks u s))
    (hstopped : s.acq.state = .stopped) :
    (∀ k, 100 ≤ k → k < 2900 → cellAt (adopt u s).compose.text k = cellAt s.compose.text k) ∧
    (s.compose.owned = false → (adopt u s).compose.text = s.compose.text) := by
  have htold := toldBlocks_text_of_stopped u hstopped
  obtain ⟨h0, h29⟩ := annotRows_length (toldBlocks u s).setup (toldBlocks u s).acq.state
  have howned : (toldBlocks u s).compose.owned = s.compose.owned := by
    rw [← show (adopt u s).compose.owned = s.compose.owned by simp, hadopt]
    rfl
  rw [hadopt, rebuildAnnotation, howned, htold]
  refine ⟨fun k hk hk' => ?_, fun h => if_neg (by simp [h])⟩
  cases s.compose.owned with
  | false => rfl
  | true =>
    refine (cellAt_writeAnnotRows _ _ _ k h0 h29).trans ?_
    rw [if_neg (by omega), if_neg (by omega)]

/-! ## O40 -/

/-- Settles O40: the two text orders by their table rows and the cells a run and a rectangle leave, the rows of the annotation
by their characters, and the rebuild that a refreshing change and each new state of ACQ bring (`exec_followsScreen`). -/
theorem textPutAndErase : Obligations.TextPutAndErase := by
  refine ⟨?put, ?erase, fun m d _ => voltText_eq m d, ?row0, ?row29, ?change, fun i s t ht hne => ?state⟩
  case put =>
    rintro tag a cs s k h hmin hmax rfl hk
    refine ⟨exec_textPut_refused h hmin hmax, fun ha hcs => ?_⟩
    have hok : ¬ (15 < a.toNat ∨ ∃ c ∈ cs, ¬ (0x20 ≤ c.toNat ∧ c.toNat ≤ 0x7E ∨ 0x80 ≤ c.toNat ∧ c.toNat ≤ 0x8F)) := by
      rintro (hattr | ⟨c, hc, hcode⟩)
      · omega
      · exact hcode (hcs c hc)
    refine ⟨fun howned hmeets => ?_, fun hfree => ?_⟩
    · exact exec_textPut_owned h hmin hmax hok ((runOwned_iff _ _ _).mpr ⟨howned, hmeets⟩)
    · have hnot : ¬ runOwned s.compose.owned s.compose.cursor.index cs.length = true := fun hmeets => by
        obtain ⟨howned, i, hi, hrow⟩ := (runOwned_iff _ _ _).mp hmeets
        rcases hfree with hunowned | hclear
        · rw [howned] at hunowned
          cases hunowned
        · have := hclear i hi
          rw [CellPos.index] at hrow
          omega
      exact ⟨_, exec_textPut h hmin hmax hok hnot, fun i hi => cellAt_putRun _ _ hk (by omega) hi,
        fun x hx => cellAt_putRun_other _ _ hk hx⟩
  case erase =>
    intro tag c r w h s hready hrising
    refine ⟨exec_textErase_refused hready, fun hw hh hcols hrows => ?_⟩
    have hexec := exec_textErase_inPlane hready hw hh hcols hrows
    have hmeets_iff : (s.compose.owned && (decide (r.toNat = 0) || decide (r.toNat + h.toNat = 30))) = true ↔
        s.compose.owned = true ∧ (r = 0 ∨ r.toNat + h.toNat = 30) := by
      rw [← BitVec.toNat_inj (x := r), Bool.and_eq_true, Bool.or_eq_true, decide_eq_true_eq, decide_eq_true_eq]
      rfl
    refine ⟨fun howned hmeets => hexec.trans (by rw [if_pos (hmeets_iff.mpr ⟨howned, hmeets⟩)]), fun hfree => ?_⟩
    · have hnot : ¬ (s.compose.owned = true ∧ (r = 0 ∨ r.toNat + h.toNat = 30)) := by
        rintro ⟨howned, hmeets⟩
        rcases hfree with hunowned | ⟨hrow, hlast⟩
        · rw [howned] at hunowned
          cases hunowned
        · exact hmeets.elim hrow (Nat.ne_of_lt hlast)
      rw [hexec, if_neg (mt hmeets_iff.mp hnot)]
      refine ⟨_, rfl, fun u v hu _ => ?_⟩
      rw [cellAt_eraseRect _ hrising, if_congr (inRect_cell _ _ _ _ _ hu) rfl rfl]
  case row0 =>
    rintro u a word time source level - hword htime hsource hlevel
    have hword' : wordText a u.tmode = ascii word := by
      rw [hword]
      cases a
      case waiting => cases u.tmode <;> rfl
      all_goals rfl
    have hsource' : sourceText u.tsrc = source := by
      rw [hsource]
      cases u.tsrc with
      | ext => rfl
      | chan n => exact sourceText_chan n
    have hlevel' : levelText u = level := hlevel.symm
    rw [annotRow0_eq, hword', timeText_of_name htime, hsource', hlevel']
    rfl
  case row29 =>
    rintro u slot rfl
    rw [annotRow29_eq]
    rfl
  case change =>
    rintro u s c rfl hchange
    have hadopt := adopt_of_refreshes ((refreshesAnnotation_iff _ _).mpr hchange)
    have hshown : AnnotShown (adopt u s) := hadopt ▸ annotShown_rebuildAnnotation (toldBlocks u s)
    obtain ⟨h0, h29, hcells⟩ := hshown
    have hsetup : (adopt u s).setup = u := (adopt_record u s).1
    have howned : (adopt u s).compose.owned = s.compose.owned := by simp
    rw [hsetup] at h0 h29
    refine ⟨h0, h29, howned, fun h => hcells (howned.trans h), fun hstopped => ?_⟩
    exact adopt_text_of_stopped hadopt hstopped
  case state => exact (exec_followsScreen i s t ht).2.resolve_left hne

end Sys2Proof.Machine
end
